-- ==== Sys2Proof/Word.lean ====
section
/-! DEFINITION. The words of the Skovlux 9400 and the shape every keyed table of the model has. -/

namespace Sys2Proof

/-- One byte of memory. -/
abbrev Byte := BitVec 8

/-- One lane of a vector register: 32 bits (R32). -/
abbrev Lane := BitVec 32

/-- One scalar register: 64 bits (R36). -/
abbrev Scalar := BitVec 64

/-- A lane mask such as XM and CM: bit i belongs to lane i (R39). -/
abbrev Mask := BitVec 64

/-- A table of values by natural-number key.  The operations of Machine/Ops.lean keep the keys rising. -/
abbrev Table (α : Type) := List (Nat × α)

end Sys2Proof
end

