-- ==== Sys2Proof/Syntax.lean ====
section
/-! DEFINITION. The instructions of the Skovlux 9400, one constructor for each row of the table of operations and
events: the 227 words of the opcode map (R53), and the 97 steps that no word names (an arriving result, a host's
request, a timer).  A register field holds any of its 128 values by name (R37, R38); whether a value fits the
field is WellFormed.lean's question.  The park mark S (R45) is no part of an instruction. -/

namespace Sys2Proof

/-- The 128 values of a register field (R33, R36, R37). -/
inductive Reg
  /-- 0 to 95: vector register of the window -/
  | v (n : Fin 96)
  /-- 96 to 119: scalar register -/
  | s (n : Fin 24)
  | nul | lane | plane | xm | cm | gix | grx | clk
  deriving DecidableEq, Repr

/-- A host function that sends a request: a page of a virtual function, with the request's T bit (R357), or the physical
function of a port (R332). -/
inductive HostFn
  | vf (n page : Nat) (t : Bool)
  | pf (port : Nat)
  deriving DecidableEq, Repr

/-- The instructions and events. -/
inductive Instr
  -- SINT, major 0: 64-bit scalar integer (R60)
  /-- `sadd` (R60): writes the 64-bit wrapping sum of two scalars to a scalar -/
  | sadd (d a b : Reg)
  /-- `ssub` (R60): writes the 64-bit wrapping difference of two scalars -/
  | ssub (d a b : Reg)
  /-- `smul` (R60): writes bits [63:0] of the product of two scalars -/
  | smul (d a b : Reg)
  /-- `smulh.i` (R60): writes the high 64 bits of the signed 128-bit product -/
  | smulhI (d a b : Reg)
  /-- `smulh.n` (R60): writes the high 64 bits of the unsigned 128-bit product -/
  | smulhN (d a b : Reg)
  /-- `sdiv.i` (R60): writes the signed quotient truncated toward zero, with the defined results of R62 -/
  | sdivI (d a b : Reg)
  /-- `sdiv.n` (R60): writes the unsigned quotient, with the defined results of R62 -/
  | sdivN (d a b : Reg)
  /-- `smod.i` (R60): writes the signed remainder, which has the sign of the dividend -/
  | smodI (d a b : Reg)
  /-- `smod.n` (R60): writes the unsigned remainder -/
  | smodN (d a b : Reg)
  /-- `sand` (R60): writes the bitwise AND of two scalars -/
  | sand (d a b : Reg)
  /-- `sor` (R60): writes the bitwise OR of two scalars -/
  | sor (d a b : Reg)
  /-- `sxor` (R60): writes the bitwise XOR of two scalars -/
  | sxor (d a b : Reg)
  /-- `sandn` (R60): writes a AND NOT b -/
  | sandn (d a b : Reg)
  /-- `sshl` (R61): shifts a scalar left by b[5:0] -/
  | sshl (d a b : Reg)
  /-- `sshr` (R61): shifts a scalar right by b[5:0], filling with zeros -/
  | sshr (d a b : Reg)
  /-- `ssra` (R61): shifts a scalar right by b[5:0], filling with its sign bit -/
  | ssra (d a b : Reg)
  /-- `smin.i` (R60): writes the signed minimum of two scalars -/
  | sminI (d a b : Reg)
  /-- `smin.n` (R60): writes the unsigned minimum of two scalars -/
  | sminN (d a b : Reg)
  /-- `smax.i` (R60): writes the signed maximum of two scalars -/
  | smaxI (d a b : Reg)
  /-- `smax.n` (R60): writes the unsigned maximum of two scalars -/
  | smaxN (d a b : Reg)
  /-- `sslt.i` (R60): writes 1 if a < b as signed values, else 0 -/
  | ssltI (d a b : Reg)
  /-- `sslt.n` (R60): writes 1 if a < b as unsigned values, else 0 -/
  | ssltN (d a b : Reg)
  /-- `sseq` (R60): writes 1 if a = b, else 0 -/
  | sseq (d a b : Reg)
  /-- `sclz` (R60): writes the number of leading zero bits of a scalar -/
  | sclz (d a : Reg)
  /-- `spop` (R60): writes the number of one bits of a scalar -/
  | spop (d a : Reg)
  /-- `smov` (R60): copies a scalar to a scalar -/
  | smov (d a : Reg)
  -- VINT, major 1: 32-bit lane integer (R116)
  /-- `vadd` (R116): adds two vectors lane by lane, wrapping modulo 2^32 -/
  | vadd (d a b : Reg)
  /-- `vsub` (R116): subtracts two vectors lane by lane -/
  | vsub (d a b : Reg)
  /-- `vmul` (R116): writes the low 32 bits of each lane product -/
  | vmul (d a b : Reg)
  /-- `vmulh.i` (R116): writes the high 32 bits of each signed lane product -/
  | vmulhI (d a b : Reg)
  /-- `vmulh.n` (R116): writes the high 32 bits of each unsigned lane product -/
  | vmulhN (d a b : Reg)
  /-- `vmad` (R116): adds each lane product to the destination lane -/
  | vmad (d a b : Reg)
  /-- `vmin.i` (R116): writes the signed minimum of each lane pair -/
  | vminI (d a b : Reg)
  /-- `vmin.n` (R116): writes the unsigned minimum of each lane pair -/
  | vminN (d a b : Reg)
  /-- `vmax.i` (R116): writes the signed maximum of each lane pair -/
  | vmaxI (d a b : Reg)
  /-- `vmax.n` (R116): writes the unsigned maximum of each lane pair -/
  | vmaxN (d a b : Reg)
  /-- `vabs` (R116): writes the absolute value of each lane -/
  | vabs (d a : Reg)
  /-- `vand` (R116): writes the lane-wise AND -/
  | vand (d a b : Reg)
  /-- `vor` (R116): writes the lane-wise OR -/
  | vor (d a b : Reg)
  /-- `vxor` (R116): writes the lane-wise XOR -/
  | vxor (d a b : Reg)
  /-- `vandn` (R116): writes a AND NOT b in each lane -/
  | vandn (d a b : Reg)
  /-- `vshl` (R117): shifts each lane left by b[5:0] -/
  | vshl (d a b : Reg)
  /-- `vshr` (R117): shifts each lane right with zeros -/
  | vshr (d a b : Reg)
  /-- `vsra` (R117): shifts each lane right with its sign bit -/
  | vsra (d a b : Reg)
  /-- `vclz` (R116): counts the leading zeros of each lane -/
  | vclz (d a : Reg)
  /-- `vpop` (R116): counts the one bits of each lane -/
  | vpop (d a : Reg)
  /-- `vbrev` (R116): reverses the bits of each lane -/
  | vbrev (d a : Reg)
  /-- `vsel` (R117): selects a or b per lane by the CM bit at issue -/
  | vsel (d a b : Reg)
  /-- `vcmp.eq` (R119): sets CM bits of active lanes where a = b -/
  | vcmpEq (a b : Reg)
  /-- `vcmp.ne` (R119): sets CM bits of active lanes where a ≠ b -/
  | vcmpNe (a b : Reg)
  /-- `vcmp.lt.i` (R119): sets CM bits where a < b signed -/
  | vcmpLtI (a b : Reg)
  /-- `vcmp.lt.n` (R119): sets CM bits where a < b unsigned -/
  | vcmpLtN (a b : Reg)
  /-- `vcmp.le.i` (R119): sets CM bits where a ≤ b signed -/
  | vcmpLeI (a b : Reg)
  /-- `vcmp.le.n` (R119): sets CM bits where a ≤ b unsigned -/
  | vcmpLeN (a b : Reg)
  /-- `vdp4.i` (R118): adds four signed byte products to each accumulator lane -/
  | vdp4I (d a b : Reg)
  /-- `vdp4.n` (R118): adds four unsigned byte products to each accumulator lane -/
  | vdp4N (d a b : Reg)
  -- VFLT, major 2: lane floating point (R121)
  /-- `vfadd` (R121): fP32 lane addition rounded per RMODE -/
  | vfadd (d a b : Reg)
  /-- `vfsub` (R121): fP32 lane subtraction -/
  | vfsub (d a b : Reg)
  /-- `vfmul` (R121): fP32 lane multiplication -/
  | vfmul (d a b : Reg)
  /-- `vffma` (R121): fP32 fused multiply-add with one rounding -/
  | vffma (d a b : Reg)
  /-- `vfmin` (R122): returns the lesser FP32 operand unrounded -/
  | vfmin (d a b : Reg)
  /-- `vfmax` (R122): returns the greater FP32 operand unrounded -/
  | vfmax (d a b : Reg)
  /-- `vfabs` (R123): clears bit 31 of each lane -/
  | vfabs (d a : Reg)
  /-- `vfneg` (R123): inverts bit 31 of each lane -/
  | vfneg (d a : Reg)
  /-- `vfcmp.eq` (R124): sets CM bits where the FP32 operands are equal -/
  | vfcmpEq (a b : Reg)
  /-- `vfcmp.lt` (R124): sets CM bits where a < b in FP32 -/
  | vfcmpLt (a b : Reg)
  /-- `vfcmp.le` (R124): sets CM bits where a ≤ b in FP32 -/
  | vfcmpLe (a b : Reg)
  /-- `vfcmp.un` (R124): sets CM bits where either operand is a NaN -/
  | vfcmpUn (a b : Reg)
  /-- `vfrcp` (R125): correctly rounded FP32 reciprocal -/
  | vfrcp (d a : Reg)
  /-- `vfrsq` (R125): fP32 reciprocal square root, nearest value -/
  | vfrsq (d a : Reg)
  /-- `vfsqrt` (R125): correctly rounded FP32 square root -/
  | vfsqrt (d a : Reg)
  /-- `vfexp2` (R125): fP32 base-2 exponential, nearest value -/
  | vfexp2 (d a : Reg)
  /-- `vflog2` (R125): fP32 base-2 logarithm, nearest value -/
  | vflog2 (d a : Reg)
  /-- `vftanh` (R125): fP32 hyperbolic tangent, nearest value -/
  | vftanh (d a : Reg)
  /-- `vhadd` (R127): adds FP16 pairs element by element -/
  | vhadd (d a b : Reg)
  /-- `vhmul` (R127): multiplies FP16 pairs element by element -/
  | vhmul (d a b : Reg)
  /-- `vhfma` (R127): fP16 pair fused multiply-add -/
  | vhfma (d a b : Reg)
  /-- `vbadd` (R127): adds BF16 pairs element by element -/
  | vbadd (d a b : Reg)
  /-- `vbmul` (R127): multiplies BF16 pairs element by element -/
  | vbmul (d a b : Reg)
  /-- `vbfma` (R127): bF16 pair fused multiply-add -/
  | vbfma (d a b : Reg)
  -- VXL, major 3: conversions, cross-lane forms, masks and planes (R128)
  /-- `vcvt.f.i` (R128): converts INT32 lanes to FP32 -/
  | vcvtFI (d a : Reg)
  /-- `vcvt.i.f` (R128): converts FP32 lanes to INT32 -/
  | vcvtIF (d a : Reg)
  /-- `vcvt.f.h` (R128): widens an FP16 pair to two FP32 registers -/
  | vcvtFH (d a : Reg)
  /-- `vcvt.h.f` (R128): narrows two FP32 registers to an FP16 pair -/
  | vcvtHF (d a : Reg)
  /-- `vcvt.f.b` (R128): widens a BF16 pair to two FP32 registers -/
  | vcvtFB (d a : Reg)
  /-- `vcvt.b.f` (R128): narrows two FP32 registers to a BF16 pair -/
  | vcvtBF (d a : Reg)
  /-- `vpack.e4` (R128): packs four FP32 registers into E4M3 bytes -/
  | vpackE4 (d a : Reg)
  /-- `vpack.e5` (R128): packs four FP32 registers into E5M2 bytes -/
  | vpackE5 (d a : Reg)
  /-- `vpack.lx` (R128): packs four FP32 registers into LX8 bytes -/
  | vpackLx (d a : Reg)
  /-- `vunpk.e4` (R128): unpacks four E4M3 bytes into four FP32 registers -/
  | vunpkE4 (d a : Reg)
  /-- `vunpk.e5` (R128): unpacks four E5M2 bytes into four FP32 registers -/
  | vunpkE5 (d a : Reg)
  /-- `vunpk.lx` (R128): unpacks four LX8 bytes into four FP32 registers -/
  | vunpkLx (d a : Reg)
  /-- `vshfl` (R130): writes each active lane from the source lane that a vector index names -/
  | vshfl (d a b : Reg)
  /-- `vrot` (R130): rotates the source lanes by a scalar count -/
  | vrot (d a b : Reg)
  /-- `vbcast` (R130): broadcasts the source lane that a scalar names -/
  | vbcast (d a b : Reg)
  /-- `vred.add.i` (R131): writes the wrapping integer sum of the active lanes to a scalar by the fixed tree -/
  | vredAddI (d a : Reg)
  /-- `vred.add.f` (R131): writes the FP32 sum of the active lanes by the fixed tree -/
  | vredAddF (d a : Reg)
  /-- `vred.min.i` (R131): writes the signed minimum of the active lanes -/
  | vredMinI (d a : Reg)
  /-- `vred.max.i` (R131): writes the signed maximum of the active lanes -/
  | vredMaxI (d a : Reg)
  /-- `vred.max.f` (R131): writes the FP32 maximum of the active lanes -/
  | vredMaxF (d a : Reg)
  /-- `vscan.add.i` (R132): writes the inclusive prefix sum over the active lanes -/
  | vscanAddI (d a : Reg)
  /-- `vballot` (R133): writes a mask of the active lanes holding nonzero values to a scalar -/
  | vballot (d a : Reg)
  /-- `vmovs` (R134): copies the low 32 bits of a scalar into every active lane -/
  | vmovs (d a : Reg)
  /-- `smovv` (R134): copies one named lane into a scalar -/
  | smovv (d a b : Reg)
  /-- `xmset` (R172): sets XM from a scalar at issue -/
  | xmset (a : Reg)
  /-- `xmget` (R172): writes XM to a scalar -/
  | xmget (d : Reg)
  /-- `plset` (R182): sets the plane of each issuing lane from a vector -/
  | plset (a : Reg)
  /-- `plsel` (R182): moves issuing lanes with CM set into a literal plane -/
  | plsel (l : BitVec 7)
  /-- `plmask` (R182): sets CM to the active lanes of a literal plane -/
  | plmask (l : BitVec 7)
  /-- `plocc` (R182): writes the set of occupied planes to a scalar -/
  | plocc (d : Reg)
  -- MEM, major 4: memory by register offset (R77)
  /-- `vld.b` (R83): loads a zero-extended byte into each active lane -/
  | vldB (d a b : Reg)
  /-- `vld.b.i` (R83): loads a sign-extended byte into each active lane -/
  | vldBI (d a b : Reg)
  /-- `vld.h` (R83): loads a zero-extended half-word into each active lane -/
  | vldH (d a b : Reg)
  /-- `vld.h.i` (R83): loads a sign-extended half-word into each active lane -/
  | vldHI (d a b : Reg)
  /-- `vld.w` (R83): loads a word into each active lane -/
  | vldW (d a b : Reg)
  /-- `vld.d` (R83): loads 8 bytes per lane into a register pair -/
  | vldD (d a b : Reg)
  /-- `vld.q` (R83): loads 16 bytes per lane into a register quad -/
  | vldQ (d a b : Reg)
  /-- `vst.b` (R85): stores the low byte of each active lane -/
  | vstB (d a b : Reg)
  /-- `vst.h` (R85): stores the low half-word of each active lane -/
  | vstH (d a b : Reg)
  /-- `vst.w` (R85): stores a word from each active lane -/
  | vstW (d a b : Reg)
  /-- `vst.d` (R85): stores 8 bytes per lane from a register pair -/
  | vstD (d a b : Reg)
  /-- `vst.q` (R85): stores 16 bytes per lane from a register quad -/
  | vstQ (d a b : Reg)
  /-- `sld.w` (R83): loads a zero-extended word into a scalar -/
  | sldW (d a b : Reg)
  /-- `sld.d` (R83): loads a double word into a scalar -/
  | sldD (d a b : Reg)
  /-- `sst.w` (R85): stores the low 32 bits of a scalar -/
  | sstW (d a b : Reg)
  /-- `sst.d` (R85): stores a scalar as 8 bytes -/
  | sstD (d a b : Reg)
  /-- `vpref` (R87): hints a fetch for each active lane's address, with no architectural effect -/
  | vpref (a b : Reg)
  -- SYNC, major 5: atomics, reductions, fences, barriers (R227)
  /-- `vatom.add` (R228): atomically adds to each lane's word at its home and returns the old value -/
  | vatomAdd (d a b : Reg)
  /-- `vatom.addf` (R228): atomically adds FP32 at home and returns the old value -/
  | vatomAddf (d a b : Reg)
  /-- `vatom.min.i` (R228): atomic signed minimum per lane -/
  | vatomMinI (d a b : Reg)
  /-- `vatom.max.i` (R228): atomic signed maximum per lane -/
  | vatomMaxI (d a b : Reg)
  /-- `vatom.and` (R228): atomic AND per lane -/
  | vatomAnd (d a b : Reg)
  /-- `vatom.or` (R228): atomic OR per lane -/
  | vatomOr (d a b : Reg)
  /-- `vatom.xor` (R228): atomic XOR per lane -/
  | vatomXor (d a b : Reg)
  /-- `vatom.xchg` (R228): atomic exchange per lane -/
  | vatomXchg (d a b : Reg)
  /-- `vatom.cas` (R228): atomic compare-and-swap per lane, returning the old value and success -/
  | vatomCas (d a b : Reg)
  /-- `satom.add` (R228): atomic 64-bit add of a scalar at home -/
  | satomAdd (d a b : Reg)
  /-- `satom.cas` (R228): atomic 64-bit compare-and-swap of a scalar pair -/
  | satomCas (d a b : Reg)
  /-- `gred.add` (R228): far integer add reduction per lane with no result -/
  | gredAdd (d a b : Reg)
  /-- `gred.addf` (R228): far FP32 add reduction per lane, applied in arrival order -/
  | gredAddf (d a b : Reg)
  /-- `gred.max.i` (R228): far signed maximum reduction per lane -/
  | gredMaxI (d a b : Reg)
  /-- `sqred.addf` (R232): sends indexed contributions to a sequenced stream -/
  | sqredAddf (d a b : Reg)
  /-- `sqred.add` (R232): sends indexed contributions to a sequenced stream -/
  | sqredAdd (d a b : Reg)
  /-- `sqopen` (R231): allots a stream slot at the target's home and returns a handle -/
  | sqopen (d a b : Reg)
  /-- `sqclose` (R235): parks until the stream has applied every index, then frees the slot -/
  | sqclose (a : Reg)
  /-- `bar.arr` (R185): counts the group's arrival at a barrier, completing the phase when all have arrived -/
  | barArr (l : BitVec 7)
  /-- `bar.wt` (R185): parks until the barrier phase of the latest arrival completes, then raises CLK -/
  | barWt (l : BitVec 7)
  /-- `bar.sync` (R185): arrives at a barrier and waits for its phase -/
  | barSync (l : BitVec 7)
  /-- `bar.q` (R185): writes the barrier's phase, expected and arrived counts to a scalar -/
  | barQ (d : Reg) (l : BitVec 7)
  -- MAT, major 6: the matrix engine (R258)
  /-- `mma` (R258): appends a dense tile product to the open batch -/
  | mma (d : Reg) (sa sb : BitVec 5) (fmt : BitVec 3) (bsel : BitVec 4)
  /-- `mmas` (R258): appends a tile product with compressed sparse A to the open batch -/
  | mmas (d : Reg) (sa sb : BitVec 5) (fmt : BitVec 3) (bsel : BitVec 4)
  /-- `mzero` (R260): appends a zeroing of 32 accumulator registers to the open batch -/
  | mzero (d : Reg)
  -- ENG, major 7: engines, channels, launch
  /-- `mbatch` (R261): closes the open batch, numbering it and returning the number -/
  | mbatch (d : Reg)
  /-- `mwait` (R262): parks until the named pending batch has completed -/
  | mwait (a : Reg)
  /-- `mquery` (R263): returns the batch state for a batch number without parking -/
  | mquery (d a : Reg)
  /-- `cpy` (R270): checks and accepts a copy on a channel, advancing SP -/
  | cpy (d a b : Reg)
  /-- `cpyt` (R282): reads a shape record and accepts a tensor patch copy on a channel -/
  | cpyt (d a b : Reg)
  /-- `cpyq` (R284): fences and accepts a copy that writes a completion flag after its units -/
  | cpyq (d a b : Reg)
  /-- `cwp` (R278): returns a channel's WP, SP or status word -/
  | cwp (d a : Reg)
  /-- `cwait` (R279): parks until a channel's WP reaches a threshold, then raises CLK to CC -/
  | cwait (a b : Reg)
  /-- `launch` (R285): fences, reads a launch record from memory, checks and queues it, and returns a handle -/
  | launch (d a : Reg)
  /-- `lquery` (R287): returns the state of a launch named by its handle -/
  | lquery (d a : Reg)
  -- SIMM, major 8: scalar immediate (R63)
  /-- `saddi` (R63): adds a signed immediate to a scalar -/
  | saddi (d a : Reg) (imm : BitVec 10)
  /-- `sandi` (R63): aNDs a sign-extended immediate into a scalar -/
  | sandi (d a : Reg) (imm : BitVec 10)
  /-- `sori` (R63): oRs a sign-extended immediate into a scalar -/
  | sori (d a : Reg) (imm : BitVec 10)
  /-- `sxori` (R63): xORs a sign-extended immediate into a scalar -/
  | sxori (d a : Reg) (imm : BitVec 10)
  /-- `sshli` (R63): shifts a scalar left by an immediate count -/
  | sshli (d a : Reg) (n : BitVec 6)
  /-- `sshri` (R63): shifts a scalar right with zeros by an immediate count -/
  | sshri (d a : Reg) (n : BitVec 6)
  /-- `ssrai` (R63): shifts a scalar right with its sign by an immediate count -/
  | ssrai (d a : Reg) (n : BitVec 6)
  /-- `sslti` (R63): writes 1 if a scalar is below a signed immediate -/
  | sslti (d a : Reg) (imm : BitVec 10)
  -- VIMM, major 9: lane immediate (R120)
  /-- `vaddi` (R120): adds a signed immediate to each active lane -/
  | vaddi (d a : Reg) (imm : BitVec 10)
  /-- `vandi` (R120): aNDs an immediate into each active lane -/
  | vandi (d a : Reg) (imm : BitVec 10)
  /-- `vori` (R120): oRs an immediate into each active lane -/
  | vori (d a : Reg) (imm : BitVec 10)
  /-- `vxori` (R120): xORs an immediate into each active lane -/
  | vxori (d a : Reg) (imm : BitVec 10)
  /-- `vshli` (R120): shifts each lane left by an immediate count -/
  | vshli (d a : Reg) (n : BitVec 6)
  /-- `vshri` (R120): shifts each lane right with zeros by an immediate count -/
  | vshri (d a : Reg) (n : BitVec 6)
  /-- `vsrai` (R120): shifts each lane right with its sign by an immediate count -/
  | vsrai (d a : Reg) (n : BitVec 6)
  /-- `vmovi` (R120): sets each active lane to a signed immediate -/
  | vmovi (d : Reg) (imm : BitVec 10)
  -- MEMI, major 10: memory by immediate offset (R77)
  /-- `vld.w.o` (R83): loads a word per lane from a 64-bit lane address plus offset -/
  | vldWO (d a : Reg) (imm : BitVec 10)
  /-- `vld.d.o` (R83): loads 8 bytes per lane from a lane address plus offset -/
  | vldDO (d a : Reg) (imm : BitVec 10)
  /-- `vst.w.o` (R85): stores a word per lane at a lane address plus offset -/
  | vstWO (d a : Reg) (imm : BitVec 10)
  /-- `vst.d.o` (R85): stores 8 bytes per lane at a lane address plus offset -/
  | vstDO (d a : Reg) (imm : BitVec 10)
  /-- `sld.w.o` (R83): loads a word into a scalar from a scalar address plus offset -/
  | sldWO (d a : Reg) (imm : BitVec 10)
  /-- `sld.d.o` (R83): loads a double word into a scalar from a scalar address plus offset -/
  | sldDO (d a : Reg) (imm : BitVec 10)
  /-- `sst.w.o` (R85): stores a scalar's low word at a scalar address plus offset -/
  | sstWO (d a : Reg) (imm : BitVec 10)
  /-- `sst.d.o` (R85): stores a scalar at a scalar address plus offset -/
  | sstDO (d a : Reg) (imm : BitVec 10)
  -- SLI, major 11: long immediates (R64)
  /-- `smovi` (R64): sets a scalar to a sign-extended 17-bit immediate -/
  | smovi (d : Reg) (imm : BitVec 17)
  /-- `slui` (R64): shifts a scalar left by 17 and ORs in an immediate -/
  | slui (d : Reg) (imm : BitVec 17)
  /-- `saddpc` (R64): writes a code address relative to the word's own offset and plane -/
  | saddpc (d : Reg) (imm : BitVec 17)
  -- BR, major 12: branches (R68)
  /-- `bra` (R69): branches unconditionally -/
  | bra (off : BitVec 17)
  /-- `bz` (R69): branches if a scalar is zero -/
  | bz (a : Reg) (off : BitVec 17)
  /-- `bnz` (R69): branches if a scalar is nonzero -/
  | bnz (a : Reg) (off : BitVec 17)
  /-- `bneg` (R69): branches if a scalar is negative -/
  | bneg (a : Reg) (off : BitVec 17)
  /-- `bnn` (R69): branches if a scalar is not negative -/
  | bnn (a : Reg) (off : BitVec 17)
  /-- `bloop` (R69): decrements a scalar at issue and branches if the result is nonzero -/
  | bloop (a : Reg) (off : BitVec 17)
  /-- `bcall` (R69): writes the return offset to a scalar and branches -/
  | bcall (a : Reg) (off : BitVec 17)
  /-- `bany` (R69): branches if any lane has both XM and CM set -/
  | bany (off : BitVec 17)
  -- SYS, major 15: control, traps, special registers
  /-- `jmp` (R70): sets the offset from a scalar -/
  | jmp (a : Reg)
  /-- `ret` (R70): sets the offset from a scalar as a return -/
  | ret (a : Reg)
  /-- `wbase` (R75): sets the register window base -/
  | wbase (l : BitVec 7)
  /-- `wget` (R76): writes WINB to a scalar -/
  | wget (d : Reg)
  /-- `region` (R297): takes a checkpoint of the group into its slot and sets the restart point -/
  | region (a b : Reg)
  /-- `trap` (R320): takes a breakpoint trap with DETAIL 0x80 OR the literal -/
  | trap (l : BitVec 7)
  /-- `brk` (R320): takes a breakpoint trap, or does nothing in steward mode -/
  | brk (l : BitVec 7)
  /-- `ctlrd` (R322): reads a control register into a scalar -/
  | ctlrd (d : Reg) (l : BitVec 7)
  /-- `ctlwr` (R322): writes a control register from a scalar at issue -/
  | ctlwr (a : Reg) (l : BitVec 7)
  /-- `svc` (R321): fences, sends a service notice to the guardian and parks for its reply -/
  | svc (l : BitVec 7)
  /-- `tick` (R221): advances CLK by a scalar amount -/
  | tick (a : Reg)
  /-- `sealst` (R306): encrypts memory or unit state into a sealed block -/
  | sealst (d a b : Reg)
  /-- `sealld` (R306): verifies and decrypts a sealed block into memory or unit state -/
  | sealld (d a b : Reg)
  /-- `dsave` (R169): spills the bottom divergence-stack entry to memory -/
  | dsave (a : Reg)
  /-- `dload` (R169): reloads a divergence-stack entry from memory as the bottom entry -/
  | dload (a : Reg)
  -- steps of the device itself that no word names
  /-- (R56) Issue of a word that is not an instruction under the opcode map raises a precise illegal-instruction trap: the DETAIL code of R56 -/
  | illegalInstruction (detail : BitVec 8)
  /-- (R48) An outstanding d-field result returns and is written or dropped by generation: result k, counted from the oldest, of group g -/
  | resultReturn (g k : Nat)
  /-- (R215) A global load's data returns, raising CLK to the copies' write times and counting lease hits: the load of that issue number -/
  | loadReturn (seq : Nat)
  /-- (R218) A store-buffer entry reaches its home and is performed after every lease, then acknowledged: the entry of that number -/
  | storeBufferDrain (seq : Nat)
  /-- (R381) A store to scratch, register or vault space is performed at its home: the store of that number -/
  | scratchStoreArrival (seq : Nat)
  /-- (R228) An atomic or far reduction lane is performed at its home: the next lane of the access of that issue number -/
  | atomicPerform (seq : Nat)
  /-- (R228) A value-returning atomic's result returns and raises CLK: the access of that issue number -/
  | atomicReturn (seq : Nat)
  /-- (R223) A fence's waits end and it folds the acknowledgements into CLK: group g -/
  | fenceComplete (g : Nat)
  /-- (R252) The engine begins a matrix instruction and reads its accumulator and operands: the oldest matrix instruction of group g not yet executed -/
  | matrixExecutionStart (g : Nat)
  /-- (R253) A closed batch completes, writing its accumulators and merging flags at once: the oldest closed batch of group g -/
  | batchComplete (g : Nat)
  /-- (R271) A channel reads and writes one destination unit and advances WP: channel number, 16 times the engine plus the channel of the engine; the answer of the peer, if the unit's source lies across a link: its bytes, and whether they are poisoned -/
  | copyUnitDelivery (ch : Nat) (peer : Option (List Byte × Bool))
  /-- (R233) A sequenced contribution reaches the stream slot and is applied, buffered, refused or dropped: the contribution of that issue number -/
  | contributionArrival (seq : Nat)
  /-- (R365) A translation walk completes and is judged against severance and the leaf: the walk of a core for an address of a context -/
  | tableWalkComplete (core ctx : Nat) (va : Scalar)
  /-- (R309) At a compare point both redundant copies have folded equal counts and their signatures are compared: group g of the primary copy and its partner -/
  | signatureCompare (g : Nat)
  /-- (R149) A host write that sets VALID in a window slot snapshots and checks the record: the slot of the launch window of a context page -/
  | launchSubmit (vf page slot : Nat)
  /-- (R155) The distributor places the next grove, copse or cooperative launch once room allows: the next unit of the context -/
  | unitPlacement (ctx : Nat)
  /-- (R156) A launch's groups, accesses and transfers finish and DONEVAL is stored: the launch of that key -/
  | launchComplete (launch : Nat)
  /-- (R159) The graph walker processes one node of a task graph: the graph of that key -/
  | graphWalkerStep (graph : Nat)
  /-- (R300) A discarded group is restarted from its checkpoint slot: group g -/
  | groupRestart (g : Nat)
  /-- (R326) After the discard writes are performed the eviction steward groups start: the context -/
  | evictionGroupStart (ctx : Nat)
  /-- (R304) Once every grove fits, the groves are placed again and the restore groups start: the context -/
  | restorePlacement (ctx : Nat)
  /-- (R239) A host's response to a back-invalidation arrives and clears its presence bit: port, line, and the dirty data it brings -/
  | birsp (port : Nat) (line : Nat) (data : Option (List Byte))
  /-- (R242) A CXL.cache response to the home's RdShared or RdOwn arrives, or is dropped if unmatched: port, host line address, the slice whose request it answers, none for an unmatched one, and whether it grants ownership -/
  | cxlCacheResponse (port addr : Nat) (home : Option Nat) (owned : Bool)
  /-- (R220) The lease-hit count reaches ATICK and CLK advances by one: group g -/
  | automaticTick (g : Nat)
  /-- (R218) An entry reaches 4,096 clocks of age and begins to drain: the entry of that number -/
  | storeBufferAgeLimit (seq : Nat)
  /-- (R160) The 64-clock demotion after a spin expires: group g -/
  | spinDemotionEnd (g : Nat)
  /-- (R301) 2^20 clocks of waiting on a group without a restart point raise a watchdog trap: group g -/
  | regionWatchdog (g : Nat)
  /-- (R301) A preemption that waits 2^20 clocks for a steward handler makes it a steward fault: group g -/
  | stewardWaitTimeout (g : Nat)
  /-- (R370) A start in progress ends, either reaching READY or failing into OFF or RECOVERY: whether it succeeded, and else its failure code -/
  | startCompletion (ok : Bool) (cause : Nat)
  /-- (R344) A guardian's orphan moment passes: severance, role removal or orphaning: context, and the port of the guardian whose orphan moment passes -/
  | guardianLoss (ctx port : Nat)
  /-- (R354) The reap timer of a guardianless suspended context ends and the context is destroyed: the context -/
  | reapTimeout (ctx : Nat)
  /-- (R345) An access in flight at severance goes 50 ms unanswered and is poisoned or dropped: issue number of the access -/
  | severanceTimeout (seq : Nat)
  -- steps of hosts, of the world outside, and of slow timers
  /-- (R340) A time-sliced context's turn expires and it may be evicted: the glade whose turn ends -/
  | timeSliceEnd (glade : Nat)
  /-- (R301) Every group of a context is discarded for eviction or suspension: the context -/
  | preemption (ctx : Nat)
  /-- (R241) A host write to device memory is performed at home at L + 1: requester, address in the function's memory BAR, bytes -/
  | hostWrite (fn : HostFn) (addr : Nat) (data : List Byte)
  /-- (R241) A host read returns the line as it stands at home: requester, address in the function's memory BAR, length, and whether the host may cache the lines -/
  | hostRead (fn : HostFn) (addr len : Nat) (cached : Bool)
  /-- (R240) A back-invalidation meets a host request in flight and is reissued after it: port and line -/
  | biconflict (port : Nat) (line : Nat)
  /-- (R239) A host reports eviction of a line and its presence bit clears: port and line -/
  | hostEvictionReport (port : Nat) (line : Nat)
  /-- (R242) A host snoop takes a host-backed line away: write back, stop tracking, answer: port and host line address -/
  | snpinv (port addr : Nat)
  /-- (R242) A host snoop that leaves a shared copy is answered with the line's data: port and host line address -/
  | snpdata (port addr : Nat)
  /-- (R242) A current-value snoop is answered with the line's data, tracking kept: port and host line address -/
  | snpcur (port addr : Nat)
  /-- (R363) A host write to a register with no behaviour of its own, refused and logged where not permitted: requester, offset in its register BAR, bytes -/
  | registerWrite (fn : HostFn) (off : Nat) (data : List Byte)
  /-- (R342) A write to HBEAT renews the guardian's lease: context page written -/
  | hbeat (vf page : Nat)
  /-- (R347) A write to NTAIL frees ring entries and lets waiting notices be written: context page and value -/
  | ntail (vf page : Nat) (value : BitVec 32)
  /-- (R339) Creates a context with the caller as primary guardian: context page of the caller and ARG0 -/
  | bind (vf page : Nat) (arg0 : BitVec 32)
  /-- (R338) Checks and applies the context settings block at one moment: context page of the caller and ARG0 -/
  | set (vf page : Nat) (arg0 : BitVec 32)
  /-- (R331) Assigns an engine's channel to the context under a local number: context page of the caller and ARG0 -/
  | assignch (vf page : Nat) (arg0 : BitVec 32)
  /-- (R331) Resets a channel, clearing FAULT and setting SP := WP: context page of the caller and ARG0 -/
  | assignchReset (vf page : Nat) (arg0 : BitVec 32)
  /-- (R331) Unassigns a channel whose QUEUED is zero: context page of the caller and ARG0 -/
  | assignchUnassign (vf page : Nat) (arg0 : BitVec 32)
  /-- (R337) Sets the succession list of up to three identities: context page of the caller and ARG0 -/
  | setsucc (vf page : Nat) (arg0 : BitVec 32)
  /-- (R337) Invites one identity to join as co-guardian: context page of the caller and ARG0 -/
  | share (vf page : Nat) (arg0 : BitVec 32)
  /-- (R353) Adds a co-guardian on the caller's port with a valid join token: context page of the caller and ARG0 -/
  | join (vf page : Nat) (arg0 : BitVec 32)
  /-- (R343) Removes the co-guardian of a port: context page of the caller and ARG0 -/
  | unshare (vf page : Nat) (arg0 : BitVec 32)
  /-- (R352) Makes a named VF page the primary guardian and unbinds the caller: context page of the caller and ARG0 -/
  | transfer (vf page : Nat) (arg0 : BitVec 32)
  /-- (R350) Records a successor as primary of an orphaned or suspended context: context page of the caller and ARG0 -/
  | adopt (vf page : Nat) (arg0 : BitVec 32)
  /-- (R350) Makes a suspended adopted context GUARDED and restarts its groups: context page of the caller and ARG0 -/
  | resume (vf page : Nat) (arg0 : BitVec 32)
  /-- (R347) Claims a notice for the calling guardian: context page of the caller and ARG0 -/
  | claim (vf page : Nat) (arg0 : BitVec 32)
  /-- (R347) Replies to a notice, resuming a faulted group or an svc: context page of the caller and ARG0 -/
  | reply (vf page : Nat) (arg0 : BitVec 32)
  /-- (R304) Requests eviction of the context: context page of the caller and ARG0 -/
  | evict (vf page : Nat) (arg0 : BitVec 32)
  /-- (R327) Requests restore of an evicted context: context page of the caller and ARG0 -/
  | restore (vf page : Nat) (arg0 : BitVec 32)
  /-- (R354) Destroys the context: context page of the caller and ARG0 -/
  | release (vf page : Nat) (arg0 : BitVec 32)
  /-- (R330) Creates a glade with the caller's port as administrator: port of the calling PF and ARG0 -/
  | gcreate (port : Nat) (arg0 : BitVec 32)
  /-- (R330) Destroys an empty glade, zeroing its memory: port of the calling PF and ARG0 -/
  | gdestroy (port : Nat) (arg0 : BitVec 32)
  /-- (R338) Checks and applies the glade settings: port of the calling PF and ARG0 -/
  | gset (port : Nat) (arg0 : BitVec 32)
  /-- (R370) Performs a cold start of the package: port of the calling PF and ARG0 -/
  | startCold (port : Nat) (arg0 : BitVec 32)
  /-- (R370) Performs a warm start, keeping trained DRAM parameters: port of the calling PF and ARG0 -/
  | startWarm (port : Nat) (arg0 : BitVec 32)
  /-- (R369) A management controller requests a start over its sideband: kind of start -/
  | sidebandStartRequest (cold : Bool)
  /-- (R357) Moves a VF's TDISP interface to CONFIG_LOCKED: VF and the IDE stream it is bound to -/
  | lockInterfaceRequest (vf stream : Nat)
  /-- (R357) Moves a locked TDISP interface to RUN: the VF -/
  | startInterfaceRequest (vf : Nat)
  /-- (R357) Returns a TDISP interface to CONFIG_UNLOCKED and ends any guardian role at once: the VF -/
  | stopInterfaceRequest (vf : Nat)
  /-- (R357) A configuration write to a frozen register moves the interface to ERROR: the VF, and the address written -/
  | frozenConfigurationWrite (write : Nat × Nat)
  /-- (R357) Failure of an IDE stream moves its interfaces to ERROR and blocks their DMA: port and stream -/
  | ideStreamFailure (port stream : Nat)
  /-- (R355) SPDM version request: port -/
  | getVersion (port : Nat)
  /-- (R355) SPDM capabilities request: port -/
  | getCapabilities (port : Nat)
  /-- (R355) SPDM algorithm negotiation: port -/
  | negotiateAlgorithms (port : Nat)
  /-- (R355) SPDM certificate digest request: port -/
  | getDigests (port : Nat)
  /-- (R355) SPDM certificate chain request: port and slot -/
  | getCertificate (port slot : Nat)
  /-- (R356) SPDM challenge, answered with an error if the slot changed meanwhile: port, slot and nonce -/
  | challenge (port slot : Nat) (nonce : BitVec 256)
  /-- (R355) SPDM measurement request: port -/
  | getMeasurements (port : Nat)
  /-- (R355) SPDM session key exchange: port and slot -/
  | keyExchange (port slot : Nat)
  /-- (R355) SPDM session finish: port -/
  | finish (port : Nat)
  /-- (R355) SPDM session key update: port -/
  | keyUpdate (port : Nat)
  /-- (R355) Ends an SPDM session, dropping the port's presented identity: port -/
  | endSession (port : Nat)
  /-- (R356) Writes a certificate slot and raises its generation, refused for slot 0: port, slot and contents -/
  | setCertificate (port slot : Nat) (chain : List Byte)
  /-- (R355) A vendor-defined message presents a host ML-DSA-44 key, whose hash is recorded for the port: port, ML-DSA key and signature -/
  | hostIdentityPresentation (port : Nat) (key signature : List Byte)
  /-- (R360) Sixteen consecutive replays of a flit take the link down and fault its channels: link -/
  | linkDown (link : Nat)
  /-- (R361) A wheel slot carries a flit of its glade or a best-effort flit: link and direction -/
  | linkWheelSlot (link dir : Nat)
  /-- (R362) A peer link request is performed in its export window or refused: link, link address, the bytes of a write with their poison, or the length of a read -/
  | peerRequestArrival (link addr : Nat) (data : Option (List Byte × Bool)) (len : Nat)
  /-- (R376) Every 100 µs over power or temperature limits each core lowers its clock step: the slice, and whether it is over its limits -/
  | throttleStep (slice : Nat) (hot : Bool)
  /-- (R360) A device link comes up to a peer and begins to carry flits: link -/
  | linkUp (link : Nat)
  /-- (R360) A flit that fails its CRC is replayed and the consecutive replay count advances: link -/
  | linkLevelReplay (link : Nat)
  /-- (R319) A range invalidation drops cached translations on every core and is acknowledged after their accesses are performed: context and range of addresses -/
  | rangeInvalidation (ctx base size : Nat)
  /-- (R359) The device rewrites DRAM lines by scrubbing, under the glade key, and finds corrected or uncorrectable errors: line of a slice; 0 clean, 1 corrected, 2 uncorrectable -/
  | scrubbing (slice off : Nat) (outcome : Nat)
  -- words without a field
  /-- `vif` (R167): pushes XM and sets XM := XM AND CM, trapping on overflow -/
  | vif
  /-- `velse` (R167): sets XM to the top entry AND NOT XM, trapping on underflow -/
  | velse
  /-- `vendif` (R167): pops the top entry into XM, trapping on underflow -/
  | vendif
  /-- `pljoin` (R182): moves every issuing lane into plane 0 -/
  | pljoin
  /-- `fence.g` (R223): drains and waits for the group's stores, atomics and reductions and folds acknowledgements -/
  | fenceG
  /-- `fence.c` (R223): fence of copse scope, same effect as fence.g -/
  | fenceC
  /-- `fence.d` (R223): fence of die scope, same effect as fence.g -/
  | fenceD
  /-- `fence.p` (R223): fence of package scope, same effect as fence.g -/
  | fenceP
  /-- `fence.s` (R224): fence that also writes back host-backed lines the group wrote -/
  | fenceS
  /-- `xfence` (R277): starts draining the group's stores and holds later copies until they are performed -/
  | xfence
  /-- `nop` (R72): has no effect -/
  | nop
  /-- `park` (R73): parks until the run's outstanding results return -/
  | park
  /-- `exit` (R74): parks, waits for matrix work, and ends the group -/
  | exit
  /-- `tret` (R292): ends a steward handler and resumes the trapped group -/
  | tret
  /-- `spin` (R221): advances CLK by LEASE + 1 and demotes the group -/
  | spin
  -- steps without a parameter
  /-- (R237) The high-water mark reaches 2^47 and every time is lowered by 2^46 -/
  | rebase
  /-- (R376) 115 °C or 10 ms over power at the lowest step stops the device and kills every context -/
  | thermalStop
  /-- (R377) Loss of power loses every key, context, glade and count -/
  | powerOff
  /-- (R377) Power returns and the package comes up with nothing kept, STATE OFF and FAILS zero -/
  | powerOn
  deriving DecidableEq, Repr

end Sys2Proof
end

