-- ==== Sys2Proof/WellFormed.lean ====
section
/-! DEFINITION. Which field values an instruction admits: the checks of R34, R38, R54 and R56 that the evidence of
the word alone decides, each with its DETAIL code.  The checks that need the machine's state stand in
Machine/Ops.lean. -/

namespace Sys2Proof

/-- What a register field is for (R38, R53): scalar, vector, pair or quad, `d` when the form writes it and `s` when
it only reads it; the accumulator of the matrix forms; a vector register of `region`. -/
inductive Kind
  | sd | ss | s2d | s2s | vd | vs | v2d | v2s | v4d | v4s | acc | vr
  deriving DecidableEq, Repr

/-- A field of an instruction that has a check. -/
inductive Operand
  | reg (k : Kind) (r : Reg)
  /-- plane literal of `plsel` and `plmask` -/
  | plane (l : BitVec 7)
  /-- barrier literal: level and number (R54) -/
  | barrier (l : BitVec 7)
  /-- `wbase` literal -/
  | window (l : BitVec 7)
  /-- control register index -/
  | ctl (l : BitVec 7)
  /-- scalar pair number of `mma` and `mmas` -/
  | pair (n : BitVec 5)
  /-- format and scale bytes of `mma` and `mmas` -/
  | format (fmt : BitVec 3) (bsel : BitVec 4)
  deriving DecidableEq, Repr

/-- The special registers that are read-only as destinations (R37). -/
def Reg.readOnly : Reg → Bool
  | .lane | .plane | .xm | .gix | .grx | .clk => true
  | .v _ | .s _ | .nul | .cm => false

/-- The DETAIL of a register field of kind `k` that holds `r`, none when the field admits it (R34, R38, R56).  A
read-only special register in a written field takes 0x06 in place of 0x04 and 0x05. -/
def Kind.detail (k : Kind) (r : Reg) : Option (BitVec 8) :=
  match k with
  | .sd => match r with
    | .s _ | .nul | .cm => none
    | .v _ => some 0x04
    | .lane | .plane | .xm | .gix | .grx | .clk => some 0x06
  | .ss => match r with
    | .s _ | .nul | .xm | .cm | .gix | .grx | .clk => none
    | .v _ | .lane | .plane => some 0x04
  | .s2d => match r with
    | .s n => if n.val % 2 = 0 then none else some 0x05
    | .nul => none
    | .v _ | .cm => some 0x04
    | .lane | .plane | .xm | .gix | .grx | .clk => some 0x06
  | .s2s => match r with
    | .s n => if n.val % 2 = 0 then none else some 0x05
    | .nul => none
    | .v _ | .cm | .lane | .plane | .xm | .gix | .grx | .clk => some 0x04
  | .vd => match r with
    | .v _ | .nul => none
    | .s _ | .cm => some 0x04
    | .lane | .plane | .xm | .gix | .grx | .clk => some 0x06
  | .vs => match r with
    | .v _ | .nul | .lane | .plane => none
    | .s _ | .xm | .cm | .gix | .grx | .clk => some 0x04
  | .v2d => match r with
    | .v n => if n.val % 2 = 0 then none else some 0x05
    | .nul => none
    | .s _ | .cm => some 0x04
    | .lane | .plane | .xm | .gix | .grx | .clk => some 0x06
  | .v2s => match r with
    | .v n => if n.val % 2 = 0 then none else some 0x05
    | .nul => none
    | .s _ | .cm | .lane | .plane | .xm | .gix | .grx | .clk => some 0x04
  | .v4d => match r with
    | .v n => if n.val % 4 = 0 then none else some 0x05
    | .nul => none
    | .s _ | .cm => some 0x04
    | .lane | .plane | .xm | .gix | .grx | .clk => some 0x06
  | .v4s => match r with
    | .v n => if n.val % 4 = 0 then none else some 0x05
    | .nul => none
    | .s _ | .cm | .lane | .plane | .xm | .gix | .grx | .clk => some 0x04
  | .acc => match r with
    | .v n => if n.val ≤ 62 then none else some 0x05
    | .s _ | .nul | .lane | .plane | .xm | .cm | .gix | .grx | .clk => some 0x04
  | .vr => match r with
    | .v _ => none
    | .s _ | .nul | .lane | .plane | .xm | .cm | .gix | .grx | .clk => some 0x04

/-- The greatest barrier number of each level: grove, copse, launch (R54). -/
def barrierTop : Nat → Option Nat
  | 0 => some 15
  | 1 => some 3
  | 2 => some 1
  | _ => none

/-- The DETAIL of one field, none when the field is in order. -/
def Operand.detail : Operand → Option (BitVec 8)
  | .reg k r => k.detail r
  | .plane l => if l.toNat ≤ 3 then none else some 0x0B
  | .barrier l => match barrierTop (l.toNat / 32) with
    | some top => if l.toNat % 32 ≤ top then none else some 0x0B
    | none => some 0x0B
  | .window l => if l.toNat ≤ 31 then none else some 0x0B
  | .ctl l => if 64 ≤ l.toNat then some 0x0B else if 0x13 ≤ l.toNat then some 0x09 else none
  | .pair n => if n.toNat % 2 = 0 ∧ n.toNat ≤ 22 then none else some 0x05
  | .format fmt bsel =>
    if 6 ≤ fmt.toNat then some 0x02 else if fmt = 4 ∧ bsel ≠ 0 then some 0x03 else none

/-- The lower of two DETAIL codes. -/
def lowerDetail : Option (BitVec 8) → Option (BitVec 8) → Option (BitVec 8)
  | none, y => y
  | some x, none => some x
  | some x, some y => some (if x ≤ y then x else y)

/-- The checked fields of an instruction, by the opcode map (R53). -/
def Instr.operands : Instr → List Operand
  | .sadd d a b => [.reg .sd d, .reg .ss a, .reg .ss b]
  | .ssub d a b => [.reg .sd d, .reg .ss a, .reg .ss b]
  | .smul d a b => [.reg .sd d, .reg .ss a, .reg .ss b]
  | .smulhI d a b => [.reg .sd d, .reg .ss a, .reg .ss b]
  | .smulhN d a b => [.reg .sd d, .reg .ss a, .reg .ss b]
  | .sdivI d a b => [.reg .sd d, .reg .ss a, .reg .ss b]
  | .sdivN d a b => [.reg .sd d, .reg .ss a, .reg .ss b]
  | .smodI d a b => [.reg .sd d, .reg .ss a, .reg .ss b]
  | .smodN d a b => [.reg .sd d, .reg .ss a, .reg .ss b]
  | .sand d a b => [.reg .sd d, .reg .ss a, .reg .ss b]
  | .sor d a b => [.reg .sd d, .reg .ss a, .reg .ss b]
  | .sxor d a b => [.reg .sd d, .reg .ss a, .reg .ss b]
  | .sandn d a b => [.reg .sd d, .reg .ss a, .reg .ss b]
  | .sshl d a b => [.reg .sd d, .reg .ss a, .reg .ss b]
  | .sshr d a b => [.reg .sd d, .reg .ss a, .reg .ss b]
  | .ssra d a b => [.reg .sd d, .reg .ss a, .reg .ss b]
  | .sminI d a b => [.reg .sd d, .reg .ss a, .reg .ss b]
  | .sminN d a b => [.reg .sd d, .reg .ss a, .reg .ss b]
  | .smaxI d a b => [.reg .sd d, .reg .ss a, .reg .ss b]
  | .smaxN d a b => [.reg .sd d, .reg .ss a, .reg .ss b]
  | .ssltI d a b => [.reg .sd d, .reg .ss a, .reg .ss b]
  | .ssltN d a b => [.reg .sd d, .reg .ss a, .reg .ss b]
  | .sseq d a b => [.reg .sd d, .reg .ss a, .reg .ss b]
  | .sclz d a => [.reg .sd d, .reg .ss a]
  | .spop d a => [.reg .sd d, .reg .ss a]
  | .smov d a => [.reg .sd d, .reg .ss a]
  | .vadd d a b => [.reg .vd d, .reg .vs a, .reg .vs b]
  | .vsub d a b => [.reg .vd d, .reg .vs a, .reg .vs b]
  | .vmul d a b => [.reg .vd d, .reg .vs a, .reg .vs b]
  | .vmulhI d a b => [.reg .vd d, .reg .vs a, .reg .vs b]
  | .vmulhN d a b => [.reg .vd d, .reg .vs a, .reg .vs b]
  | .vmad d a b => [.reg .vd d, .reg .vs a, .reg .vs b]
  | .vminI d a b => [.reg .vd d, .reg .vs a, .reg .vs b]
  | .vminN d a b => [.reg .vd d, .reg .vs a, .reg .vs b]
  | .vmaxI d a b => [.reg .vd d, .reg .vs a, .reg .vs b]
  | .vmaxN d a b => [.reg .vd d, .reg .vs a, .reg .vs b]
  | .vabs d a => [.reg .vd d, .reg .vs a]
  | .vand d a b => [.reg .vd d, .reg .vs a, .reg .vs b]
  | .vor d a b => [.reg .vd d, .reg .vs a, .reg .vs b]
  | .vxor d a b => [.reg .vd d, .reg .vs a, .reg .vs b]
  | .vandn d a b => [.reg .vd d, .reg .vs a, .reg .vs b]
  | .vshl d a b => [.reg .vd d, .reg .vs a, .reg .vs b]
  | .vshr d a b => [.reg .vd d, .reg .vs a, .reg .vs b]
  | .vsra d a b => [.reg .vd d, .reg .vs a, .reg .vs b]
  | .vclz d a => [.reg .vd d, .reg .vs a]
  | .vpop d a => [.reg .vd d, .reg .vs a]
  | .vbrev d a => [.reg .vd d, .reg .vs a]
  | .vsel d a b => [.reg .vd d, .reg .vs a, .reg .vs b]
  | .vcmpEq a b => [.reg .vs a, .reg .vs b]
  | .vcmpNe a b => [.reg .vs a, .reg .vs b]
  | .vcmpLtI a b => [.reg .vs a, .reg .vs b]
  | .vcmpLtN a b => [.reg .vs a, .reg .vs b]
  | .vcmpLeI a b => [.reg .vs a, .reg .vs b]
  | .vcmpLeN a b => [.reg .vs a, .reg .vs b]
  | .vdp4I d a b => [.reg .vd d, .reg .vs a, .reg .vs b]
  | .vdp4N d a b => [.reg .vd d, .reg .vs a, .reg .vs b]
  | .vfadd d a b => [.reg .vd d, .reg .vs a, .reg .vs b]
  | .vfsub d a b => [.reg .vd d, .reg .vs a, .reg .vs b]
  | .vfmul d a b => [.reg .vd d, .reg .vs a, .reg .vs b]
  | .vffma d a b => [.reg .vd d, .reg .vs a, .reg .vs b]
  | .vfmin d a b => [.reg .vd d, .reg .vs a, .reg .vs b]
  | .vfmax d a b => [.reg .vd d, .reg .vs a, .reg .vs b]
  | .vfabs d a => [.reg .vd d, .reg .vs a]
  | .vfneg d a => [.reg .vd d, .reg .vs a]
  | .vfcmpEq a b => [.reg .vs a, .reg .vs b]
  | .vfcmpLt a b => [.reg .vs a, .reg .vs b]
  | .vfcmpLe a b => [.reg .vs a, .reg .vs b]
  | .vfcmpUn a b => [.reg .vs a, .reg .vs b]
  | .vfrcp d a => [.reg .vd d, .reg .vs a]
  | .vfrsq d a => [.reg .vd d, .reg .vs a]
  | .vfsqrt d a => [.reg .vd d, .reg .vs a]
  | .vfexp2 d a => [.reg .vd d, .reg .vs a]
  | .vflog2 d a => [.reg .vd d, .reg .vs a]
  | .vftanh d a => [.reg .vd d, .reg .vs a]
  | .vhadd d a b => [.reg .vd d, .reg .vs a, .reg .vs b]
  | .vhmul d a b => [.reg .vd d, .reg .vs a, .reg .vs b]
  | .vhfma d a b => [.reg .vd d, .reg .vs a, .reg .vs b]
  | .vbadd d a b => [.reg .vd d, .reg .vs a, .reg .vs b]
  | .vbmul d a b => [.reg .vd d, .reg .vs a, .reg .vs b]
  | .vbfma d a b => [.reg .vd d, .reg .vs a, .reg .vs b]
  | .vcvtFI d a => [.reg .vd d, .reg .vs a]
  | .vcvtIF d a => [.reg .vd d, .reg .vs a]
  | .vcvtFH d a => [.reg .v2d d, .reg .vs a]
  | .vcvtHF d a => [.reg .vd d, .reg .v2s a]
  | .vcvtFB d a => [.reg .v2d d, .reg .vs a]
  | .vcvtBF d a => [.reg .vd d, .reg .v2s a]
  | .vpackE4 d a => [.reg .vd d, .reg .v4s a]
  | .vpackE5 d a => [.reg .vd d, .reg .v4s a]
  | .vpackLx d a => [.reg .vd d, .reg .v4s a]
  | .vunpkE4 d a => [.reg .v4d d, .reg .vs a]
  | .vunpkE5 d a => [.reg .v4d d, .reg .vs a]
  | .vunpkLx d a => [.reg .v4d d, .reg .vs a]
  | .vshfl d a b => [.reg .vd d, .reg .vs a, .reg .vs b]
  | .vrot d a b => [.reg .vd d, .reg .vs a, .reg .ss b]
  | .vbcast d a b => [.reg .vd d, .reg .vs a, .reg .ss b]
  | .vredAddI d a => [.reg .sd d, .reg .vs a]
  | .vredAddF d a => [.reg .sd d, .reg .vs a]
  | .vredMinI d a => [.reg .sd d, .reg .vs a]
  | .vredMaxI d a => [.reg .sd d, .reg .vs a]
  | .vredMaxF d a => [.reg .sd d, .reg .vs a]
  | .vscanAddI d a => [.reg .vd d, .reg .vs a]
  | .vballot d a => [.reg .sd d, .reg .vs a]
  | .vmovs d a => [.reg .vd d, .reg .ss a]
  | .smovv d a b => [.reg .sd d, .reg .vs a, .reg .ss b]
  | .vif => []
  | .velse => []
  | .vendif => []
  | .xmset a => [.reg .ss a]
  | .xmget d => [.reg .sd d]
  | .plset a => [.reg .vs a]
  | .plsel l => [.plane l]
  | .pljoin => []
  | .plmask l => [.plane l]
  | .plocc d => [.reg .sd d]
  | .vldB d a b => [.reg .vd d, .reg .ss a, .reg .vs b]
  | .vldBI d a b => [.reg .vd d, .reg .ss a, .reg .vs b]
  | .vldH d a b => [.reg .vd d, .reg .ss a, .reg .vs b]
  | .vldHI d a b => [.reg .vd d, .reg .ss a, .reg .vs b]
  | .vldW d a b => [.reg .vd d, .reg .ss a, .reg .vs b]
  | .vldD d a b => [.reg .v2d d, .reg .ss a, .reg .vs b]
  | .vldQ d a b => [.reg .v4d d, .reg .ss a, .reg .vs b]
  | .vstB d a b => [.reg .vs d, .reg .ss a, .reg .vs b]
  | .vstH d a b => [.reg .vs d, .reg .ss a, .reg .vs b]
  | .vstW d a b => [.reg .vs d, .reg .ss a, .reg .vs b]
  | .vstD d a b => [.reg .v2s d, .reg .ss a, .reg .vs b]
  | .vstQ d a b => [.reg .v4s d, .reg .ss a, .reg .vs b]
  | .sldW d a b => [.reg .sd d, .reg .ss a, .reg .ss b]
  | .sldD d a b => [.reg .sd d, .reg .ss a, .reg .ss b]
  | .sstW d a b => [.reg .ss d, .reg .ss a, .reg .ss b]
  | .sstD d a b => [.reg .ss d, .reg .ss a, .reg .ss b]
  | .vpref a b => [.reg .ss a, .reg .vs b]
  | .vatomAdd d a b => [.reg .vd d, .reg .ss a, .reg .vs b]
  | .vatomAddf d a b => [.reg .vd d, .reg .ss a, .reg .vs b]
  | .vatomMinI d a b => [.reg .vd d, .reg .ss a, .reg .vs b]
  | .vatomMaxI d a b => [.reg .vd d, .reg .ss a, .reg .vs b]
  | .vatomAnd d a b => [.reg .vd d, .reg .ss a, .reg .vs b]
  | .vatomOr d a b => [.reg .vd d, .reg .ss a, .reg .vs b]
  | .vatomXor d a b => [.reg .vd d, .reg .ss a, .reg .vs b]
  | .vatomXchg d a b => [.reg .vd d, .reg .ss a, .reg .vs b]
  | .vatomCas d a b => [.reg .v2d d, .reg .ss a, .reg .vs b]
  | .satomAdd d a b => [.reg .sd d, .reg .ss a, .reg .ss b]
  | .satomCas d a b => [.reg .s2d d, .reg .ss a, .reg .ss b]
  | .gredAdd d a b => [.reg .vs d, .reg .ss a, .reg .vs b]
  | .gredAddf d a b => [.reg .vs d, .reg .ss a, .reg .vs b]
  | .gredMaxI d a b => [.reg .vs d, .reg .ss a, .reg .vs b]
  | .sqredAddf d a b => [.reg .vs d, .reg .ss a, .reg .vs b]
  | .sqredAdd d a b => [.reg .vs d, .reg .ss a, .reg .vs b]
  | .sqopen d a b => [.reg .sd d, .reg .ss a, .reg .ss b]
  | .sqclose a => [.reg .ss a]
  | .fenceG => []
  | .fenceC => []
  | .fenceD => []
  | .fenceP => []
  | .fenceS => []
  | .xfence => []
  | .barArr l => [.barrier l]
  | .barWt l => [.barrier l]
  | .barSync l => [.barrier l]
  | .barQ d l => [.reg .sd d, .barrier l]
  | .mma d sa sb fmt bsel => [.reg .acc d, .pair sa, .pair sb, .format fmt bsel]
  | .mmas d sa sb fmt bsel => [.reg .acc d, .pair sa, .pair sb, .format fmt bsel]
  | .mzero d => [.reg .acc d]
  | .mbatch d => [.reg .sd d]
  | .mwait a => [.reg .ss a]
  | .mquery d a => [.reg .sd d, .reg .ss a]
  | .cpy d a b => [.reg .ss d, .reg .ss a, .reg .ss b]
  | .cpyt d a b => [.reg .ss d, .reg .ss a, .reg .ss b]
  | .cpyq d a b => [.reg .s2s d, .reg .ss a, .reg .ss b]
  | .cwp d a => [.reg .sd d, .reg .ss a]
  | .cwait a b => [.reg .ss a, .reg .ss b]
  | .launch d a => [.reg .sd d, .reg .ss a]
  | .lquery d a => [.reg .sd d, .reg .ss a]
  | .saddi d a _ => [.reg .sd d, .reg .ss a]
  | .sandi d a _ => [.reg .sd d, .reg .ss a]
  | .sori d a _ => [.reg .sd d, .reg .ss a]
  | .sxori d a _ => [.reg .sd d, .reg .ss a]
  | .sshli d a _ => [.reg .sd d, .reg .ss a]
  | .sshri d a _ => [.reg .sd d, .reg .ss a]
  | .ssrai d a _ => [.reg .sd d, .reg .ss a]
  | .sslti d a _ => [.reg .sd d, .reg .ss a]
  | .vaddi d a _ => [.reg .vd d, .reg .vs a]
  | .vandi d a _ => [.reg .vd d, .reg .vs a]
  | .vori d a _ => [.reg .vd d, .reg .vs a]
  | .vxori d a _ => [.reg .vd d, .reg .vs a]
  | .vshli d a _ => [.reg .vd d, .reg .vs a]
  | .vshri d a _ => [.reg .vd d, .reg .vs a]
  | .vsrai d a _ => [.reg .vd d, .reg .vs a]
  | .vmovi d _ => [.reg .vd d]
  | .vldWO d a _ => [.reg .vd d, .reg .v2s a]
  | .vldDO d a _ => [.reg .v2d d, .reg .v2s a]
  | .vstWO d a _ => [.reg .vs d, .reg .v2s a]
  | .vstDO d a _ => [.reg .v2s d, .reg .v2s a]
  | .sldWO d a _ => [.reg .sd d, .reg .ss a]
  | .sldDO d a _ => [.reg .sd d, .reg .ss a]
  | .sstWO d a _ => [.reg .ss d, .reg .ss a]
  | .sstDO d a _ => [.reg .ss d, .reg .ss a]
  | .smovi d _ => [.reg .sd d]
  | .slui d _ => [.reg .sd d]
  | .saddpc d _ => [.reg .sd d]
  | .bra _ => []
  | .bz a _ => [.reg .ss a]
  | .bnz a _ => [.reg .ss a]
  | .bneg a _ => [.reg .ss a]
  | .bnn a _ => [.reg .ss a]
  | .bloop a _ => [.reg .sd a]
  | .bcall a _ => [.reg .sd a]
  | .bany _ => []
  | .nop => []
  | .park => []
  | .exit => []
  | .jmp a => [.reg .ss a]
  | .ret a => [.reg .ss a]
  | .wbase l => [.window l]
  | .wget d => [.reg .sd d]
  | .region a b => [.reg .vr a, .reg .vr b]
  | .trap _ => []
  | .brk _ => []
  | .tret => []
  | .ctlrd d l => [.reg .sd d, .ctl l]
  | .ctlwr a l => [.reg .ss a, .ctl l]
  | .svc _ => []
  | .tick a => [.reg .ss a]
  | .spin => []
  | .sealst d a b => [.reg .ss d, .reg .ss a, .reg .ss b]
  | .sealld d a b => [.reg .ss d, .reg .ss a, .reg .ss b]
  | .dsave a => [.reg .ss a]
  | .dload a => [.reg .ss a]
  | .resultReturn _ _ | .loadReturn _ | .automaticTick _ | .spinDemotionEnd _
  | .storeBufferDrain _ | .storeBufferAgeLimit _ | .scratchStoreArrival _ | .atomicPerform _
  | .atomicReturn _ | .fenceComplete _ | .matrixExecutionStart _ | .batchComplete _
  | .copyUnitDelivery _ _ | .contributionArrival _ | .tableWalkComplete _ _ _ | .signatureCompare _
  | .launchSubmit _ _ _ | .unitPlacement _ | .launchComplete _ | .graphWalkerStep _
  | .timeSliceEnd _ | .preemption _ | .groupRestart _ | .regionWatchdog _
  | .stewardWaitTimeout _ | .evictionGroupStart _ | .restorePlacement _ | .rebase
  | .hostWrite _ _ _ | .hostRead _ _ _ _ | .birsp _ _ _ | .biconflict _ _
  | .hostEvictionReport _ _ | .snpinv _ _ | .snpdata _ _ | .snpcur _ _
  | .cxlCacheResponse _ _ _ _ | .registerWrite _ _ _ | .hbeat _ _ | .ntail _ _ _
  | .bind _ _ _ | .set _ _ _ | .assignch _ _ _ | .assignchReset _ _ _
  | .assignchUnassign _ _ _ | .setsucc _ _ _ | .share _ _ _ | .join _ _ _
  | .unshare _ _ _ | .transfer _ _ _ | .adopt _ _ _ | .resume _ _ _
  | .claim _ _ _ | .reply _ _ _ | .evict _ _ _ | .restore _ _ _
  | .release _ _ _ | .gcreate _ _ | .gdestroy _ _ | .gset _ _
  | .startCold _ _ | .startWarm _ _ | .sidebandStartRequest _ | .guardianLoss _ _
  | .severanceTimeout _ | .reapTimeout _ | .lockInterfaceRequest _ _ | .startInterfaceRequest _
  | .stopInterfaceRequest _ | .frozenConfigurationWrite _ | .ideStreamFailure _ _ | .getVersion _
  | .getCapabilities _ | .negotiateAlgorithms _ | .getDigests _ | .getCertificate _ _
  | .challenge _ _ _ | .getMeasurements _ | .keyExchange _ _ | .finish _
  | .keyUpdate _ | .endSession _ | .setCertificate _ _ _ | .hostIdentityPresentation _ _ _
  | .linkDown _ | .linkWheelSlot _ _ | .peerRequestArrival _ _ _ _ | .throttleStep _ _
  | .thermalStop | .powerOff | .illegalInstruction _ | .powerOn
  | .startCompletion _ _ | .linkUp _ | .linkLevelReplay _ | .rangeInvalidation _ _ _
  | .scrubbing _ _ _ => []

/-- The lowest DETAIL that the fields of an instruction give (R56), none when every field is in order. -/
def Instr.detail (i : Instr) : Option (BitVec 8) :=
  (i.operands.map Operand.detail).foldr lowerDetail none

/-- An instruction whose fields are all in order. -/
def Instr.wellFormed (i : Instr) : Bool := i.detail.isNone

end Sys2Proof
end

