-- ==== Sys2Proof/Decode.lean ====
section
/-! DEFINITION. From 32 bits to an instruction, by the word formats (R52) and the opcode map (R53), total on every
word; and the encoder, written from the same tables.  A word whose bits are no instruction's is refused with its
DETAIL code (R56): major 13 or 14 (0x01), an unassigned function (0x02), a nonzero bit in a field that must be zero
(0x03), a branch whose field must be `nul` (0x04). -/

namespace Sys2Proof

/-- The name of a register field's value (R37, R38). -/
def Reg.ofField (f : BitVec 7) : Reg :=
  if h : f.toNat < 96 then .v ⟨f.toNat, h⟩
  else if h : f.toNat - 96 < 24 then .s ⟨f.toNat - 96, h⟩
  else match f.toNat with
    | 120 => .nul
    | 121 => .lane
    | 122 => .plane
    | 123 => .xm
    | 124 => .cm
    | 125 => .gix
    | 126 => .grx
    | _ => .clk

/-- The value of a register field that names a register. -/
def Reg.field : Reg → BitVec 7
  | .v n => BitVec.ofNat 7 n.val
  | .s n => BitVec.ofNat 7 (96 + n.val)
  | .nul => 120
  | .lane => 121
  | .plane => 122
  | .xm => 123
  | .cm => 124
  | .gix => 125
  | .grx => 126
  | .clk => 127

/-! ## The fields of a word (R52) -/

/-- The park mark S. -/
def parkMark (w : BitVec 32) : Bool := w.getLsbD 31

def majorOf (w : BitVec 32) : BitVec 4 := w.extractLsb' 27 4

/-- fn6 of the RRR format -/
def fn6Of (w : BitVec 32) : BitVec 6 := w.extractLsb' 21 6

/-- fn3 of the RI, RL, B and MX formats -/
def fn3Of (w : BitVec 32) : BitVec 3 := w.extractLsb' 24 3

/-- d, a and b of RRR -/
def rrrD (w : BitVec 32) : BitVec 7 := w.extractLsb' 14 7
def rrrA (w : BitVec 32) : BitVec 7 := w.extractLsb' 7 7
def rrrB (w : BitVec 32) : BitVec 7 := w.extractLsb' 0 7

/-- d (or a of the B format), and a, of the other formats -/
def immD (w : BitVec 32) : BitVec 7 := w.extractLsb' 17 7
def immA (w : BitVec 32) : BitVec 7 := w.extractLsb' 10 7
def imm10Of (w : BitVec 32) : BitVec 10 := w.extractLsb' 0 10
def imm17Of (w : BitVec 32) : BitVec 17 := w.extractLsb' 0 17

/-- sa, sb, fmt3 and bsel4 of MX -/
def mxSa (w : BitVec 32) : BitVec 5 := w.extractLsb' 12 5
def mxSb (w : BitVec 32) : BitVec 5 := w.extractLsb' 7 5
def mxFmt (w : BitVec 32) : BitVec 3 := w.extractLsb' 4 3
def mxBsel (w : BitVec 32) : BitVec 4 := w.extractLsb' 0 4

/-- An instruction whose field `f` must be zero (R53, kind 0). -/
def needZero {n : Nat} (f : BitVec n) (r : Except (BitVec 8) Instr) : Except (BitVec 8) Instr :=
  if f = 0 then r else .error 0x03

/-- A shift form: the count is imm10[5:0], and imm10[9:6] must be zero (R52). -/
def shiftForm (imm : BitVec 10) (f : BitVec 6 → Instr) : Except (BitVec 8) Instr :=
  if imm.toNat < 64 then .ok (f (BitVec.ofNat 6 imm.toNat)) else .error 0x03

/-- A branch whose field a must be `nul` (R53, kind N). -/
def needNul (r : Reg) (i : Instr) : Except (BitVec 8) Instr :=
  if r = .nul then .ok i else .error 0x04

/-! ## One decoder for each major -/

/-- SINT, major 0: 64-bit scalar integer (R60). -/
def decodeSint (w : BitVec 32) : Except (BitVec 8) Instr :=
  let d := Reg.ofField (rrrD w)
  let a := Reg.ofField (rrrA w)
  let b := Reg.ofField (rrrB w)
  match (fn6Of w).toNat with
  | 0 => .ok (.sadd d a b)
  | 1 => .ok (.ssub d a b)
  | 2 => .ok (.smul d a b)
  | 3 => .ok (.smulhI d a b)
  | 4 => .ok (.smulhN d a b)
  | 5 => .ok (.sdivI d a b)
  | 6 => .ok (.sdivN d a b)
  | 7 => .ok (.smodI d a b)
  | 8 => .ok (.smodN d a b)
  | 9 => .ok (.sand d a b)
  | 10 => .ok (.sor d a b)
  | 11 => .ok (.sxor d a b)
  | 12 => .ok (.sandn d a b)
  | 13 => .ok (.sshl d a b)
  | 14 => .ok (.sshr d a b)
  | 15 => .ok (.ssra d a b)
  | 16 => .ok (.sminI d a b)
  | 17 => .ok (.sminN d a b)
  | 18 => .ok (.smaxI d a b)
  | 19 => .ok (.smaxN d a b)
  | 20 => .ok (.ssltI d a b)
  | 21 => .ok (.ssltN d a b)
  | 22 => .ok (.sseq d a b)
  | 23 => needZero (rrrB w) (.ok (.sclz d a))
  | 24 => needZero (rrrB w) (.ok (.spop d a))
  | 25 => needZero (rrrB w) (.ok (.smov d a))
  | _ => .error 0x02

/-- VINT, major 1: 32-bit lane integer (R116). -/
def decodeVint (w : BitVec 32) : Except (BitVec 8) Instr :=
  let d := Reg.ofField (rrrD w)
  let a := Reg.ofField (rrrA w)
  let b := Reg.ofField (rrrB w)
  match (fn6Of w).toNat with
  | 0 => .ok (.vadd d a b)
  | 1 => .ok (.vsub d a b)
  | 2 => .ok (.vmul d a b)
  | 3 => .ok (.vmulhI d a b)
  | 4 => .ok (.vmulhN d a b)
  | 5 => .ok (.vmad d a b)
  | 6 => .ok (.vminI d a b)
  | 7 => .ok (.vminN d a b)
  | 8 => .ok (.vmaxI d a b)
  | 9 => .ok (.vmaxN d a b)
  | 10 => needZero (rrrB w) (.ok (.vabs d a))
  | 11 => .ok (.vand d a b)
  | 12 => .ok (.vor d a b)
  | 13 => .ok (.vxor d a b)
  | 14 => .ok (.vandn d a b)
  | 15 => .ok (.vshl d a b)
  | 16 => .ok (.vshr d a b)
  | 17 => .ok (.vsra d a b)
  | 18 => needZero (rrrB w) (.ok (.vclz d a))
  | 19 => needZero (rrrB w) (.ok (.vpop d a))
  | 20 => needZero (rrrB w) (.ok (.vbrev d a))
  | 21 => .ok (.vsel d a b)
  | 22 => needZero (rrrD w) (.ok (.vcmpEq a b))
  | 23 => needZero (rrrD w) (.ok (.vcmpNe a b))
  | 24 => needZero (rrrD w) (.ok (.vcmpLtI a b))
  | 25 => needZero (rrrD w) (.ok (.vcmpLtN a b))
  | 26 => needZero (rrrD w) (.ok (.vcmpLeI a b))
  | 27 => needZero (rrrD w) (.ok (.vcmpLeN a b))
  | 28 => .ok (.vdp4I d a b)
  | 29 => .ok (.vdp4N d a b)
  | _ => .error 0x02

/-- VFLT, major 2: lane floating point (R121). -/
def decodeVflt (w : BitVec 32) : Except (BitVec 8) Instr :=
  let d := Reg.ofField (rrrD w)
  let a := Reg.ofField (rrrA w)
  let b := Reg.ofField (rrrB w)
  match (fn6Of w).toNat with
  | 0 => .ok (.vfadd d a b)
  | 1 => .ok (.vfsub d a b)
  | 2 => .ok (.vfmul d a b)
  | 3 => .ok (.vffma d a b)
  | 4 => .ok (.vfmin d a b)
  | 5 => .ok (.vfmax d a b)
  | 6 => needZero (rrrB w) (.ok (.vfabs d a))
  | 7 => needZero (rrrB w) (.ok (.vfneg d a))
  | 8 => needZero (rrrD w) (.ok (.vfcmpEq a b))
  | 9 => needZero (rrrD w) (.ok (.vfcmpLt a b))
  | 10 => needZero (rrrD w) (.ok (.vfcmpLe a b))
  | 11 => needZero (rrrD w) (.ok (.vfcmpUn a b))
  | 12 => needZero (rrrB w) (.ok (.vfrcp d a))
  | 13 => needZero (rrrB w) (.ok (.vfrsq d a))
  | 14 => needZero (rrrB w) (.ok (.vfsqrt d a))
  | 15 => needZero (rrrB w) (.ok (.vfexp2 d a))
  | 16 => needZero (rrrB w) (.ok (.vflog2 d a))
  | 17 => needZero (rrrB w) (.ok (.vftanh d a))
  | 18 => .ok (.vhadd d a b)
  | 19 => .ok (.vhmul d a b)
  | 20 => .ok (.vhfma d a b)
  | 21 => .ok (.vbadd d a b)
  | 22 => .ok (.vbmul d a b)
  | 23 => .ok (.vbfma d a b)
  | _ => .error 0x02

/-- VXL, major 3: conversions, cross-lane forms, masks and planes (R128). -/
def decodeVxl (w : BitVec 32) : Except (BitVec 8) Instr :=
  let d := Reg.ofField (rrrD w)
  let a := Reg.ofField (rrrA w)
  let b := Reg.ofField (rrrB w)
  match (fn6Of w).toNat with
  | 0 => needZero (rrrB w) (.ok (.vcvtFI d a))
  | 1 => needZero (rrrB w) (.ok (.vcvtIF d a))
  | 2 => needZero (rrrB w) (.ok (.vcvtFH d a))
  | 3 => needZero (rrrB w) (.ok (.vcvtHF d a))
  | 4 => needZero (rrrB w) (.ok (.vcvtFB d a))
  | 5 => needZero (rrrB w) (.ok (.vcvtBF d a))
  | 6 => needZero (rrrB w) (.ok (.vpackE4 d a))
  | 7 => needZero (rrrB w) (.ok (.vpackE5 d a))
  | 8 => needZero (rrrB w) (.ok (.vpackLx d a))
  | 9 => needZero (rrrB w) (.ok (.vunpkE4 d a))
  | 10 => needZero (rrrB w) (.ok (.vunpkE5 d a))
  | 11 => needZero (rrrB w) (.ok (.vunpkLx d a))
  | 12 => .ok (.vshfl d a b)
  | 13 => .ok (.vrot d a b)
  | 14 => .ok (.vbcast d a b)
  | 15 => needZero (rrrB w) (.ok (.vredAddI d a))
  | 16 => needZero (rrrB w) (.ok (.vredAddF d a))
  | 17 => needZero (rrrB w) (.ok (.vredMinI d a))
  | 18 => needZero (rrrB w) (.ok (.vredMaxI d a))
  | 19 => needZero (rrrB w) (.ok (.vredMaxF d a))
  | 20 => needZero (rrrB w) (.ok (.vscanAddI d a))
  | 21 => needZero (rrrB w) (.ok (.vballot d a))
  | 22 => needZero (rrrB w) (.ok (.vmovs d a))
  | 23 => .ok (.smovv d a b)
  | 24 => needZero (rrrD w) (needZero (rrrA w) (needZero (rrrB w) (.ok .vif)))
  | 25 => needZero (rrrD w) (needZero (rrrA w) (needZero (rrrB w) (.ok .velse)))
  | 26 => needZero (rrrD w) (needZero (rrrA w) (needZero (rrrB w) (.ok .vendif)))
  | 27 => needZero (rrrD w) (needZero (rrrB w) (.ok (.xmset a)))
  | 28 => needZero (rrrA w) (needZero (rrrB w) (.ok (.xmget d)))
  | 29 => needZero (rrrD w) (needZero (rrrB w) (.ok (.plset a)))
  | 30 => needZero (rrrD w) (needZero (rrrA w) (.ok (.plsel (rrrB w))))
  | 31 => needZero (rrrD w) (needZero (rrrA w) (needZero (rrrB w) (.ok .pljoin)))
  | 32 => needZero (rrrD w) (needZero (rrrA w) (.ok (.plmask (rrrB w))))
  | 33 => needZero (rrrA w) (needZero (rrrB w) (.ok (.plocc d)))
  | _ => .error 0x02

/-- MEM, major 4: memory by register offset (R77). -/
def decodeMem (w : BitVec 32) : Except (BitVec 8) Instr :=
  let d := Reg.ofField (rrrD w)
  let a := Reg.ofField (rrrA w)
  let b := Reg.ofField (rrrB w)
  match (fn6Of w).toNat with
  | 0 => .ok (.vldB d a b)
  | 1 => .ok (.vldBI d a b)
  | 2 => .ok (.vldH d a b)
  | 3 => .ok (.vldHI d a b)
  | 4 => .ok (.vldW d a b)
  | 5 => .ok (.vldD d a b)
  | 6 => .ok (.vldQ d a b)
  | 7 => .ok (.vstB d a b)
  | 8 => .ok (.vstH d a b)
  | 9 => .ok (.vstW d a b)
  | 10 => .ok (.vstD d a b)
  | 11 => .ok (.vstQ d a b)
  | 12 => .ok (.sldW d a b)
  | 13 => .ok (.sldD d a b)
  | 14 => .ok (.sstW d a b)
  | 15 => .ok (.sstD d a b)
  | 16 => needZero (rrrD w) (.ok (.vpref a b))
  | _ => .error 0x02

/-- SYNC, major 5: atomics, reductions, fences, barriers (R227). -/
def decodeSync (w : BitVec 32) : Except (BitVec 8) Instr :=
  let d := Reg.ofField (rrrD w)
  let a := Reg.ofField (rrrA w)
  let b := Reg.ofField (rrrB w)
  match (fn6Of w).toNat with
  | 0 => .ok (.vatomAdd d a b)
  | 1 => .ok (.vatomAddf d a b)
  | 2 => .ok (.vatomMinI d a b)
  | 3 => .ok (.vatomMaxI d a b)
  | 4 => .ok (.vatomAnd d a b)
  | 5 => .ok (.vatomOr d a b)
  | 6 => .ok (.vatomXor d a b)
  | 7 => .ok (.vatomXchg d a b)
  | 8 => .ok (.vatomCas d a b)
  | 9 => .ok (.satomAdd d a b)
  | 10 => .ok (.satomCas d a b)
  | 11 => .ok (.gredAdd d a b)
  | 12 => .ok (.gredAddf d a b)
  | 13 => .ok (.gredMaxI d a b)
  | 14 => .ok (.sqredAddf d a b)
  | 15 => .ok (.sqredAdd d a b)
  | 16 => .ok (.sqopen d a b)
  | 17 => needZero (rrrD w) (needZero (rrrB w) (.ok (.sqclose a)))
  | 18 => needZero (rrrD w) (needZero (rrrA w) (needZero (rrrB w) (.ok .fenceG)))
  | 19 => needZero (rrrD w) (needZero (rrrA w) (needZero (rrrB w) (.ok .fenceC)))
  | 20 => needZero (rrrD w) (needZero (rrrA w) (needZero (rrrB w) (.ok .fenceD)))
  | 21 => needZero (rrrD w) (needZero (rrrA w) (needZero (rrrB w) (.ok .fenceP)))
  | 22 => needZero (rrrD w) (needZero (rrrA w) (needZero (rrrB w) (.ok .fenceS)))
  | 23 => needZero (rrrD w) (needZero (rrrA w) (needZero (rrrB w) (.ok .xfence)))
  | 24 => needZero (rrrD w) (needZero (rrrA w) (.ok (.barArr (rrrB w))))
  | 25 => needZero (rrrD w) (needZero (rrrA w) (.ok (.barWt (rrrB w))))
  | 26 => needZero (rrrD w) (needZero (rrrA w) (.ok (.barSync (rrrB w))))
  | 27 => needZero (rrrA w) (.ok (.barQ d (rrrB w)))
  | _ => .error 0x02

/-- ENG, major 7: engines, channels, launch. -/
def decodeEng (w : BitVec 32) : Except (BitVec 8) Instr :=
  let d := Reg.ofField (rrrD w)
  let a := Reg.ofField (rrrA w)
  let b := Reg.ofField (rrrB w)
  match (fn6Of w).toNat with
  | 0 => needZero (rrrA w) (needZero (rrrB w) (.ok (.mbatch d)))
  | 1 => needZero (rrrD w) (needZero (rrrB w) (.ok (.mwait a)))
  | 2 => needZero (rrrB w) (.ok (.mquery d a))
  | 3 => .ok (.cpy d a b)
  | 4 => .ok (.cpyt d a b)
  | 5 => .ok (.cpyq d a b)
  | 6 => needZero (rrrB w) (.ok (.cwp d a))
  | 7 => needZero (rrrD w) (.ok (.cwait a b))
  | 8 => needZero (rrrB w) (.ok (.launch d a))
  | 9 => needZero (rrrB w) (.ok (.lquery d a))
  | _ => .error 0x02

/-- SYS, major 15: control, traps, special registers. -/
def decodeSys (w : BitVec 32) : Except (BitVec 8) Instr :=
  let d := Reg.ofField (rrrD w)
  let a := Reg.ofField (rrrA w)
  let b := Reg.ofField (rrrB w)
  match (fn6Of w).toNat with
  | 0 => needZero (rrrD w) (needZero (rrrA w) (needZero (rrrB w) (.ok .nop)))
  | 1 => needZero (rrrD w) (needZero (rrrA w) (needZero (rrrB w) (.ok .park)))
  | 2 => needZero (rrrD w) (needZero (rrrA w) (needZero (rrrB w) (.ok .exit)))
  | 3 => needZero (rrrD w) (needZero (rrrB w) (.ok (.jmp a)))
  | 4 => needZero (rrrD w) (needZero (rrrB w) (.ok (.ret a)))
  | 5 => needZero (rrrD w) (needZero (rrrA w) (.ok (.wbase (rrrB w))))
  | 6 => needZero (rrrA w) (needZero (rrrB w) (.ok (.wget d)))
  | 7 => needZero (rrrD w) (.ok (.region a b))
  | 8 => needZero (rrrD w) (needZero (rrrA w) (.ok (.trap (rrrB w))))
  | 9 => needZero (rrrD w) (needZero (rrrA w) (.ok (.brk (rrrB w))))
  | 10 => needZero (rrrD w) (needZero (rrrA w) (needZero (rrrB w) (.ok .tret)))
  | 11 => needZero (rrrA w) (.ok (.ctlrd d (rrrB w)))
  | 12 => needZero (rrrD w) (.ok (.ctlwr a (rrrB w)))
  | 13 => needZero (rrrD w) (needZero (rrrA w) (.ok (.svc (rrrB w))))
  | 14 => needZero (rrrD w) (needZero (rrrB w) (.ok (.tick a)))
  | 15 => needZero (rrrD w) (needZero (rrrA w) (needZero (rrrB w) (.ok .spin)))
  | 16 => .ok (.sealst d a b)
  | 17 => .ok (.sealld d a b)
  | 18 => needZero (rrrD w) (needZero (rrrB w) (.ok (.dsave a)))
  | 19 => needZero (rrrD w) (needZero (rrrB w) (.ok (.dload a)))
  | _ => .error 0x02

/-- SIMM, major 8: scalar immediate (R63). -/
def decodeSimm (w : BitVec 32) : Except (BitVec 8) Instr :=
  let d := Reg.ofField (immD w)
  let a := Reg.ofField (immA w)
  match (fn3Of w).toNat with
  | 0 => .ok (.saddi d a (imm10Of w))
  | 1 => .ok (.sandi d a (imm10Of w))
  | 2 => .ok (.sori d a (imm10Of w))
  | 3 => .ok (.sxori d a (imm10Of w))
  | 4 => shiftForm (imm10Of w) (.sshli d a)
  | 5 => shiftForm (imm10Of w) (.sshri d a)
  | 6 => shiftForm (imm10Of w) (.ssrai d a)
  | _ => .ok (.sslti d a (imm10Of w))

/-- VIMM, major 9: lane immediate (R120). -/
def decodeVimm (w : BitVec 32) : Except (BitVec 8) Instr :=
  let d := Reg.ofField (immD w)
  let a := Reg.ofField (immA w)
  match (fn3Of w).toNat with
  | 0 => .ok (.vaddi d a (imm10Of w))
  | 1 => .ok (.vandi d a (imm10Of w))
  | 2 => .ok (.vori d a (imm10Of w))
  | 3 => .ok (.vxori d a (imm10Of w))
  | 4 => shiftForm (imm10Of w) (.vshli d a)
  | 5 => shiftForm (imm10Of w) (.vshri d a)
  | 6 => shiftForm (imm10Of w) (.vsrai d a)
  | _ => needZero (immA w) (.ok (.vmovi d (imm10Of w)))

/-- MEMI, major 10: memory by immediate offset (R77). -/
def decodeMemi (w : BitVec 32) : Except (BitVec 8) Instr :=
  let d := Reg.ofField (immD w)
  let a := Reg.ofField (immA w)
  match (fn3Of w).toNat with
  | 0 => .ok (.vldWO d a (imm10Of w))
  | 1 => .ok (.vldDO d a (imm10Of w))
  | 2 => .ok (.vstWO d a (imm10Of w))
  | 3 => .ok (.vstDO d a (imm10Of w))
  | 4 => .ok (.sldWO d a (imm10Of w))
  | 5 => .ok (.sldDO d a (imm10Of w))
  | 6 => .ok (.sstWO d a (imm10Of w))
  | _ => .ok (.sstDO d a (imm10Of w))

/-- SLI, major 11: long immediates (R64). -/
def decodeSli (w : BitVec 32) : Except (BitVec 8) Instr :=
  match (fn3Of w).toNat with
  | 0 => .ok (.smovi (Reg.ofField (immD w)) (imm17Of w))
  | 1 => .ok (.slui (Reg.ofField (immD w)) (imm17Of w))
  | 2 => .ok (.saddpc (Reg.ofField (immD w)) (imm17Of w))
  | _ => .error 0x02

/-- BR, major 12: branches (R68). -/
def decodeBr (w : BitVec 32) : Except (BitVec 8) Instr :=
  let a := Reg.ofField (immD w)
  match (fn3Of w).toNat with
  | 0 => needNul a (.bra (imm17Of w))
  | 1 => .ok (.bz a (imm17Of w))
  | 2 => .ok (.bnz a (imm17Of w))
  | 3 => .ok (.bneg a (imm17Of w))
  | 4 => .ok (.bnn a (imm17Of w))
  | 5 => .ok (.bloop a (imm17Of w))
  | 6 => .ok (.bcall a (imm17Of w))
  | _ => needNul a (.bany (imm17Of w))

/-- MAT, major 6: the matrix engine (R258, R260).  In `mzero`, fmt3 6 and 7 are 0x02 and any other nonzero field 0x03. -/
def decodeMat (w : BitVec 32) : Except (BitVec 8) Instr :=
  let d := Reg.ofField (immD w)
  match (fn3Of w).toNat with
  | 0 => .ok (.mma d (mxSa w) (mxSb w) (mxFmt w) (mxBsel w))
  | 1 => .ok (.mmas d (mxSa w) (mxSb w) (mxFmt w) (mxBsel w))
  | 2 =>
    if 6 ≤ (mxFmt w).toNat then .error 0x02
    else needZero (mxSa w) (needZero (mxSb w) (needZero (mxFmt w) (needZero (mxBsel w) (.ok (.mzero d)))))
  | _ => .error 0x02

/-- The instruction of a word, or the DETAIL of its refusal (R53, R56). -/
def decode (w : BitVec 32) : Except (BitVec 8) Instr :=
  match (majorOf w).toNat with
  | 0 => decodeSint w
  | 1 => decodeVint w
  | 2 => decodeVflt w
  | 3 => decodeVxl w
  | 4 => decodeMem w
  | 5 => decodeSync w
  | 6 => decodeMat w
  | 7 => decodeEng w
  | 8 => decodeSimm w
  | 9 => decodeVimm w
  | 10 => decodeMemi w
  | 11 => decodeSli w
  | 12 => decodeBr w
  | 13 => .error 0x01
  | 14 => .error 0x01
  | _ => decodeSys w

/-! ## The encoder (R52, R53) -/

/-- The RRR format. -/
def rrr (s : Bool) (major : BitVec 4) (fn : BitVec 6) (d a b : BitVec 7) : BitVec 32 :=
  BitVec.ofBool s ++ (major ++ (fn ++ (d ++ (a ++ b))))

/-- The RI format. -/
def ri (s : Bool) (major : BitVec 4) (fn : BitVec 3) (d a : BitVec 7) (imm : BitVec 10) : BitVec 32 :=
  BitVec.ofBool s ++ (major ++ (fn ++ (d ++ (a ++ imm))))

/-- The RL and B formats. -/
def rl (s : Bool) (major : BitVec 4) (fn : BitVec 3) (d : BitVec 7) (imm : BitVec 17) : BitVec 32 :=
  BitVec.ofBool s ++ (major ++ (fn ++ (d ++ imm)))

/-- The MX format. -/
def mx (s : Bool) (fn : BitVec 3) (d : BitVec 7) (sa sb : BitVec 5) (fmt : BitVec 3) (bsel : BitVec 4) : BitVec 32 :=
  BitVec.ofBool s ++ ((6 : BitVec 4) ++ (fn ++ (d ++ (sa ++ (sb ++ (fmt ++ bsel))))))

/-- The word of an instruction with park mark `s`; none for the steps that no word names. -/
def encode (s : Bool) : Instr → Option (BitVec 32)
  | .sadd d a b => some (rrr s 0 0 d.field a.field b.field)
  | .ssub d a b => some (rrr s 0 1 d.field a.field b.field)
  | .smul d a b => some (rrr s 0 2 d.field a.field b.field)
  | .smulhI d a b => some (rrr s 0 3 d.field a.field b.field)
  | .smulhN d a b => some (rrr s 0 4 d.field a.field b.field)
  | .sdivI d a b => some (rrr s 0 5 d.field a.field b.field)
  | .sdivN d a b => some (rrr s 0 6 d.field a.field b.field)
  | .smodI d a b => some (rrr s 0 7 d.field a.field b.field)
  | .smodN d a b => some (rrr s 0 8 d.field a.field b.field)
  | .sand d a b => some (rrr s 0 9 d.field a.field b.field)
  | .sor d a b => some (rrr s 0 10 d.field a.field b.field)
  | .sxor d a b => some (rrr s 0 11 d.field a.field b.field)
  | .sandn d a b => some (rrr s 0 12 d.field a.field b.field)
  | .sshl d a b => some (rrr s 0 13 d.field a.field b.field)
  | .sshr d a b => some (rrr s 0 14 d.field a.field b.field)
  | .ssra d a b => some (rrr s 0 15 d.field a.field b.field)
  | .sminI d a b => some (rrr s 0 16 d.field a.field b.field)
  | .sminN d a b => some (rrr s 0 17 d.field a.field b.field)
  | .smaxI d a b => some (rrr s 0 18 d.field a.field b.field)
  | .smaxN d a b => some (rrr s 0 19 d.field a.field b.field)
  | .ssltI d a b => some (rrr s 0 20 d.field a.field b.field)
  | .ssltN d a b => some (rrr s 0 21 d.field a.field b.field)
  | .sseq d a b => some (rrr s 0 22 d.field a.field b.field)
  | .sclz d a => some (rrr s 0 23 d.field a.field 0)
  | .spop d a => some (rrr s 0 24 d.field a.field 0)
  | .smov d a => some (rrr s 0 25 d.field a.field 0)
  | .vadd d a b => some (rrr s 1 0 d.field a.field b.field)
  | .vsub d a b => some (rrr s 1 1 d.field a.field b.field)
  | .vmul d a b => some (rrr s 1 2 d.field a.field b.field)
  | .vmulhI d a b => some (rrr s 1 3 d.field a.field b.field)
  | .vmulhN d a b => some (rrr s 1 4 d.field a.field b.field)
  | .vmad d a b => some (rrr s 1 5 d.field a.field b.field)
  | .vminI d a b => some (rrr s 1 6 d.field a.field b.field)
  | .vminN d a b => some (rrr s 1 7 d.field a.field b.field)
  | .vmaxI d a b => some (rrr s 1 8 d.field a.field b.field)
  | .vmaxN d a b => some (rrr s 1 9 d.field a.field b.field)
  | .vabs d a => some (rrr s 1 10 d.field a.field 0)
  | .vand d a b => some (rrr s 1 11 d.field a.field b.field)
  | .vor d a b => some (rrr s 1 12 d.field a.field b.field)
  | .vxor d a b => some (rrr s 1 13 d.field a.field b.field)
  | .vandn d a b => some (rrr s 1 14 d.field a.field b.field)
  | .vshl d a b => some (rrr s 1 15 d.field a.field b.field)
  | .vshr d a b => some (rrr s 1 16 d.field a.field b.field)
  | .vsra d a b => some (rrr s 1 17 d.field a.field b.field)
  | .vclz d a => some (rrr s 1 18 d.field a.field 0)
  | .vpop d a => some (rrr s 1 19 d.field a.field 0)
  | .vbrev d a => some (rrr s 1 20 d.field a.field 0)
  | .vsel d a b => some (rrr s 1 21 d.field a.field b.field)
  | .vcmpEq a b => some (rrr s 1 22 0 a.field b.field)
  | .vcmpNe a b => some (rrr s 1 23 0 a.field b.field)
  | .vcmpLtI a b => some (rrr s 1 24 0 a.field b.field)
  | .vcmpLtN a b => some (rrr s 1 25 0 a.field b.field)
  | .vcmpLeI a b => some (rrr s 1 26 0 a.field b.field)
  | .vcmpLeN a b => some (rrr s 1 27 0 a.field b.field)
  | .vdp4I d a b => some (rrr s 1 28 d.field a.field b.field)
  | .vdp4N d a b => some (rrr s 1 29 d.field a.field b.field)
  | .vfadd d a b => some (rrr s 2 0 d.field a.field b.field)
  | .vfsub d a b => some (rrr s 2 1 d.field a.field b.field)
  | .vfmul d a b => some (rrr s 2 2 d.field a.field b.field)
  | .vffma d a b => some (rrr s 2 3 d.field a.field b.field)
  | .vfmin d a b => some (rrr s 2 4 d.field a.field b.field)
  | .vfmax d a b => some (rrr s 2 5 d.field a.field b.field)
  | .vfabs d a => some (rrr s 2 6 d.field a.field 0)
  | .vfneg d a => some (rrr s 2 7 d.field a.field 0)
  | .vfcmpEq a b => some (rrr s 2 8 0 a.field b.field)
  | .vfcmpLt a b => some (rrr s 2 9 0 a.field b.field)
  | .vfcmpLe a b => some (rrr s 2 10 0 a.field b.field)
  | .vfcmpUn a b => some (rrr s 2 11 0 a.field b.field)
  | .vfrcp d a => some (rrr s 2 12 d.field a.field 0)
  | .vfrsq d a => some (rrr s 2 13 d.field a.field 0)
  | .vfsqrt d a => some (rrr s 2 14 d.field a.field 0)
  | .vfexp2 d a => some (rrr s 2 15 d.field a.field 0)
  | .vflog2 d a => some (rrr s 2 16 d.field a.field 0)
  | .vftanh d a => some (rrr s 2 17 d.field a.field 0)
  | .vhadd d a b => some (rrr s 2 18 d.field a.field b.field)
  | .vhmul d a b => some (rrr s 2 19 d.field a.field b.field)
  | .vhfma d a b => some (rrr s 2 20 d.field a.field b.field)
  | .vbadd d a b => some (rrr s 2 21 d.field a.field b.field)
  | .vbmul d a b => some (rrr s 2 22 d.field a.field b.field)
  | .vbfma d a b => some (rrr s 2 23 d.field a.field b.field)
  | .vcvtFI d a => some (rrr s 3 0 d.field a.field 0)
  | .vcvtIF d a => some (rrr s 3 1 d.field a.field 0)
  | .vcvtFH d a => some (rrr s 3 2 d.field a.field 0)
  | .vcvtHF d a => some (rrr s 3 3 d.field a.field 0)
  | .vcvtFB d a => some (rrr s 3 4 d.field a.field 0)
  | .vcvtBF d a => some (rrr s 3 5 d.field a.field 0)
  | .vpackE4 d a => some (rrr s 3 6 d.field a.field 0)
  | .vpackE5 d a => some (rrr s 3 7 d.field a.field 0)
  | .vpackLx d a => some (rrr s 3 8 d.field a.field 0)
  | .vunpkE4 d a => some (rrr s 3 9 d.field a.field 0)
  | .vunpkE5 d a => some (rrr s 3 10 d.field a.field 0)
  | .vunpkLx d a => some (rrr s 3 11 d.field a.field 0)
  | .vshfl d a b => some (rrr s 3 12 d.field a.field b.field)
  | .vrot d a b => some (rrr s 3 13 d.field a.field b.field)
  | .vbcast d a b => some (rrr s 3 14 d.field a.field b.field)
  | .vredAddI d a => some (rrr s 3 15 d.field a.field 0)
  | .vredAddF d a => some (rrr s 3 16 d.field a.field 0)
  | .vredMinI d a => some (rrr s 3 17 d.field a.field 0)
  | .vredMaxI d a => some (rrr s 3 18 d.field a.field 0)
  | .vredMaxF d a => some (rrr s 3 19 d.field a.field 0)
  | .vscanAddI d a => some (rrr s 3 20 d.field a.field 0)
  | .vballot d a => some (rrr s 3 21 d.field a.field 0)
  | .vmovs d a => some (rrr s 3 22 d.field a.field 0)
  | .smovv d a b => some (rrr s 3 23 d.field a.field b.field)
  | .vif => some (rrr s 3 24 0 0 0)
  | .velse => some (rrr s 3 25 0 0 0)
  | .vendif => some (rrr s 3 26 0 0 0)
  | .xmset a => some (rrr s 3 27 0 a.field 0)
  | .xmget d => some (rrr s 3 28 d.field 0 0)
  | .plset a => some (rrr s 3 29 0 a.field 0)
  | .plsel l => some (rrr s 3 30 0 0 l)
  | .pljoin => some (rrr s 3 31 0 0 0)
  | .plmask l => some (rrr s 3 32 0 0 l)
  | .plocc d => some (rrr s 3 33 d.field 0 0)
  | .vldB d a b => some (rrr s 4 0 d.field a.field b.field)
  | .vldBI d a b => some (rrr s 4 1 d.field a.field b.field)
  | .vldH d a b => some (rrr s 4 2 d.field a.field b.field)
  | .vldHI d a b => some (rrr s 4 3 d.field a.field b.field)
  | .vldW d a b => some (rrr s 4 4 d.field a.field b.field)
  | .vldD d a b => some (rrr s 4 5 d.field a.field b.field)
  | .vldQ d a b => some (rrr s 4 6 d.field a.field b.field)
  | .vstB d a b => some (rrr s 4 7 d.field a.field b.field)
  | .vstH d a b => some (rrr s 4 8 d.field a.field b.field)
  | .vstW d a b => some (rrr s 4 9 d.field a.field b.field)
  | .vstD d a b => some (rrr s 4 10 d.field a.field b.field)
  | .vstQ d a b => some (rrr s 4 11 d.field a.field b.field)
  | .sldW d a b => some (rrr s 4 12 d.field a.field b.field)
  | .sldD d a b => some (rrr s 4 13 d.field a.field b.field)
  | .sstW d a b => some (rrr s 4 14 d.field a.field b.field)
  | .sstD d a b => some (rrr s 4 15 d.field a.field b.field)
  | .vpref a b => some (rrr s 4 16 0 a.field b.field)
  | .vatomAdd d a b => some (rrr s 5 0 d.field a.field b.field)
  | .vatomAddf d a b => some (rrr s 5 1 d.field a.field b.field)
  | .vatomMinI d a b => some (rrr s 5 2 d.field a.field b.field)
  | .vatomMaxI d a b => some (rrr s 5 3 d.field a.field b.field)
  | .vatomAnd d a b => some (rrr s 5 4 d.field a.field b.field)
  | .vatomOr d a b => some (rrr s 5 5 d.field a.field b.field)
  | .vatomXor d a b => some (rrr s 5 6 d.field a.field b.field)
  | .vatomXchg d a b => some (rrr s 5 7 d.field a.field b.field)
  | .vatomCas d a b => some (rrr s 5 8 d.field a.field b.field)
  | .satomAdd d a b => some (rrr s 5 9 d.field a.field b.field)
  | .satomCas d a b => some (rrr s 5 10 d.field a.field b.field)
  | .gredAdd d a b => some (rrr s 5 11 d.field a.field b.field)
  | .gredAddf d a b => some (rrr s 5 12 d.field a.field b.field)
  | .gredMaxI d a b => some (rrr s 5 13 d.field a.field b.field)
  | .sqredAddf d a b => some (rrr s 5 14 d.field a.field b.field)
  | .sqredAdd d a b => some (rrr s 5 15 d.field a.field b.field)
  | .sqopen d a b => some (rrr s 5 16 d.field a.field b.field)
  | .sqclose a => some (rrr s 5 17 0 a.field 0)
  | .fenceG => some (rrr s 5 18 0 0 0)
  | .fenceC => some (rrr s 5 19 0 0 0)
  | .fenceD => some (rrr s 5 20 0 0 0)
  | .fenceP => some (rrr s 5 21 0 0 0)
  | .fenceS => some (rrr s 5 22 0 0 0)
  | .xfence => some (rrr s 5 23 0 0 0)
  | .barArr l => some (rrr s 5 24 0 0 l)
  | .barWt l => some (rrr s 5 25 0 0 l)
  | .barSync l => some (rrr s 5 26 0 0 l)
  | .barQ d l => some (rrr s 5 27 d.field 0 l)
  | .mma d sa sb fmt bsel => some (mx s 0 d.field sa sb fmt bsel)
  | .mmas d sa sb fmt bsel => some (mx s 1 d.field sa sb fmt bsel)
  | .mzero d => some (mx s 2 d.field 0 0 0 0)
  | .mbatch d => some (rrr s 7 0 d.field 0 0)
  | .mwait a => some (rrr s 7 1 0 a.field 0)
  | .mquery d a => some (rrr s 7 2 d.field a.field 0)
  | .cpy d a b => some (rrr s 7 3 d.field a.field b.field)
  | .cpyt d a b => some (rrr s 7 4 d.field a.field b.field)
  | .cpyq d a b => some (rrr s 7 5 d.field a.field b.field)
  | .cwp d a => some (rrr s 7 6 d.field a.field 0)
  | .cwait a b => some (rrr s 7 7 0 a.field b.field)
  | .launch d a => some (rrr s 7 8 d.field a.field 0)
  | .lquery d a => some (rrr s 7 9 d.field a.field 0)
  | .saddi d a imm => some (ri s 8 0 d.field a.field imm)
  | .sandi d a imm => some (ri s 8 1 d.field a.field imm)
  | .sori d a imm => some (ri s 8 2 d.field a.field imm)
  | .sxori d a imm => some (ri s 8 3 d.field a.field imm)
  | .sshli d a n => some (ri s 8 4 d.field a.field (n.zeroExtend 10))
  | .sshri d a n => some (ri s 8 5 d.field a.field (n.zeroExtend 10))
  | .ssrai d a n => some (ri s 8 6 d.field a.field (n.zeroExtend 10))
  | .sslti d a imm => some (ri s 8 7 d.field a.field imm)
  | .vaddi d a imm => some (ri s 9 0 d.field a.field imm)
  | .vandi d a imm => some (ri s 9 1 d.field a.field imm)
  | .vori d a imm => some (ri s 9 2 d.field a.field imm)
  | .vxori d a imm => some (ri s 9 3 d.field a.field imm)
  | .vshli d a n => some (ri s 9 4 d.field a.field (n.zeroExtend 10))
  | .vshri d a n => some (ri s 9 5 d.field a.field (n.zeroExtend 10))
  | .vsrai d a n => some (ri s 9 6 d.field a.field (n.zeroExtend 10))
  | .vmovi d imm => some (ri s 9 7 d.field 0 imm)
  | .vldWO d a imm => some (ri s 10 0 d.field a.field imm)
  | .vldDO d a imm => some (ri s 10 1 d.field a.field imm)
  | .vstWO d a imm => some (ri s 10 2 d.field a.field imm)
  | .vstDO d a imm => some (ri s 10 3 d.field a.field imm)
  | .sldWO d a imm => some (ri s 10 4 d.field a.field imm)
  | .sldDO d a imm => some (ri s 10 5 d.field a.field imm)
  | .sstWO d a imm => some (ri s 10 6 d.field a.field imm)
  | .sstDO d a imm => some (ri s 10 7 d.field a.field imm)
  | .smovi d imm => some (rl s 11 0 d.field imm)
  | .slui d imm => some (rl s 11 1 d.field imm)
  | .saddpc d imm => some (rl s 11 2 d.field imm)
  | .bra off => some (rl s 12 0 120 off)
  | .bz a off => some (rl s 12 1 a.field off)
  | .bnz a off => some (rl s 12 2 a.field off)
  | .bneg a off => some (rl s 12 3 a.field off)
  | .bnn a off => some (rl s 12 4 a.field off)
  | .bloop a off => some (rl s 12 5 a.field off)
  | .bcall a off => some (rl s 12 6 a.field off)
  | .bany off => some (rl s 12 7 120 off)
  | .nop => some (rrr s 15 0 0 0 0)
  | .park => some (rrr s 15 1 0 0 0)
  | .exit => some (rrr s 15 2 0 0 0)
  | .jmp a => some (rrr s 15 3 0 a.field 0)
  | .ret a => some (rrr s 15 4 0 a.field 0)
  | .wbase l => some (rrr s 15 5 0 0 l)
  | .wget d => some (rrr s 15 6 d.field 0 0)
  | .region a b => some (rrr s 15 7 0 a.field b.field)
  | .trap l => some (rrr s 15 8 0 0 l)
  | .brk l => some (rrr s 15 9 0 0 l)
  | .tret => some (rrr s 15 10 0 0 0)
  | .ctlrd d l => some (rrr s 15 11 d.field 0 l)
  | .ctlwr a l => some (rrr s 15 12 0 a.field l)
  | .svc l => some (rrr s 15 13 0 0 l)
  | .tick a => some (rrr s 15 14 0 a.field 0)
  | .spin => some (rrr s 15 15 0 0 0)
  | .sealst d a b => some (rrr s 15 16 d.field a.field b.field)
  | .sealld d a b => some (rrr s 15 17 d.field a.field b.field)
  | .dsave a => some (rrr s 15 18 0 a.field 0)
  | .dload a => some (rrr s 15 19 0 a.field 0)
  | .resultReturn _ _ | .loadReturn _ | .automaticTick _ | .spinDemotionEnd _
  | .storeBufferDrain _ | .storeBufferAgeLimit _ | .scratchStoreArrival _ | .atomicPerform _
  | .atomicReturn _ | .fenceComplete _ | .matrixExecutionStart _ | .batchComplete _
  | .copyUnitDelivery _ _ | .contributionArrival _ | .tableWalkComplete _ _ _ | .signatureCompare _
  | .launchSubmit _ _ _ | .unitPlacement _ | .launchComplete _ | .graphWalkerStep _
  | .timeSliceEnd _ | .preemption _ | .groupRestart _ | .regionWatchdog _
  | .stewardWaitTimeout _ | .evictionGroupStart _ | .restorePlacement _ | .rebase
  | .hostWrite _ _ _ | .hostRead _ _ _ _ | .birsp _ _ _ | .biconflict _ _
  | .hostEvictionReport _ _ | .snpinv _ _ | .snpdata _ _ | .snpcur _ _
  | .cxlCacheResponse _ _ _ _ | .registerWrite _ _ _ | .hbeat _ _ | .ntail _ _ _
  | .bind _ _ _ | .set _ _ _ | .assignch _ _ _ | .assignchReset _ _ _
  | .assignchUnassign _ _ _ | .setsucc _ _ _ | .share _ _ _ | .join _ _ _
  | .unshare _ _ _ | .transfer _ _ _ | .adopt _ _ _ | .resume _ _ _
  | .claim _ _ _ | .reply _ _ _ | .evict _ _ _ | .restore _ _ _
  | .release _ _ _ | .gcreate _ _ | .gdestroy _ _ | .gset _ _
  | .startCold _ _ | .startWarm _ _ | .sidebandStartRequest _ | .guardianLoss _ _
  | .severanceTimeout _ | .reapTimeout _ | .lockInterfaceRequest _ _ | .startInterfaceRequest _
  | .stopInterfaceRequest _ | .frozenConfigurationWrite _ | .ideStreamFailure _ _ | .getVersion _
  | .getCapabilities _ | .negotiateAlgorithms _ | .getDigests _ | .getCertificate _ _
  | .challenge _ _ _ | .getMeasurements _ | .keyExchange _ _ | .finish _
  | .keyUpdate _ | .endSession _ | .setCertificate _ _ _ | .hostIdentityPresentation _ _ _
  | .linkDown _ | .linkWheelSlot _ _ | .peerRequestArrival _ _ _ _ | .throttleStep _ _
  | .thermalStop | .powerOff | .illegalInstruction _ | .powerOn
  | .startCompletion _ _ | .linkUp _ | .linkLevelReplay _ | .rangeInvalidation _ _ _
  | .scrubbing _ _ _ => none

/-- The instruction that the decoder reads from the bits of one table row, none where it refuses them.  A word is
32 bits, its byte 0 the least significant; the park mark is not part of the instruction. -/
def decodeTableWord (nbits w : Nat) : Option Instr :=
  (decode (BitVec.ofNat 32 (w % 2 ^ nbits))).toOption

end Sys2Proof
end

