-- ==== Sys2Proof/Machine/State.lean ====
section
/-! DEFINITION. The state of one Skovlux 9400 package as plain data: every group with its registers, every
access, result, batch and copy in progress, the contexts, glades, ports and links around them; what stops a
step; and the state after power-on.  Each field's docstring names its rule and its reset value. -/

namespace Sys2Proof.Machine

/-- Bytes by address, one canonical form (Mem.lean, Memory.wf): addresses strictly rising, no zero byte listed. -/
abbrev Memory := List Host.Cell

/-! ## Values a group waits for -/

/-- Where one byte of an access lies, once translated (R193, R199, R204). -/
inductive Place
  /-- byte `off` of the channel group of slice `slice` (R205) -/
  | dram (slice off : Nat)
  /-- byte `addr` of the memory of the host on port `port`, whose home is slice `home` (R204) -/
  | host (port home addr : Nat)
  /-- byte `off` of the scratch of grove `grove` (R197, R198) -/
  | scratch (grove off : Nat)
  /-- byte `off` of the register file of group `gid` (R35) -/
  | regs (gid off : Nat)
  /-- byte `off` of vault `vault` of die `die` (R199) -/
  | vault (die vault off : Nat)
  deriving DecidableEq, Repr, Inhabited

/-- What a d-field result writes (R45). -/
inductive Dest
  /-- `n` vector registers from physical register `p` on -/
  | vec (p n : Nat)
  /-- `n` scalars from scalar `k` on -/
  | scal (k n : Nat)
  /-- the condition mask -/
  | cm
  /-- the result is discarded (`nul`); its flags still count (R112) -/
  | nul
  deriving DecidableEq, Repr, Inhabited

/-- One outstanding d-field result of a group (R45, R48). -/
structure Result where
  /-- issue number, unique in the package -/
  seq : Nat
  dest : Dest
  /-- the write generation taken for each register of `dest`, 4 bits (R48) -/
  tag : List (BitVec 4)
  /-- keys (Dest.keys) of the registers that a later-issued write of the group has taken over (R47): a generation that
  comes round again revives nothing -/
  past : List Nat
  /-- the lanes it writes: those of its issue mask (R48) that did not fault (R294) -/
  mask : Mask
  /-- vector data: register `k` of `dest`, lane `i`, at key 64 k + i -/
  vals : Table Lane
  /-- scalar data, one for each scalar of `dest`; the mask value for `cm` -/
  svals : List Scalar
  /-- flags merged when the result is written or dropped (R98) -/
  flags : BitVec 5
  /-- the data has arrived: the result may return -/
  ready : Bool
  deriving DecidableEq, Repr, Inhabited

/-- How a load's bytes become register data (R83). -/
inductive Widen
  | zero8 | sign8 | zero16 | sign16 | word | dword | qword
  deriving DecidableEq, Repr, Inhabited

/-- One lane of a load: its first byte, and the bytes its group's store-buffer entry gave it at issue (R217). -/
structure LoadLane where
  lane : Nat
  place : Place
  /-- own buffered bytes, by byte number -/
  own : Table Byte
  /-- the line was stored by the group and not yet folded by a fence: read at the home (R217) -/
  atHome : Bool
  deriving DecidableEq, Repr

/-- A load in progress (R83, R215). -/
structure Load where
  /-- issue number, shared with the `Result` it fills -/
  seq : Nat
  gid : Nat
  size : Nat
  widen : Widen
  lanes : List LoadLane
  /-- CLK at issue (R215) -/
  clk : Nat
  /-- LEASE at issue (R215) -/
  lease : Nat
  /-- lanes whose read is still to be performed: each lane is an access of its own (R203) -/
  rest : List LoadLane
  /-- the bytes read, one number for each lane read so far -/
  data : Table Nat
  /-- the greatest W among the lanes read from copies or the home (R215) -/
  w : Nat
  /-- every global lane was a lease hit (R215) -/
  hit : Bool
  /-- the source code of the unit where the first poisoned byte that was read lay (R302, R311) -/
  poison : Option Nat
  /-- a word's own read, which its group waits for: no result (R169, R282, R285, R306) -/
  own : Bool
  deriving DecidableEq, Repr, Inhabited

/-- One entry of a core's store buffer (R218). -/
structure Entry where
  seq : Nat
  gid : Nat
  ctx : Nat
  core : Nat
  /-- line: the place of its byte 0, and that byte's address, as the first store merged into the entry named it -/
  line : Place
  va : Nat
  /-- masked bytes by offset in the line -/
  bytes : Table Byte
  /-- the greatest CLK at the issue of a merged store -/
  clk : Nat
  /-- the core's clock at creation, for the 4,096-clock limit -/
  born : Nat
  /-- it has begun to drain -/
  draining : Bool
  /-- held until the next compare point of a redundant grove (R309) -/
  held : Bool
  deriving DecidableEq, Repr

/-- A store to scratch, register or vault space on its way to its home (R201, R381). -/
structure LocalStore where
  seq : Nat
  gid : Nat
  ctx : Nat
  place : Place
  size : Nat
  data : Nat
  deriving DecidableEq, Repr

/-- A write of the device into a checkpoint slot that waits for its home (R239, R242, R296, R300). -/
structure SlotWrite where
  seq : Nat
  gid : Nat
  ctx : Nat
  /-- its address, for the error log -/
  va : Nat
  /-- first byte, in one line -/
  place : Place
  bytes : List Byte
  clk : Nat
  deriving DecidableEq, Repr

/-- An access that the device makes for a word, a launch, a graph or a restart, translated, while it waits for its homes (R239,
R242, R345). -/
structure Flight where
  /-- issue number -/
  seq : Nat
  ctx : Nat
  /-- the key of the group, launch or graph that it is made for -/
  who : Nat
  /-- its first address, and its pieces: place, position and length -/
  va : Nat
  pieces : List (Place × Nat × Nat)
  /-- the bytes to be written; none for a read -/
  bytes : Option (List Byte)
  deriving DecidableEq, Repr

/-- A sector that `vpref` fills once its home has the line (R87, R209). -/
structure Prefetch where
  ctx : Nat
  core : Nat
  place : Place
  clk : Nat
  lease : Nat
  deriving DecidableEq, Repr

/-- What a home has asked a host for and not been answered: for a host-backed line RdOwn (`own`) or RdShared (R242); for a
line of device memory that the host holds a copy of, BISnpInv (`own`) or BISnpData (R239). -/
structure Ask where
  /-- the context for which a host-backed line is to be filled (R207); for a device line, 1,024 -/
  ctx : Nat
  port : Nat
  line : Place
  own : Bool
  deriving DecidableEq, Repr

/-- The operations performed at memory (R228). -/
inductive AtomOp
  | add | addf | minI | maxI | and | or | xor | xchg | cas
  deriving DecidableEq, Repr, Inhabited

/-- One lane of an atomic or far reduction. -/
structure AtomLane where
  lane : Nat
  /-- the lane's address, for the error log -/
  va : Nat
  place : Place
  /-- operand, or the compare value of `cas` -/
  v : Nat
  /-- the new value of `cas` -/
  v2 : Nat
  deriving DecidableEq, Repr

/-- An atomic or far reduction in progress (R228). -/
structure Atomic where
  /-- issue number, shared with the `Result` it fills -/
  seq : Nat
  gid : Nat
  ctx : Nat
  core : Nat
  op : AtomOp
  /-- 4 or 8 bytes -/
  size : Nat
  /-- lanes not yet performed, ascending -/
  lanes : List AtomLane
  /-- lanes performed -/
  did : List AtomLane
  /-- CLK at issue -/
  clk : Nat
  /-- a value-returning form -/
  returns : Bool
  /-- old values by lane, and for `cas` the success at key 64 + lane -/
  old : Table Nat
  /-- the greatest time of a lane performed at a global home -/
  t : Nat
  deriving DecidableEq, Repr

/-- A sequenced-reduction contribution on its way to its stream (R232, R233). -/
structure Contribution where
  seq : Nat
  gid : Nat
  ctx : Nat
  handle : Scalar
  j : Nat
  data : Lane
  clk : Nat
  /-- refused by the home and waiting at its core -/
  refused : Bool
  deriving DecidableEq, Repr

/-- One copy a channel has accepted, or that waits to be accepted (R270, R281). -/
structure Copy where
  /-- the launch whose completion waits for it (R156) -/
  launch : Nat
  gid : Nat
  /-- destination and source addresses; for `cpyt`, the dense buffer in both -/
  dst : Nat
  src : Nat
  len : Nat
  /-- bytes delivered -/
  done : Nat
  stamp : Nat
  /-- accesses marked by `xfence` that hold the copy (R277) -/
  holds : List Nat
  /-- flag address of `cpyq` (R284) -/
  flag : Option Nat
  /-- shape record, DIR and origins of `cpyt` (R281 to R283): record bytes, direction, origins -/
  tensor : Option (List Byte × Bool × List Int)
  deriving DecidableEq, Repr

/-- What holds a group (R160).  Operands are those read at issue. -/
inductive Wait
  /-- not waiting: the next word may issue -/
  | none
  /-- parked until the run's outstanding results are written or dropped (R45) -/
  | run
  /-- a fence's waits, before the word at hand goes on (R223, R298) -/
  | fence
  /-- the fence's waits have ended: the word at hand goes on -/
  | fenced
  /-- `bar.arr` (and `bar.sync` when `sync`) on barrier `b`, whose open phase has the group's arrival already:
  until PH reaches `until_` (R185) -/
  | arrive (b : Nat) (until_ : BitVec 32)
  /-- `bar.wt`, or the wait of `bar.sync`: until PH reaches the count (R185) -/
  | barrier (b : Nat) (until_ : BitVec 32)
  /-- `mbatch`: until PEND is below 4 (R261) -/
  | batchRoom
  /-- `mwait`: until the batch of that closing order has completed (R262) -/
  | batch (k : Nat)
  /-- `cwait`: channel, threshold (R279) -/
  | channel (ch : Nat) (threshold : Scalar)
  /-- a copy word parked for room in a channel, with its copy (R270) -/
  | room (ch : Nat) (x : Copy)
  /-- `sqclose`: until the stream of the handle has applied every index (R235) -/
  | stream (handle : Scalar)
  /-- the stream has been closed, or the guardian has replied: the word goes on (R235, R321) -/
  | over
  /-- `region`, `exit`: until outstanding results, and every matrix instruction, are complete (R74, R257, R297) -/
  | quiet
  /-- `svc`: until the guardian replies to the notice (R321) -/
  | svc (notice : Nat)
  /-- a replayable fault: until the guardian replies to the notice (R294) -/
  | guardian (notice : Nat)
  /-- a compare point of a redundant grove (R309) -/
  | compare
  /-- the compare point has passed: the word goes on -/
  | compared
  /-- stalled for want of a write generation (R48) -/
  | stall
  /-- stalled until the core's store buffer holds no more than `n` entries (R218) -/
  | space (n : Nat)
  /-- until no result to one of these registers (by `Dest.keys`) is outstanding (R252) -/
  | registers (keys : List Nat)
  /-- `sealld`: until the group has no access on its way -/
  | idle
  /-- a word's own read, the load of that number, is under way (R169, R282, R285, R325) -/
  | reading (seq : Nat)
  /-- a word's own write, the group's flight, is under way (R242, R297, R306) -/
  | writing
  /-- `cwait`: WP has reached the threshold, with CC as it stood then (R279) -/
  | reached (cc : Nat)
  /-- parked on a channel whose FAULT was set meanwhile (R274, R279) -/
  | faulted
  /-- a precise trap taken and recorded, until the outstanding results are complete (R50) -/
  | trap
  /-- discarded, awaiting its restart (R300) -/
  | discarded
  /-- stopped by a steward fault (R291) -/
  | stopped
  deriving DecidableEq, Repr, Inhabited

/-! ## The word at issue -/

/-- What a word's meaning leaves for its group's offset. -/
inductive Fate
  /-- the word has completed in its plane -/
  | done
  /-- a control transfer was taken to this offset (R67) -/
  | goto (off : Nat)
  /-- the word has not completed: it waits and issues again, or goes on when its wait ends -/
  | hold
  /-- a trap was taken, the group ended, or the handler returned: nothing more is to be done -/
  | left
  deriving DecidableEq, Repr, Inhabited

/-- The plane-word being issued. -/
structure Issue where
  gid : Nat
  /-- the core and slot of the group (R161) -/
  core : Nat
  slot : Nat
  /-- plane whose word issues (R176) -/
  plane : Nat
  /-- E_p: the lanes it issues for, in place of XM (R176) -/
  mask : Mask
  /-- a uniform-class word, taken once for the offset (R178) -/
  uniform : Bool
  /-- its address and its park mark -/
  addr : Nat
  mark : Bool
  /-- the word has issued before and goes on after a wait: no turn of the scheduler (R161) -/
  again : Bool
  fate : Fate
  deriving DecidableEq, Repr, Inhabited

/-! ## A group -/

inductive Mode
  | user | steward
  deriving DecidableEq, Repr, Inhabited

/-- What a group was started for (R304). -/
inductive Role
  | kernel | evict | restore
  deriving DecidableEq, Repr, Inhabited

/-- The source fields of a word. -/
inductive Src
  | a | b | d
  deriving DecidableEq, Repr, Inhabited

/-- A source field's read of one register, made before the word's other reads (R47). -/
structure EarlyRead where
  src : Src
  /-- the register, by `Dest.keys` -/
  key : Nat
  /-- the lanes of a vector register; the value of a scalar or of CM -/
  lanes : Table Lane
  scal : Scalar
  deriving DecidableEq, Repr, Inhabited

/-- One matrix instruction (R258, R260). -/
structure MatOp where
  /-- issue number -/
  seq : Nat
  zero : Bool
  sparse : Bool
  /-- first physical accumulator register -/
  acc : Nat
  fmt : Nat
  bsel : BitVec 4
  aAddr : Scalar
  aDesc : Scalar
  bAddr : Scalar
  bDesc : Scalar
  /-- physical registers it reads or writes, and the bytes it reads as storage (R249, R255) -/
  regs : List Nat
  foot : List (Place × Nat)
  /-- 16-byte chunks of scratch rows read ahead of the others (R254) -/
  chunks : List (Place × List Byte)
  /-- computed accumulator (register k, lane i at key 64 k + i) and flags, once executed -/
  result : Option (Table Lane × BitVec 5)
  /-- the flags that it still raises: all of them, but for what a `ctlwr` that came after it has cleared (R98) -/
  raises : BitVec 5
  deriving DecidableEq, Repr

/-- A closed batch of matrix instructions (R253). -/
structure Batch where
  /-- closing order, unique in the group -/
  k : Nat
  number : BitVec 4
  ops : List MatOp
  deriving DecidableEq, Repr

/-- The state of one group (R32) and what the device keeps for it. -/
structure Group where
  /-- the context, the launch (key), the grove (key) and the index in the grove (R136) -/
  ctx : Nat
  launch : Nat
  grove : Nat
  gix : Nat
  grx : Nat
  role : Role
  /-- package core number and slot, four slots in each partition (R138, R160) -/
  core : Nat
  slot : Nat
  /-- W: 16, 32 or 64 (R42, GCTL.WIDTH) -/
  width : Nat
  /-- F: registers per lane, 32 to 512 (R32) -/
  nregs : Nat
  /-- P: 1, 2 or 4 (R42, GCTL.PCNT) -/
  planes : Nat
  /-- Vector register file: physical register p, lane i, at key 64 p + i; unlisted is zero (R32). Reset: zero (R28) -/
  vregs : Table Lane
  /-- WINB, 9 bits (R32). Reset 0 (R28) -/
  winb : Nat
  /-- s0 to s23, 64 bits each; unlisted is zero (R36). Reset: s0 the parameter block, others 0 (R28) -/
  sregs : Table Scalar
  /-- XM, 64 bits. Reset: one bit for each lane of the width (R28) -/
  xm : Mask
  /-- CM, 64 bits. Reset 0 (R28) -/
  cm : Mask
  /-- PL: planes of the lanes, 2 bits each, unlisted is plane 0 (R32). Reset: all in plane 0 (R28) -/
  pl : Table Nat
  /-- divergence stack, bottom first, at most 8 entries (R166). Reset empty -/
  stack : List Mask
  /-- CLK, 48 bits (R212). Reset: R157 -/
  clk : Nat
  /-- offset, 20 bits (R32). Reset 0 -/
  off : Nat
  /-- mode (R32). Reset user -/
  mode : Mode
  /-- GCTL.FTZ and GCTL.RMODE (R42). Reset 0 -/
  ftz : Bool
  rmode : BitVec 2
  /-- LEASE, 8 bits (R42). Reset 16 -/
  lease : BitVec 8
  /-- ATICK, 8 bits (R42). Reset 32 -/
  atick : BitVec 8
  /-- lease hits counted toward the next automatic tick (R220). Reset 0 -/
  hits : Nat
  /-- RGNOFF, 20 bits (R42). Reset 0 -/
  rgnoff : BitVec 20
  /-- TCAUSE (R42). Reset 0 -/
  tcause : Scalar
  /-- TADDR (R42). Reset 0 -/
  taddr : Scalar
  /-- TLANE (R42). Reset 0 -/
  tlane : Mask
  /-- TOFF, 20 bits (R42). Reset 0 -/
  toff : BitVec 20
  /-- TPLN.DONE, TPLN.PLANE, TPLN.OCC (R43). Reset 0 -/
  tdone : BitVec 4
  tplane : BitVec 2
  tocc : BitVec 4
  /-- FLAGS: NX UF OF DZ NV (R42). Reset 0 -/
  flags : BitVec 5
  /-- MBAT.LAST (R43). Reset 15 -/
  mlast : BitVec 4
  /-- closed batches not yet complete, oldest first (MBAT.PEND counts them), and how many were ever closed (R253) -/
  batches : List Batch
  closed : Nat
  /-- matrix instructions of the open batch (R243) -/
  openOps : List MatOp
  /-- hidden steward frame: s20 to s23 (R290) -/
  frame : List Scalar
  /-- outstanding d-field results, oldest first (R45) -/
  results : List Result
  /-- write generations: physical register p at key p, scalar k at key 1024 + k, CM at key 2048 (R48) -/
  gens : Table (BitVec 4)
  /-- registers whose generation the current offset has taken already (R177) -/
  offGens : List Nat
  /-- occupied planes of the current offset and those that issued; O is taken when `occ` is none (R175) -/
  occ : Option (BitVec 4)
  doneP : BitVec 4
  /-- some word issued at the current offset carries S (R49) -/
  mark : Bool
  /-- it has issued in some plane of the offset and not yet in all: it holds its partition (R162; the model's own field) -/
  holding : Bool
  /-- sources of the next word that have been read already: they keep their values when a result returns before the word's
  other sources are read (R47; the model's own field) -/
  early : List EarlyRead
  /-- plane of a replayed word, and the lanes it is confined to (R292) -/
  replay : Option (Nat × Mask)
  /-- the last trap was not a fault of a fetch or of a scalar access, which resume whole: a cause whose resume point is the lanes of
  TLANE confines its word to them (R289, R294, R380, log 96) -/
  laneTrap : Bool
  /-- the park mark of the trapped offset, and whether the trapping word carries S, kept while the handler runs (R49, R292) -/
  trapMark : Bool
  trapOwn : Bool
  /-- the handler base in force, as TVEC stood at the entry (R290, R322). Reset 0 -/
  vec : Nat
  wait : Wait
  /-- the word at issue that has not completed, with what it was issued under -/
  held : Option (Instr × Issue)
  /-- demoted until its partition's clock reaches this count (R160) -/
  demoted : Option Nat
  /-- acknowledgements not yet folded, and the bytes they stand for: line, and one bit for each byte (R219, R217) -/
  acks : List Nat
  unfolded : List (Place × Nat)
  /-- accesses marked by `xfence`: issue numbers, and the acknowledgements taken with them (R277) -/
  marked : List Nat
  markAck : Nat
  /-- N and A of the group's barriers: grove b at b, copse b at 16 + b, launch b at 20 + b (R184) -/
  barN : Table (BitVec 32)
  barA : Table (BitVec 32)
  /-- `cpy`/`cpyt`, `gred` and `svc` words since the entry, and accepted copies (R275, R299, R321) -/
  cpyCount : Nat
  cpyDone : Nat
  gredCount : Nat
  svcSeq : BitVec 32
  /-- counts that skip replayed copies and reductions after a restart (R275, R299) -/
  cpySkip : Nat
  gredSkip : Nat
  /-- restarts of the current entry (R303), the slot's STATE as the group knows it (R296), and whether the group has
  taken a checkpoint since its start (R300) -/
  wdog : Nat
  rstate : Nat
  based : Bool
  /-- its coming restart is caused by a consumed error or a signature mismatch (R303) -/
  errorRestart : Bool
  /-- a preemption waits for the group since this count of its core's clock (R301) -/
  evictSince : Option Nat
  /-- the core's clock when the group last entered its handler (R301) -/
  entered : Nat
  /-- a watchdog trap held until the group next issues (R301): its DETAIL -/
  heldTrap : Option (BitVec 8)
  /-- signature of the records folded, their count, the signature after each count, and the count at the region entry
  (R309) -/
  sig : BitVec 64
  sigCount : Nat
  sigLog : Table (BitVec 64)
  sigBase : Nat
  /-- a drain forced by room or age waits for a compare (R309): the group issues nothing -/
  compareDue : Bool
  /-- the lease-hit count has reached ATICK: the automatic tick comes next (R220) -/
  tickDue : Bool
  /-- `sqred` parked the group when this many contributions of it were refused: until fewer are (R233); 0, not parked -/
  refusedPark : Nat
  /-- host-backed lines that the group's stores, atomics and reductions wrote since its last `fence.s` (R224) -/
  hostWrote : List Place
  deriving DecidableEq, Repr, Inhabited

/-! ## Units above the group -/

/-- A barrier (R184). -/
structure Barrier where
  /-- PH: completed phases -/
  ph : BitVec 32
  /-- C: groups arrived in the open phase -/
  c : BitVec 32
  /-- EXP: groups that have not exited -/
  expd : BitVec 32
  /-- T: greatest CLK of the last completed phase -/
  t : Nat
  /-- greatest CLK recorded in the open phase -/
  open_ : Nat
  /-- cores of the open phase's arrivals, each once, by the time of its latest arrival (R165) -/
  order : List Nat
  deriving DecidableEq, Repr, Inhabited

/-- A grove (R135, R197). -/
structure Grove where
  ctx : Nat
  launch : Nat
  grx : Nat
  /-- 0 the primary, 1 the redundant copy (R141) -/
  copy : Nat
  /-- the core that holds its scratch, and the upper core with the first gix there, if it spans a pair (R138) -/
  core : Nat
  upper : Option (Nat × Nat)
  /-- scratch bytes (R197). Reset: zero at the grove's first instruction -/
  scratch : Memory
  /-- grove barriers 0 to 15 (R184) -/
  bars : Table Barrier
  /-- groups that have not exited -/
  alive : Nat
  /-- placed on a core now -/
  placed : Bool
  /-- the copse keeps its scratch after its exit (R198) -/
  kept : Bool
  /-- final record count and signature of a redundant copy's exited groups, by gix (R309) -/
  ends : Table (Nat × BitVec 64)
  deriving DecidableEq, Repr, Inhabited

/-- A launch record's used range, in granules: first and count (R145). -/
structure Range where
  base : Nat
  count : Nat
  deriving DecidableEq, Repr

/-- A launch record, its 128 bytes read as R142 to R145 lay them out. -/
structure Record where
  entry : Nat
  pstride : Nat
  scratch : Nat
  copse : Nat
  groups : Nat
  regs : Nat
  width : Nat
  pcnt : Nat
  doneval : BitVec 32
  kind : Nat
  prio : Nat
  redund : Bool
  coop : Bool
  queue : Nat
  groves : Nat
  param : Nat
  ckpt : Nat
  done : Nat
  reads : List Range
  writes : List Range
  deriving DecidableEq, Repr, Inhabited

/-- A launch accepted and tracked (R150, R156, R287). -/
structure Launch where
  ctx : Nat
  rcd : Record
  /-- launch id (R286) -/
  lid : Nat
  /-- the walker that submitted it, if a graph did -/
  graph : Option Nat
  started : Bool
  complete : Bool
  /-- keys of the groups it has started (R156) -/
  gids : List Nat
  /-- next grove to place (R155) -/
  next : Nat
  /-- groves of both copies that have not exited or are not yet placed -/
  alive : Nat
  /-- groups start with at least this CLK (R157) -/
  clk : Nat
  /-- checkpoint area, 0 for none (R295), and whether it is the context's CKPT -/
  area : Nat
  ctxArea : Bool
  /-- a copy was withdrawn: no flag is written (R156) -/
  withdrawn : Bool
  /-- performance time of the latest effect (R157) -/
  last : Nat
  /-- host-backed lines that its effects wrote (R156, R224) -/
  hostWrote : List Place
  /-- copse barriers: copse k, copy c, barrier b at key 4 (2 k + c) + b; launch barriers: copy c, barrier b at 2 c + b -/
  copseBars : Table Barrier
  launchBars : Table Barrier
  deriving DecidableEq, Repr, Inhabited

/-- A task graph's walker (R159). -/
structure Graph where
  ctx : Nat
  rcd : Record
  lid : Nat
  node : Nat
  counts : Table Nat
  /-- launches submitted (keys) -/
  submitted : List Nat
  /-- the node entry, and the record of a launch node, read as the walker reached the node (R159) -/
  entry : Option (List Byte)
  snap : Option (List Byte)
  /-- groups of its launches start with at least this CLK (R285) -/
  clk : Nat
  /-- a graph fault has been met: nothing more is submitted (R159) -/
  failed : Bool
  deriving DecidableEq, Repr, Inhabited

/-! ## Memory levels -/

/-- A global line at its home (R212, R239, R242, R359). -/
structure Line where
  /-- write time W and lease end L, W ≤ L (R212). Reset: FLOOR, 0 after a start -/
  w : Nat
  l : Nat
  /-- presence bits of the four host ports (R239). Reset 0 -/
  present : BitVec 4
  /-- ports whose host has answered the BISnpData of the coming renewal: its copy is shared and clean (R239).  Reset 0 -/
  shared : BitVec 4
  /-- the home owns a host-backed line (R242), and holds the line dirty (R208). Reset false -/
  owned : Bool
  dirty : Bool
  /-- what the host's own memory holds for a host-backed line while the home holds it dirty, and which of those bytes are
  poisoned, one bit each (R224, R242, R370) -/
  backing : List Byte
  backBad : Nat
  deriving DecidableEq, Repr, Inhabited

/-- A copy of one 32-byte sector in an L1 or L2 (R203, R214). -/
structure CopyLine where
  ctx : Nat
  /-- the sector: the place of its byte 0 -/
  sector : Place
  w : Nat
  lc : Nat
  data : List Byte
  /-- one bit for each byte that is poisoned (R302) -/
  bad : Nat
  deriving DecidableEq, Repr

/-- A cached translation of a core (R319): context, page base, page size, leaf. -/
structure Xlate where
  ctx : Nat
  base : Nat
  size : Nat
  leaf : Scalar
  deriving DecidableEq, Repr

/-- A core (R196). -/
structure Core where
  /-- rate step n, 32 to 48, as rebalancing leaves it (R165). Reset 40 -/
  step : Nat
  /-- clocks since the last start, counted in 1/800 (R9) -/
  phase : Nat
  /-- L1 copies (R207), and the base of their times (R236). Reset none, 0 -/
  l1 : List CopyLine
  l1Base : Nat
  /-- cached translations (R319). Reset none -/
  tlb : List Xlate
  /-- the slot that issued last, by partition (R161). Reset 3 -/
  lastSlot : Table Nat
  deriving DecidableEq, Repr, Inhabited

/-- One line of an access that was in flight to its port when the port was severed for its context (R345). -/
structure Cut where
  /-- the access's issue number; 0 for the unit of a channel, or the target of a stream, which hold their own -/
  seq : Nat
  ctx : Nat
  line : Place
  /-- the access needs ownership of the line -/
  own : Bool
  /-- 50 ms from the severance -/
  due : Nat
  /-- the port has answered after that -/
  late : Bool
  deriving DecidableEq, Repr

/-- A sequenced stream's slot (R231, R233). -/
structure Stream where
  /-- the next generation: 1, 2 or 3 (R231). Reset 1 -/
  gen : Nat
  isOpen : Bool
  ctx : Nat
  base : BitVec 32
  cntm1 : Nat
  fp : Bool
  /-- the target's place and address -/
  target : Place
  va : Nat
  /-- the target's line, after a severance of its port (R345) -/
  cut : List Cut
  next : Nat
  /-- buffered contributions by index: data, clock and group -/
  buf : Table (Lane × Nat × Nat)
  deriving DecidableEq, Repr, Inhabited

/-- A slice (R203, R208, R212). -/
structure Slice where
  /-- FLOOR, 48 bits (R212). Reset 0 -/
  floor : Nat
  /-- L2 copies, the most recently used first (R207, R208), and the bases of their times, by bank (R236). Reset none, 0 -/
  l2 : List CopyLine
  l2Bases : Table Nat
  /-- lines that the L3 slice holds, with the tag of the context, the most recently used first (R207, R208). Reset none -/
  l3 : List (Nat × Nat)
  /-- 64 stream slots by number (R231) -/
  streams : Table Stream
  deriving DecidableEq, Repr, Inhabited

/-- Where an address of a channel leads (R274). -/
inductive Reach
  | at_ (p : Place)
  | peer (link addr : Nat)
  /-- a replayable fault: CODE 7 and this DETAIL -/
  | stall (detail : Nat)
  /-- an unrecoverable delivery fault; an ill-formed entry is named -/
  | broken (illFormed : Bool)
  deriving DecidableEq, Repr

/-- A copy channel (R267). -/
structure Channel where
  /-- owner context and local number (R266, R331). Reset none -/
  owner : Option (Nat × Nat)
  /-- SP and WP, 64 bits. Reset 0 -/
  sp : Scalar
  wp : Scalar
  /-- CC, 48 bits. Reset 0 -/
  cc : Nat
  /-- accepted copies, oldest first; QUEUED counts them. Reset none -/
  queue : List Copy
  /-- FAULT. Reset 0 -/
  fault : Bool
  /-- the notice of a stall in force (R274) -/
  stalled : Option Nat
  /-- the next unit's addresses, translated, while it waits for its homes (R345) -/
  flight : Option (List (Nat × Reach))
  /-- the lines of the unit in flight that a severed port has not answered (R345) -/
  cut : List Cut
  deriving DecidableEq, Repr, Inhabited

/-! ## Contexts, glades and hosts -/

/-- GDN.STATE (R42, R343). -/
inductive GState
  | guarded | shared | orphaned | suspended | reaped
  deriving DecidableEq, Repr, Inhabited

/-- A guardian of a context: its VF page, identity and lease (R341, R342). -/
structure Guardian where
  port : Nat
  vf : Nat
  page : Nat
  identity : BitVec 256
  /-- LAST, device time in ns -/
  last : Nat
  deriving DecidableEq, Repr

/-- A notice (R347). -/
structure Notice where
  seq : Nat
  type : Nat
  gix : Nat
  ctx : Nat
  grx : Nat
  toff : Nat
  svcSeq : BitVec 32
  tcause : Scalar
  taddr : Scalar
  tlane : Mask
  args : List Scalar
  log : List Byte
  /-- the group or channel it speaks of -/
  gid : Option Nat
  channel : Option Nat
  answered : Bool
  /-- raised while the context had no guardian, and not yet delivered (R348) -/
  queued : Bool
  /-- the port of the guardian that has claimed it (R347) -/
  claimant : Option Nat
  deriving DecidableEq, Repr, Inhabited

/-- A context's settings (R338). Reset: the defaults of R338, every pointer zero. -/
structure Settings where
  root : Nat
  ttbase : Nat
  ttslots : Nat
  /-- L1 size code, 0 to 2 -/
  l1 : Nat
  leasems : Nat
  reaps : Nat
  cpairs : BitVec 192
  vaults : BitVec 288
  l2limit : Nat
  l3limit : Nat
  deriving DecidableEq, Repr, Inhabited

/-- A context (R40, R339, R341). -/
structure Context where
  glade : Nat
  isProtected : Bool
  cfg : Settings
  /-- CKPT, TVEC (R42). Reset 0 -/
  ckpt : Nat
  tvec : Nat
  /-- SEALCTR (R42). Reset 0 -/
  sealctr : Nat
  /-- ECLASS: VALID, SOURCE, CLASS (R42). Reset 0 -/
  eclass : Option (Nat × Nat)
  state : GState
  /-- guardians, the primary first (R341) -/
  guardians : List Guardian
  /-- succession list of three identities, zero is empty (R337) -/
  successors : List (BitVec 256)
  /-- invited identity, zero is none (R337) -/
  invited : BitVec 256
  /-- ADEPOCH, 64 bits (R341). Reset 0 -/
  adepoch : Scalar
  /-- NONCE, 256 bits (R341) -/
  nonce : BitVec 256
  /-- severed ports and SEVGB (R345). Reset 0 -/
  sevp : BitVec 4
  sevgb : Bool
  /-- the last orphan moment, and the reap timer's start (R346, R350) -/
  lostAt : Option Nat
  reapFrom : Option Nat
  /-- notices raised, by number; those not yet in a ring are delivered in order (R347, R348) -/
  nextNotice : Nat
  notices : List Notice
  /-- launch ids taken (R286) -/
  nextLid : Nat
  /-- launch keys of queues 0 to 7, oldest first: those not complete (R152), and the queue last served by priority (R155) -/
  queues : Table (List Nat)
  lastQueue : Nat
  /-- evicted; eviction or restore in progress (R304, R327) -/
  evicted : Bool
  evicting : Bool
  restoring : Bool
  /-- evictions (false) and restores (true) that the guardian asked for while one was in progress, oldest first (R327) -/
  asked : List Bool
  /-- launch window as bytes by offset, and the slots whose record waits for its snapshot, oldest write first (R148, R150).
  Reset 0 and none -/
  window : Memory
  submits : List Nat
  /-- the page through which those records came: VF and page (R149, R366) -/
  writer : Option (Nat × Nat)
  deriving DecidableEq, Repr, Inhabited

/-- Export window of a link (R338, R362). -/
structure Window where
  lbase : Nat
  pbase : Nat
  size : Nat
  deriving DecidableEq, Repr, Inhabited

/-- One ERRLOG entry (R313). -/
structure LogEntry where
  time : Nat
  addr : Scalar
  ctx : Nat
  cls : Nat
  source : Nat
  act : Nat
  ovf : Bool
  detail : BitVec 32
  deriving DecidableEq, Repr

/-- A glade, keyed by its first slice (R329, R330, R338). -/
structure Glade where
  /-- number of slices: 1, 3, 6 or 12 -/
  len : Nat
  /-- administrator port -/
  admin : Nat
  engines : BitVec 32
  ports : BitVec 4
  /-- SHARE_B, 0 to 48. Reset 48 (R205) -/
  shareB : Nat
  /-- SLICEMS. Default 10 -/
  slicems : Nat
  /-- link slot masks: link l, direction x at key 2 l + x (R361) -/
  links : Table (BitVec 64)
  /-- ERRSEV: class × 8 + source (R312). Reset: the defaults of R311, listed where changed -/
  errsev : Table Nat
  exports : Table Window
  /-- ERRLOG ring, oldest first, at most 256; LOGHEAD (R313, R335). Reset empty -/
  errlog : List LogEntry
  loghead : BitVec 32
  /-- glade key (R359) -/
  key : Nat
  /-- the time-sliced context whose turn it is, and when the turn began (R340) -/
  turn : Option Nat
  turnFrom : Nat
  deriving DecidableEq, Repr, Inhabited

/-- TDISP state of a VF (R357). -/
inductive Tdisp
  | unlocked | locked | run | error
  deriving DecidableEq, Repr, Inhabited

/-- A virtual function (R332, R357). -/
structure Vf where
  tdisp : Tdisp
  /-- the IDE stream it is bound to (R357) -/
  stream : Nat
  deriving DecidableEq, Repr, Inhabited

/-- A context page of a VF, key 4 vf + page (R334). -/
structure CtxPage where
  /-- bound context -/
  bound : Option Nat
  /-- CMD fields (R336). Reset 0 -/
  arg0 : BitVec 32
  status : BitVec 8
  code : BitVec 8
  /-- notice ring (R347): NHEAD, NTAIL, and the entries by position. Reset 0 -/
  nhead : BitVec 32
  ntail : BitVec 32
  ring : Table (List Byte)
  /-- entries that wait for room in the ring, oldest first (R347) -/
  waiting : List (List Byte)
  /-- MSI-X messages sent for the page (R333, R347) -/
  signals : Nat
  /-- settings block and ARGS as bytes by offset (R334). Reset 0 -/
  settings : Memory
  args : Memory
  deriving DecidableEq, Repr, Inhabited

/-- An SPDM session of a port (R355). -/
inductive Session
  | none | versioned | capable | negotiated | exchanged | secured
  deriving DecidableEq, Repr, Inhabited

/-- What the device answers a host (R241, R314, R363). -/
inductive Answer
  /-- nothing asked yet -/
  | none
  /-- the write has been performed -/
  | done
  /-- the bytes read, and whether they are poisoned -/
  | data (bytes : List Byte) (poisoned : Bool)
  /-- an error response: nothing has been performed -/
  | error
  /-- no answer comes from the unit addressed: Completer Abort -/
  | abort
  deriving DecidableEq, Repr, Inhabited

/-- A host port and its PF (R332, R335, R355, R356). -/
structure Port where
  /-- PF CMD fields and ARGS (R335). Reset 0 -/
  arg0 : BitVec 32
  status : BitVec 8
  code : BitVec 8
  args : Memory
  /-- number of VFs (R332). Default 64 -/
  vfs : Nat
  /-- SPDM session, and the identity presented in it (R355) -/
  session : Session
  identity : Option (BitVec 256)
  /-- certificate slots: generation counts and contents, and the challenge recorded (R356) -/
  slotGen : Table Nat
  slotCert : Table (List Byte)
  challenged : Option (Nat × Nat)
  /-- the last answer given to the host on this port -/
  answer : Answer
  deriving DecidableEq, Repr, Inhabited

/-- A device link (R360, R361). -/
structure Link where
  up : Bool
  /-- consecutive replays of one flit (R360) -/
  replays : Nat
  /-- flits waiting, by direction and glade: key 16 × direction + glade; and the wheel position, by direction (R361) -/
  flits : Table Nat
  wheel : Table Nat
  /-- the glade last served with a best-effort slot, by direction (R361) -/
  lastBest : Table Nat
  /-- flits carried, by direction and glade: key 16 × direction + glade -/
  carried : Table Nat
  /-- poisoned flits sent outward, by glade (R382) -/
  poisoned : Table Nat
  /-- clock of the link agent, by glade (R362) -/
  clks : Table Nat
  /-- the last answer given to the peer (R362) -/
  answer : Answer
  deriving DecidableEq, Repr, Inhabited

/-- BOOTST.STATE (R373). -/
inductive BootState
  | off | starting | ready | recovery
  deriving DecidableEq, Repr, Inhabited

/-- Start, power and degraded parts (R369 to R379). -/
structure Boot where
  /-- BOOTST.STATE, KIND, FAILS, LASTFAIL (R373). Reset OFF, 0, 0, 0 -/
  state : BootState
  cold : Bool
  fails : Nat
  lastfail : Nat
  /-- trained DRAM parameters are held (R371). Reset none -/
  trained : Bool
  /-- firmware mailbox bytes (R370). Reset 0 -/
  mailbox : Memory
  /-- CAPCORE: enabled cores of the twelve slices, fused (R378) -/
  fuses : List (BitVec 24)
  /-- power is on (R377). Reset: on -/
  powered : Bool
  /-- the parts that are over their limits: slice s at s, the module's power at 12 (R376). Reset none -/
  overs : List Nat
  /-- the steps by which throttling lowers every core, up to 16 (R376). Reset 0 -/
  lowered : Nat
  /-- throttling, since its last step at this device time (R376). Reset none -/
  throttleAt : Option Nat
  /-- power above its limit with every core at step 32, since this device time (R376). Reset none -/
  hotAt : Option Nat
  deriving DecidableEq, Repr, Inhabited

/-! ## What moves next -/

/-- What may move the package next.  The list `State.agenda` holds every choice that the manual leaves to timing
or to the world outside: which group issues, when a device step happens, what a host does, how time passes. -/
inductive Agendum
  /-- a step of the operations table that no instruction word names -/
  | event (i : Instr)
  /-- a partition of a core issues: R161 picks the group, which issues its next plane-word or ends its wait -/
  | issue (core partition : Nat)
  /-- the reads of a load are performed, before it returns (R82, R215) -/
  | perform (seq : Nat)
  /-- the read of one lane of a load is performed (R203) -/
  | performLane (seq lane : Nat)
  /-- a source field of the group's next word reads a register now, before the word's other sources are read (R47) -/
  | readEarly (gid : Nat) (f : Src) (key : Nat)
  /-- a matrix instruction reads one 16-byte chunk of a scratch row (R254) -/
  | readChunk (gid seq : Nat) (p : Place)
  /-- time passes -/
  | elapse (ns : Nat)
  /-- an L1 (by core) or L2 (by slice) drops its copies of a sector (R208, R236) -/
  | dropL1 (core : Nat) (sector : Place)
  | dropL2 (slice : Nat) (sector : Place)
  /-- a core drops its translations, as a full flush (R319) -/
  | flushTlb (core : Nat)
  /-- the home stops tracking a clean line (R208, R212) -/
  | untrack (line : Place)
  /-- a host reads `len` bytes of a function's register BAR from offset `off` on -/
  | hostLook (fn : HostFn) (off len : Nat)
  /-- the host on a port writes its own memory, of which no home holds a line (R242) -/
  | hostStore (port addr : Nat) (data : List Byte)
  /-- the management controllers fix the number of VFs on each port, before a start (R332) -/
  | vfCounts (counts : List Nat)
  deriving DecidableEq, Repr

/-- Frames of a glade that the device has written with zero, and the key it did so under (R354, R359). -/
structure Zeroing where
  /-- the glade as it stood: first slice, slices, share -/
  first : Nat
  len : Nat
  shareB : Nat
  /-- physical addresses: base and size -/
  frames : List (Nat × Nat)
  key : Nat
  deriving DecidableEq, Repr

/-- The package. -/
structure State where
  /-- choices already made for the next steps (the model's own field). Reset: none -/
  agenda : List Agendum
  /-- the plane-word being issued, between fetch and completion (R175). Reset: none -/
  cur : Option Issue
  /-- device time in ns since the last completed start (R42, TIME). Reset 0 -/
  time : Nat
  /-- EPOCH, 32 bits (R238). Reset 0 -/
  epoch : Nat
  /-- issue numbers and keys given so far (the model's own field). Reset 0 -/
  nextId : Nat
  /-- draws from the device's random source so far (R341, R358; the model's own field). Reset 0 -/
  draws : Nat
  boot : Boot
  /-- DRAM: byte `off` of slice s at s × 48 GiB + off (R205). Reset: nothing listed -/
  dram : Memory
  /-- key under which a DRAM line was last written, by line number; unlisted is 0, no key (R359). Reset: none -/
  keys : Table Nat
  /-- frames written with zero since, the latest first: the key of their lines that `keys` does not list (R359). Reset: none -/
  zeroed : List Zeroing
  /-- host memories: byte `a` of port p at p × 2^56 + a. Reset: nothing listed -/
  hostMem : Memory
  /-- vaults: byte `off` of vault v of die d at (72 d + v) × 8 MiB + off (R199). Reset: zero (R370) -/
  vaultMem : Memory
  /-- the context that a vault was last allotted to, vault v of die d at 72 d + v (R200). Reset: none -/
  vaultLast : Table Nat
  /-- global lines at their homes: DRAM line n at key n, line n of the host on
  port p at its home h at 2^64 (p + 1) + 2^56 h + n (R212). Reset: untracked -/
  lines : Table Line
  /-- poisoned bytes: one bit for each byte of a 32-byte sector, keyed as `lines`, by sector (R302, R382). Reset: none -/
  poison : Table Nat
  /-- what the homes have asked the hosts for (R239, R242). Reset: none -/
  asks : List Ask
  /-- a host's own request that met a back-invalidation and is performed first: port and line number (R240). Reset: none -/
  conflicts : List (Nat × Nat)
  /-- what of the accesses in flight a severed port has not answered (R345). Reset: none -/
  cuts : List Cut
  /-- the greatest time of an effect of a complete launch that is no longer listed (R157). Reset: 0 -/
  doneTime : Nat
  groups : Table Group
  groves : Table Grove
  launches : Table Launch
  graphs : Table Graph
  loads : List Load
  entries : List Entry
  locals : List LocalStore
  atoms : List Atomic
  contribs : List Contribution
  slotWrites : List SlotWrite
  prefetches : List Prefetch
  /-- accesses of the device for a word, a launch, a graph or a restart that wait for their homes (R345). Reset: none -/
  flights : List Flight
  /-- cores by package core number (R328). Reset: Core of the docstrings -/
  cores : Table Core
  /-- slices 0 to 11 (R328) -/
  slices : Table Slice
  /-- channels: engine e, channel c at 16 e + c (R266) -/
  channels : Table Channel
  /-- contexts by id, 0 to 1,023 (R339). Reset: none -/
  contexts : Table Context
  /-- key slots: context id to key number; a key number is a draw (R358). Reset: none -/
  ctxKeys : Table Nat
  glades : Table Glade
  vfs : Table Vf
  pages : Table CtxPage
  ports : Table Port
  links : Table Link
  deriving DecidableEq, Repr, Inhabited

/-! ## The state after power-on -/

/-- A core that nothing has touched: clock step 40 (R165); the slot that issued last is DESIGN CHOICE 3 (log 5). -/
def Core.reset : Core := { step := 40, phase := 0, l1 := [], l1Base := 0, tlb := [], lastSlot := [] }

/-- A stream slot never opened: the next generation is 1 (DESIGN CHOICE, log 5). -/
def Stream.reset : Stream :=
  { gen := 1, isOpen := false, ctx := 0, base := 0, cntm1 := 0, fp := false, target := default, va := 0, cut := [], next := 0,
    buf := [] }

/-- A slice after a start: FLOOR 0, nothing cached, no stream open (R212, R370). -/
def Slice.reset : Slice := { floor := 0, l2 := [], l2Bases := [], l3 := [], streams := [] }

/-- A channel as assigned or unassigned: R267. -/
def Channel.reset : Channel :=
  { owner := none, sp := 0, wp := 0, cc := 0, queue := [], fault := false, stalled := none, flight := none, cut := [] }

/-- A page that nothing has bound: R334, R336. -/
def CtxPage.reset : CtxPage :=
  { bound := none, arg0 := 0, status := 0, code := 0, nhead := 0, ntail := 0, ring := [], waiting := [], signals := 0,
    settings := [], args := [] }

/-- A port: 64 VFs (R332), no session, no presented identity (R355), every slot at generation 0 (log 5). -/
def Port.reset : Port :=
  { arg0 := 0, status := 0, code := 0, args := [], vfs := 64, session := .none, identity := none, slotGen := [],
    slotCert := [], challenged := none, answer := .none }

/-- A VF: CONFIG_UNLOCKED (DESIGN CHOICE, log 5). -/
def Vf.reset : Vf := { tdisp := .unlocked, stream := 0 }

/-- A link: down (DESIGN CHOICE, log 5). -/
def Link.reset : Link :=
  { up := false, replays := 0, flits := [], wheel := [], lastBest := [], carried := [], poisoned := [], clks := [],
    answer := .none }

/-- The package as power comes on (R373, R377): nothing kept, BOOTST OFF, no glade, context or group.  The tables of
parts (cores, slices, channels, ports, pages, links, VFs) list no entry: a part not listed is as its reset above says. -/
def State.reset : State :=
  { agenda := [], cur := none, time := 0, epoch := 0, nextId := 0, draws := 0,
    boot := { state := .off, cold := false, fails := 0, lastfail := 0, trained := false, mailbox := [],
              fuses := List.replicate 12 0xFFFFFF, powered := true, overs := [], lowered := 0,
              throttleAt := none, hotAt := none },
    dram := [], keys := [], zeroed := [], hostMem := [], vaultMem := [], vaultLast := [], lines := [], poison := [], asks := [],
    conflicts := [], cuts := [], doneTime := 0, groups := [], groves := [],
    launches := [], graphs := [], loads := [], entries := [], locals := [], atoms := [], contribs := [], slotWrites := [],
    prefetches := [], flights := [], cores := [], slices := [], channels := [], contexts := [], ctxKeys := [], glades := [], vfs := [], pages := [], ports := [],
    links := [] }

/-- Why the machine stops. -/
inductive Fault
  /-- `exec` was asked for the meaning of an instruction word while no group issues one.  Raised by every word's
  meaning; no step raises it, since a step fetches a word for a group first.  Safe: it only stops. -/
  | noIssuingGroup
  deriving DecidableEq, Repr

/-- Why a step has no meaning. -/
inductive Refusal
  /-- The instruction has no meaning yet (raised by exec's arms only).  Safe: it only stops. -/
  | notModelled (mnemonic : String)
  deriving DecidableEq, Repr

end Sys2Proof.Machine
end

