-- ==== Sys2Proof/Machine/Flags.lean ====
section
/-! DEFINITION. The exception flags of FLAGS (R42, R98) and how they gather. -/

namespace Sys2Proof.Machine

/-- Invalid, divide by zero, overflow, underflow, inexact: bits 0 to 4 of FLAGS (R42). -/
def flagNV : BitVec 5 := 0b00001
def flagDZ : BitVec 5 := 0b00010
def flagOF : BitVec 5 := 0b00100
def flagUF : BitVec 5 := 0b01000
def flagNX : BitVec 5 := 0b10000

/-- A flag raised when `b` holds. -/
def flagIf (b : Bool) (f : BitVec 5) : BitVec 5 := if b then f else 0

/-- The flags raised by any of several operations. -/
def joinFlags (l : List (BitVec 5)) : BitVec 5 := l.foldl (· ||| ·) 0

/-- Flags of an instruction merged into FLAGS: a flag once set stays set (R98). -/
def Group.mergeFlags (g : Group) (f : BitVec 5) : Group := { g with flags := g.flags ||| f }

end Sys2Proof.Machine
end

