-- ==== Sys2Proof/Config.lean ====
section
/-! DEFINITION. What the manual leaves to the part, as opaque constants: nothing can be proved of their values.
Each is named in the assumption log. -/

namespace Sys2Proof.Config

/-- FREE VALUE: the 256 bits of draw `n` of the device's random source (R341, R358). -/
opaque random : Nat → BitVec 256

/-- FREE VALUE: byte `i` of what a reader under key `reader` finds in 16-byte block `block` of a DRAM line that was last written under
key `written` and holds the plaintext `plain` there (R359: values that are neither party's plaintext). -/
opaque wrongKey : (written reader line block : Nat) → (plain : List Byte) → (i : Nat) → Byte

/-- UNINTERPRETED: byte `i` of the AES-256-GCM key stream of a sealing key and an initial vector (R305). -/
opaque gcmStream : (key iv i : Nat) → Byte

/-- UNINTERPRETED: the GCM tag of a sealing key, an initial vector, the authenticated trailer bytes and the
ciphertext (R305). -/
opaque gcmTag : (key iv : Nat) → (aad ct : List Byte) → BitVec 128

/-- UNINTERPRETED: SHA3-256 (R339, R349, R355). -/
opaque sha3 : List Byte → BitVec 256

/-- UNINTERPRETED: whether an ML-DSA-44 signature over a message verifies under a public key (R349, R370). -/
opaque mldsaVerify : (key message signature : List Byte) → Bool

/-- FREE VALUE: the public key fused at manufacture that firmware images are checked against (R370). -/
opaque firmwareKey : List Byte

/-- UNINTERPRETED: the image and its signature, as the bytes of the firmware mailbox spell them (R370: no layout is given). -/
opaque imageParts : List (Nat × Byte) → List Byte × List Byte

/-- UNINTERPRETED: whether the session's requester key on a port signed a presented key (R355). -/
opaque requesterSigned : (port : Nat) → (key signature : List Byte) → Bool

/-- FREE VALUE: whether the module's power budget has room for a core's clock to rise, at query `n` (R165). -/
opaque powerRoom : Nat → Bool

/-- FREE VALUE: a 64-bit value that the manual does not state, at query `n`. -/
opaque unstated : Nat → BitVec 64

end Sys2Proof.Config
end

