-- ==== Sys2Proof/Machine/Mem.lean ====
section
/-! DEFINITION. Keyed tables, memories in their canonical form, bytes and numbers, and the places of bytes: the DRAM
of a glade by interleaving and placement (R205), the keys DRAM lines are written under (R359), and reading and
writing the bytes at a place. -/

namespace Sys2Proof

variable {α : Type}

/-! ## Tables -/

/-- The value at key `k`. -/
def Table.at? : Table α → Nat → Option α
  | [], _ => none
  | (i, v) :: t, k => if i = k then some v else Table.at? t k

/-- The table with `v` at key `k`; rising keys stay rising. -/
def Table.put : Table α → Nat → α → Table α
  | [], k, v => [(k, v)]
  | (i, w) :: t, k, v =>
    if k < i then (k, v) :: (i, w) :: t
    else if i = k then (k, v) :: t
    else (i, w) :: Table.put t k v

/-- The table without key `k`. -/
def Table.drop (t : Table α) (k : Nat) : Table α := t.filter fun e => e.1 ≠ k

/-- The table with `f` applied at key `k`, if `k` is there. -/
def Table.alter (t : Table α) (k : Nat) (f : α → α) : Table α :=
  t.map fun e => if e.1 = k then (e.1, f e.2) else e

/-- The table with `f` applied to every value. -/
def Table.mapVals (t : Table α) (f : α → α) : Table α := t.map fun e => (e.1, f e.2)

namespace Machine

/-! ## Memories -/

/-- What an address that the memory does not list reads as (log 4): zero. -/
def unlisted : Byte := 0

/-- The byte at an address. -/
def Memory.read : Memory → Nat → Byte
  | [], _ => unlisted
  | (i, b) :: m, a => if i = a then b else Memory.read m a

/-- The memory with byte `b` at address `a`, in canonical form. -/
def Memory.write : Memory → Nat → Byte → Memory
  | [], a, b => if b = unlisted then [] else [(a, b)]
  | (i, c) :: m, a, b =>
    if a < i then (if b = unlisted then (i, c) :: m else (a, b) :: (i, c) :: m)
    else if i = a then (if b = unlisted then m else (a, b) :: m)
    else (i, c) :: Memory.write m a b

/-- Every listed address lies above `a`. -/
def Memory.above (a : Nat) : Memory → Bool
  | [] => true
  | (i, _) :: _ => decide (a < i)

/-- The canonical form: addresses strictly rising, and no entry equal to what an unlisted address reads as. -/
def Memory.wf : Memory → Bool
  | [] => true
  | (i, b) :: m => decide (b ≠ unlisted) && Memory.above i m && Memory.wf m

/-- `n` bytes from address `a` on. -/
def Memory.readN (m : Memory) (a : Nat) : Nat → List Byte
  | 0 => []
  | n + 1 => m.read a :: Memory.readN m (a + 1) n

/-- The bytes written from address `a` on. -/
def Memory.writeN (m : Memory) (a : Nat) : List Byte → Memory
  | [] => m
  | b :: bs => Memory.writeN (m.write a b) (a + 1) bs

/-- The memory with nothing listed where `p` holds: those bytes read as zero. -/
def Memory.clear (m : Memory) (p : Nat → Bool) : Memory := m.filter fun e => !p e.1

/-! ## Bytes and numbers, little-endian -/

/-- The number that bytes spell, the first the least significant. -/
def fromBytes : List Byte → Nat
  | [] => 0
  | b :: bs => b.toNat + 256 * fromBytes bs

/-- The `n` low bytes of a number. -/
def toBytes (v : Nat) : Nat → List Byte
  | 0 => []
  | n + 1 => BitVec.ofNat 8 v :: toBytes (v / 256) n

/-- Bits [hi:lo] of a number. -/
def bitsOf (v hi lo : Nat) : Nat := v / 2 ^ lo % 2 ^ (hi + 1 - lo)

/-- Bytes `o` to `o + n - 1` of a byte string as a number. -/
def fieldOf (bs : List Byte) (o n : Nat) : Nat := fromBytes ((bs.drop o).take n)

/-- A signed reading of the low `n` bits of a number. -/
def signed (v n : Nat) : Int :=
  if v % 2 ^ n < 2 ^ (n - 1) then (v % 2 ^ n : Nat) else (v % 2 ^ n : Nat) - (2 ^ n : Nat)

/-- A number read modulo 2^n. -/
def wrap (v : Int) (n : Nat) : Nat := (v % (2 ^ n : Nat)).toNat

/-- `l` with the bytes `bs` in place of those from `o` on. -/
def overlay (l : List Byte) (o : Nat) (bs : List Byte) : List Byte :=
  l.take o ++ bs.take (l.length - o) ++ l.drop (o + bs.length)

/-- The lanes of a mask below `w`, ascending. -/
def lanesOf (w : Nat) (m : Mask) : List Nat := (List.range w).filter fun i => m.getLsbD i

/-- The mask of the lanes of a list. -/
def maskOf (l : List Nat) : Mask := l.foldl (fun m i => m ||| BitVec.ofNat 64 (2 ^ i)) 0

/-- Bits at the width and above read as zero (R39). -/
def widthMask (w : Nat) (m : Mask) : Mask := m &&& BitVec.ofNat 64 (2 ^ w - 1)

/-! ## Places -/

/-- The place `k` bytes further on. -/
def Place.plus : Place → Nat → Place
  | .dram s o, k => .dram s (o + k)
  | .host p h a, k => .host p h (a + k)
  | .scratch g o, k => .scratch g (o + k)
  | .regs g o, k => .regs g (o + k)
  | .vault d v o, k => .vault d v (o + k)

/-- A place of a global line. -/
def Place.isGlobal : Place → Bool
  | .dram _ _ | .host _ _ _ => true
  | .scratch _ _ | .regs _ _ | .vault _ _ _ => false

/-- Address of the place within its storage. -/
def Place.offset : Place → Nat
  | .dram _ o | .host _ _ o | .scratch _ o | .regs _ o | .vault _ _ o => o

/-- The place of the first byte of the aligned block of `n` bytes around it. -/
def Place.align (n : Nat) : Place → Place
  | .dram s o => .dram s (o / n * n)
  | .host p h a => .host p h (a / n * n)
  | .scratch g o => .scratch g (o / n * n)
  | .regs g o => .regs g (o / n * n)
  | .vault d v o => .vault d v (o / n * n)

/-- The 128-byte line of a place (R203), and its 32-byte sector. -/
def Place.line (p : Place) : Place := p.align 128
def Place.sector (p : Place) : Place := p.align 32

/-- Two places lie in one storage. -/
def Place.sameStore : Place → Place → Bool
  | .dram s _, .dram t _ => s == t
  | .host p _ _, .host q _ _ => p == q
  | .scratch g _, .scratch h _ => g == h
  | .regs g _, .regs h _ => g == h
  | .vault d v _, .vault e w _ => d == e && v == w
  | .dram _ _, _ | .host _ _ _, _ | .scratch _ _, _ | .regs _ _, _ | .vault _ _ _, _ => false

/-- `n` bytes at `p` and `m` bytes at `q` have a byte in common. -/
def Place.meets (p : Place) (n : Nat) (q : Place) (m : Nat) : Bool :=
  p.sameStore q && decide (p.offset < q.offset + m) && decide (q.offset < p.offset + n)

/-- Bytes of a slice's channel group: 48 GiB (R205). -/
def sliceBytes : Nat := 48 * 2 ^ 30

/-- Bytes of a vault: 8 MiB (R199). -/
def vaultBytes : Nat := 8 * 2 ^ 20

/-- The key of a place in its memory: DRAM, host memories or vaults. -/
def Place.key : Place → Nat
  | .dram s o => s * sliceBytes + o
  | .host p _ a => p * 2 ^ 56 + a
  | .scratch _ o | .regs _ o => o
  | .vault d v o => (d * 72 + v) * vaultBytes + o

/-- The key of a global line in `State.lines`, none for a place without times (R201). -/
def Place.lineKey : Place → Option Nat
  | .dram s o => some ((s * sliceBytes + o) / 128)
  | .host p h a => some (2 ^ 64 * (p + 1) + 2 ^ 56 * h + a / 128)
  | .scratch _ _ | .regs _ _ | .vault _ _ _ => none

/-- The key of a sector in `State.poison`: each storage has a range of its own. -/
def Place.sectorKey : Place → Nat
  | .dram s o => (s * sliceBytes + o) / 32
  | .host p _ a => 2 ^ 64 * (p + 1) + a / 32
  | .scratch g o => 2 ^ 64 * (8 + 2 * g) + o / 32
  | .regs g o => 2 ^ 64 * (9 + 2 * g) + o / 32
  | .vault d v o => 2 ^ 64 * 6 + ((d * 72 + v) * vaultBytes + o) / 32

/-- The source code of the storage that a place lies in (R311). -/
def Place.source : Place → Nat
  | .dram _ _ => 3
  | .host _ _ _ => 6
  | .scratch _ _ | .regs _ _ | .vault _ _ _ => 0

/-! ## Device memory of a glade (R205) -/

/-- Bytes of device memory of a glade of `n` slices. -/
def gladeBytes (n : Nat) : Nat := n * sliceBytes

/-- The DRAM place of a physical address of the glade that starts at slice `first` with `n` slices and share `b`. -/
def dramOf (first n b pa : Nat) : Place :=
  let B := n * b * 2 ^ 30
  if pa < B then
    let j := pa / 4096
    .dram (first + j % n) (j / n * 4096 + pa % 4096)
  else
    let part := (48 - b) * 2 ^ 30
    let q := (pa - B) / part
    .dram (first + q) (b * 2 ^ 30 + ((pa - B) - q * part))

/-- The physical address of byte `off` of slice `slice` of the glade: the inverse of `dramOf`. -/
def physOf (first n b slice off : Nat) : Nat :=
  if off < b * 2 ^ 30 then (off / 4096 * n + (slice - first)) * 4096 + off % 4096
  else n * b * 2 ^ 30 + (slice - first) * ((48 - b) * 2 ^ 30) + (off - b * 2 ^ 30)

/-- The home slice of a host-backed address (R204). -/
def hostHome (first n addr : Nat) : Nat := first + addr / 4096 % n

/-- The die of a slice (R205, R328). -/
def dieOf (slice : Nat) : Nat := slice / 3

/-! ## The package's parts by number -/

/-- The slice of a package core (R328). -/
def coreSlice (core : Nat) : Nat := core / 24

/-- The vault index above a package core (R199). -/
def vaultOfCore (core : Nat) : Nat := core / 24 % 3 * 24 + core % 24

def State.groupAt (s : State) (gid : Nat) : Option Group := s.groups.at? gid
def State.launchAt (s : State) (k : Nat) : Launch := (s.launches.at? k).getD default
def State.groveAt (s : State) (k : Nat) : Grove := (s.groves.at? k).getD default
def State.contextAt (s : State) (c : Nat) : Context := (s.contexts.at? c).getD default
def State.gladeAt (s : State) (g : Nat) : Glade := (s.glades.at? g).getD default
def State.coreAt (s : State) (c : Nat) : Core := (s.cores.at? c).getD Core.reset
def State.sliceAt (s : State) (c : Nat) : Slice := (s.slices.at? c).getD Slice.reset
def State.channelAt (s : State) (c : Nat) : Channel := (s.channels.at? c).getD Channel.reset
def State.portAt (s : State) (p : Nat) : Port := (s.ports.at? p).getD Port.reset
def State.pageAt (s : State) (vf page : Nat) : CtxPage := (s.pages.at? (4 * vf + page)).getD CtxPage.reset
def State.vfAt (s : State) (vf : Nat) : Vf := (s.vfs.at? vf).getD Vf.reset
def State.linkAt (s : State) (l : Nat) : Link := (s.links.at? l).getD Link.reset

def State.setGroup (s : State) (gid : Nat) (g : Group) : State := { s with groups := s.groups.put gid g }
def State.setContext (s : State) (c : Nat) (x : Context) : State := { s with contexts := s.contexts.put c x }
def State.setChannel (s : State) (c : Nat) (x : Channel) : State := { s with channels := s.channels.put c x }
def State.setLaunch (s : State) (k : Nat) (x : Launch) : State := { s with launches := s.launches.put k x }
def State.setGrove (s : State) (k : Nat) (x : Grove) : State := { s with groves := s.groves.put k x }
def State.setGlade (s : State) (k : Nat) (x : Glade) : State := { s with glades := s.glades.put k x }
def State.setCore (s : State) (k : Nat) (x : Core) : State := { s with cores := s.cores.put k x }
def State.setSlice (s : State) (k : Nat) (x : Slice) : State := { s with slices := s.slices.put k x }
def State.setPort (s : State) (k : Nat) (x : Port) : State := { s with ports := s.ports.put k x }
def State.setPage (s : State) (vf page : Nat) (x : CtxPage) : State := { s with pages := s.pages.put (4 * vf + page) x }
def State.setVf (s : State) (k : Nat) (x : Vf) : State := { s with vfs := s.vfs.put k x }
def State.setLink (s : State) (k : Nat) (x : Link) : State := { s with links := s.links.put k x }

/-- The slices of the glade that slice `slice` lies in: first slice and length. -/
def State.gladeOfSlice (s : State) (slice : Nat) : Option Nat :=
  (s.glades.find? fun e => decide (e.1 ≤ slice) && decide (slice < e.1 + e.2.len)).map (·.1)

/-- The DRAM place of a physical address of a glade. -/
def State.dramPlace (s : State) (glade pa : Nat) : Place :=
  dramOf glade (s.gladeAt glade).len (s.gladeAt glade).shareB pa

/-! ## Keys of DRAM lines (R358, R359) -/

/-- The number of the key a context reads and writes DRAM under; 0 for a context that holds none. -/
def State.keyOf (s : State) (ctx : Nat) : Nat := (s.ctxKeys.at? ctx).getD 0

/-- A byte of a slice lies in one of a glade's frames. -/
def inFrames (first n b : Nat) (frames : List (Nat × Nat)) (slice off : Nat) : Bool :=
  decide (first ≤ slice) && decide (slice < first + n) &&
    let pa := physOf first n b slice off
    frames.any fun f => decide (f.1 ≤ pa) && decide (pa < f.1 + f.2)

/-- The frames of a zeroing hold byte `off` of a slice. -/
def Zeroing.holds (z : Zeroing) (slice off : Nat) : Bool := inFrames z.first z.len z.shareB z.frames slice off

/-- The key that the line of a DRAM byte was last written under (R359): as `keys` lists it, else that of the latest
zeroing of it; 0 for what a start zeroed, no key being held then. -/
def State.writtenKey (s : State) (slice off : Nat) : Nat :=
  match s.keys.at? ((slice * sliceBytes + off) / 128) with
  | some k => k
  | none => ((s.zeroed.find? fun z => z.holds slice (off / 128 * 128)).map (·.key)).getD 0

/-- What a reader under another key finds in a 16-byte block of the cipher: free values, which as a block are not its plaintext (R359). -/
def wrongBlock (written reader line block : Nat) (plain : List Byte) : List Byte :=
  let found := (List.range 16).map (Config.wrongKey written reader line block plain)
  if found = plain then (found.headD 0 + 1) :: found.tail else found

/-- What a reader under key `key` finds in a DRAM byte: its value when the line was last written under that key or
by a start's zeroing (key 0), else a byte of what its block comes to under the wrong key. -/
def State.plain (s : State) (key slice off : Nat) : Byte :=
  let a := slice * sliceBytes + off
  let written := s.writtenKey slice off
  if written = 0 ∨ written = key then s.dram.read a
  else
    let block := (List.range 16).map fun i => s.dram.read (slice * sliceBytes + off / 16 * 16 + i)
    (wrongBlock written key (a / 128) (off % 128 / 16) block).getD (off % 16) 0

/-- The line of DRAM address `a` brought under key `key`: its bytes become what that key's holder reads. -/
def State.rekey (s : State) (key slice off : Nat) : State :=
  let a := slice * sliceBytes + off
  let written := s.writtenKey slice off
  if written = key then s
  else if written = 0 then { s with keys := s.keys.put (a / 128) key }
  else
    let base := off / 128 * 128
    let bytes := (List.range 128).map fun i => s.plain key slice (base + i)
    { s with dram := s.dram.writeN (slice * sliceBytes + base) bytes, keys := s.keys.put (a / 128) key }

/-! ## The bytes at a place -/

/-- Byte `off` of the register file of a group: register p, lane i lie at (p × W + i) × 4 (R35). -/
def Group.regByte (g : Group) (off : Nat) : Byte :=
  let p := off / 4 / g.width
  let i := off / 4 % g.width
  (((g.vregs.at? (64 * p + i)).getD 0 : Lane) >>> (8 * (off % 4))).setWidth 8

/-- The register file with one byte written. -/
def Group.setRegByte (g : Group) (off : Nat) (b : Byte) : Group :=
  let p := off / 4 / g.width
  let i := off / 4 % g.width
  let old : Lane := (g.vregs.at? (64 * p + i)).getD 0
  let sh := 8 * (off % 4)
  let new : Lane := (old &&& ~~~((0xFF : Lane) <<< sh)) ||| ((b.setWidth 32 : Lane) <<< sh)
  { g with vregs := g.vregs.put (64 * p + i) new }

/-- The byte at a place, as its home holds it, read under a key. -/
def State.byteAt (s : State) (key : Nat) : Place → Byte
  | .dram sl o => s.plain key sl o
  | .host p _ a => s.hostMem.read (p * 2 ^ 56 + a)
  | .scratch g o => (s.groveAt g).scratch.read o
  | .regs gid o => ((s.groupAt gid).getD default).regByte o
  | .vault d v o => s.vaultMem.read ((d * 72 + v) * vaultBytes + o)

/-- A byte carries the mark of an uncorrectable error (R302, R382). -/
def State.badByte (s : State) (p : Place) : Bool := Nat.testBit ((s.poison.at? p.sectorKey).getD 0) (p.offset % 32)

/-- The marks of a sector replaced; a sector without marks is not listed. -/
def State.setBad (s : State) (p : Place) (m : Nat) : State :=
  { s with poison := if m = 0 then s.poison.drop p.sectorKey else s.poison.put p.sectorKey m }

/-- A byte marked. -/
def State.markBad (s : State) (p : Place) : State :=
  s.setBad p (Nat.lor ((s.poison.at? p.sectorKey).getD 0) (2 ^ (p.offset % 32)))

/-- A byte's mark removed. -/
def State.clearBad (s : State) (p : Place) : State :=
  if s.badByte p then s.setBad p ((s.poison.at? p.sectorKey).getD 0 - 2 ^ (p.offset % 32)) else s

/-- The state with one byte written at its home, under a key. -/
def State.storeByte (s : State) (key : Nat) (p : Place) (b : Byte) : State :=
  match p with
  | .dram sl o =>
    let s := s.rekey key sl o
    { s with dram := s.dram.write (sl * sliceBytes + o) b }
  | .host q _ a => { s with hostMem := s.hostMem.write (q * 2 ^ 56 + a) b }
  | .scratch g o => { s with groves := s.groves.alter g fun x => { x with scratch := x.scratch.write o b } }
  | .regs gid o => { s with groups := s.groups.alter gid fun x => x.setRegByte o b }
  | .vault d v o => { s with vaultMem := s.vaultMem.write ((d * 72 + v) * vaultBytes + o) b }

/-- One byte written at its home: what is written over an error is good (log 76). -/
def State.putByte (s : State) (key : Nat) (p : Place) (b : Byte) : State := (s.clearBad p).storeByte key p b

/-- `n` bytes from a place on. -/
def State.bytesAt (s : State) (key : Nat) (p : Place) (n : Nat) : List Byte :=
  (List.range n).map fun i => s.byteAt key (p.plus i)

/-- The state with bytes written from a place on. -/
def State.putBytes (s : State) (key : Nat) (p : Place) : List Byte → State
  | [] => s
  | b :: bs => State.putBytes (s.putByte key p b) key (p.plus 1) bs

/-! ## Poison (R302, R382) -/

/-- A byte of the `n` bytes from a place on is poisoned. -/
def State.isPoisoned (s : State) (p : Place) (n : Nat) : Bool := (List.range n).any fun i => s.badByte (p.plus i)

/-- The poisoned ones of the `n` bytes from a place on, one bit each. -/
def State.badMask (s : State) (p : Place) (n : Nat) : Nat :=
  (List.range n).foldl (fun m i => if s.badByte (p.plus i) then m + 2 ^ i else m) 0

/-- Every byte of a place's sector marked. -/
def State.setPoison (s : State) (p : Place) : State := s.setBad p (2 ^ 32 - 1)

/-- Those of the bytes from a place on marked that `bad` says. -/
def State.markBytes (s : State) (p : Place) (bad : List Bool) : State :=
  bad.zipIdx.foldl (fun (s : State) e => if e.1 then s.markBad (p.plus e.2) else s) s

/-! ## A fresh issue number -/

def State.fresh (s : State) : State := { s with nextId := s.nextId + 1 }

/-- A fresh draw of the random source. -/
def State.draw (s : State) : State := { s with draws := s.draws + 1 }

end Machine

end Sys2Proof
end

