-- ==== Sys2Proof/Machine/Operands.lean ====
section
/-! DEFINITION. Every operand form: what a register field reads as (R32 to R39), pairs and quads (R34), the registers
a field stands for, immediate operands (R52), and the addresses of the memory forms (R77). -/

namespace Sys2Proof.Machine

/-! ## Registers of a group -/

/-- Physical vector register p, lane i. -/
def Group.vlane (g : Group) (p i : Nat) : Lane := (g.vregs.at? (64 * p + i)).getD 0

/-- Scalar k. -/
def Group.scalar (g : Group) (k : Nat) : Scalar := (g.sregs.at? k).getD 0

/-- The plane of a lane. -/
def Group.planeOf (g : Group) (i : Nat) : Nat := (g.pl.at? i).getD 0

/-- A vector lane written now. -/
def Group.setLane (g : Group) (p i : Nat) (v : Lane) : Group := { g with vregs := g.vregs.put (64 * p + i) v }

/-- A scalar written now. -/
def Group.setScalar (g : Group) (k : Nat) (v : Scalar) : Group := { g with sregs := g.sregs.put k v }

/-! ## Source fields

Each source field of a word is read by itself (R47): one that was read early keeps the value of that moment. -/

/-- The value that a source field read early of the register of a key. -/
def Group.earlyOf (g : Group) (f : Src) (key : Nat) : Option EarlyRead := g.early.find? fun e => decide (e.src = f) && decide (e.key = key)

/-- Physical vector register p, lane i, as a source field reads it. -/
def Group.vlaneOf (g : Group) (f : Src) (p i : Nat) : Lane :=
  match g.earlyOf f p with
  | some e => (e.lanes.at? i).getD 0
  | none => g.vlane p i

/-- Scalar k, as a source field reads it. -/
def Group.scalarOf (g : Group) (f : Src) (k : Nat) : Scalar :=
  match g.earlyOf f (1024 + k) with
  | some e => e.scal
  | none => g.scalar k

/-- Lane i of member k of a vector field: register WINB + n + k, or a special register (R33, R34, R37). -/
def Group.srcVk (g : Group) (f : Src) (r : Reg) (k i : Nat) : Lane :=
  match r with
  | .v n => g.vlaneOf f (g.winb + n.val + k) i
  | .lane => BitVec.ofNat 32 i
  | .plane => BitVec.ofNat 32 (g.planeOf i)
  | .nul | .s _ | .xm | .cm | .gix | .grx | .clk => 0

/-- Lane i of a vector field. -/
def Group.srcV (g : Group) (f : Src) (r : Reg) (i : Nat) : Lane := g.srcVk f r 0 i

/-- Lane i of a vector pair, low register first. -/
def Group.srcV2 (g : Group) (f : Src) (r : Reg) (i : Nat) : BitVec 64 := g.srcVk f r 1 i ++ g.srcVk f r 0 i

/-- Member k of a scalar field or pair (R34, R36, R37). -/
def Group.srcSk (g : Group) (f : Src) (r : Reg) (k : Nat) : Scalar :=
  match r with
  | .s n => g.scalarOf f (n.val + k)
  | .xm => g.xm
  | .cm => ((g.earlyOf f 2048).map (·.scal)).getD g.cm
  | .gix => BitVec.ofNat 64 g.gix
  | .grx => BitVec.ofNat 64 g.grx
  | .clk => BitVec.ofNat 64 g.clk
  | .nul | .v _ | .lane | .plane => 0

/-- A scalar field. -/
def Group.srcS (g : Group) (f : Src) (r : Reg) : Scalar := g.srcSk f r 0

/-- A register's value now, as an early read of a source field keeps it. -/
def Group.readEarly (g : Group) (f : Src) (key : Nat) : EarlyRead :=
  { src := f, key := key,
    lanes := if key < 1024 then (List.range g.width).map fun i => (i, g.vlane key i) else [],
    scal := if key < 1024 then 0 else if key = 2048 then g.cm else g.scalar (key - 1024) }

/-- The source read early, if the group is about to issue a word and no word is at issue: once for each field and register. -/
def Group.withEarly (g : Group) (f : Src) (key : Nat) : Group :=
  if g.wait = .none ∧ g.held = none ∧ (g.earlyOf f key).isNone then { g with early := g.readEarly f key :: g.early } else g

/-! ## Destination fields -/

/-- What a destination field of `n` registers names. -/
def Group.dest (g : Group) (r : Reg) (n : Nat) : Dest :=
  match r with
  | .v m => .vec (g.winb + m.val) n
  | .s m => .scal m.val n
  | .cm => .cm
  | .nul | .lane | .plane | .xm | .gix | .grx | .clk => .nul

/-- The keys in `Group.gens` of the registers of a destination (R48). -/
def Dest.keys : Dest → List Nat
  | .vec p n => (List.range n).map (p + ·)
  | .scal k n => (List.range n).map (1024 + k + ·)
  | .cm => [2048]
  | .nul => []

/-! ## The registers a field stands for (R33) -/

/-- First field value and count of the vector registers that a field names. -/
def fieldVectors : Operand → List (Nat × Nat)
  | .reg k (.v n) => match k with
    | .vd | .vs => [(n.val, 1)]
    | .v2d | .v2s => [(n.val, 2)]
    | .v4d | .v4s => [(n.val, 4)]
    | .acc => [(n.val, 34)]
    | .vr | .sd | .ss | .s2d | .s2s => []
  | .reg _ _ | .plane _ | .barrier _ | .window _ | .ctl _ | .pair _ | .format _ _ => []

/-- The vector registers that R33 checks for an instruction: every register it names, the range a `region` saves, the
32 accumulators of an `mzero` (R260). -/
def wordVectors (i : Instr) : List (Nat × Nat) :=
  match i with
  | .mzero (.v n) => [(n.val, 32)]
  | .region (.v a) (.v b) => if a.val ≤ b.val then [(a.val, b.val - a.val + 1)] else []
  | i => (i.operands.map fieldVectors).flatten

/-- The destination fields of an instruction and how many registers each names. -/
def fieldWritten : Operand → List (Reg × Nat)
  | .reg k r => match k with
    | .sd | .vd => [(r, 1)]
    | .s2d | .v2d => [(r, 2)]
    | .v4d => [(r, 4)]
    | .ss | .s2s | .vs | .v2s | .v4s | .acc | .vr => []
  | .plane _ | .barrier _ | .window _ | .ctl _ | .pair _ | .format _ _ => []

/-- The destinations of an instruction. -/
def wordDests (i : Instr) (g : Group) : List Dest :=
  ((i.operands.map fieldWritten).flatten).map fun (r, n) => g.dest r n

/-! ## Immediate operands (R52) -/

/-- imm10, sign-extended. -/
def sext10 (imm : BitVec 10) : Scalar := imm.signExtend 64

/-- imm17, sign-extended. -/
def sext17 (imm : BitVec 17) : Scalar := imm.signExtend 64

/-! ## Addresses (R77) -/

/-- Register offset, vector: S[a] + zext(V[b][i]). -/
def Group.addrV (g : Group) (a b : Reg) (i : Nat) : Scalar := g.srcS .a a + (g.srcV .b b i).zeroExtend 64

/-- Register offset, scalar: S[a] + S[b]. -/
def Group.addrS (g : Group) (a b : Reg) : Scalar := g.srcS .a a + g.srcS .b b

/-- Immediate offset, vector: the pair at a plus imm10 times the size. -/
def Group.addrVo (g : Group) (a : Reg) (imm : BitVec 10) (size i : Nat) : Scalar :=
  g.srcV2 .a a i + sext10 imm * BitVec.ofNat 64 size

/-- Immediate offset, scalar: S[a] plus imm10 times the size. -/
def Group.addrSo (g : Group) (a : Reg) (imm : BitVec 10) (size : Nat) : Scalar :=
  g.srcS .a a + sext10 imm * BitVec.ofNat 64 size

end Sys2Proof.Machine
end

