-- ==== Sys2Proof/Machine/Coherence.lean ====
section
/-! DEFINITION. Logical time at the homes and in the copies: tracking a line (R212), renewals and lease hits (R214 to
R217), the operations performed at a home (R218, R228, R241, R271), and the order of a group's own accesses
(R82, R201). -/

namespace Sys2Proof.Machine

/-! ## Logical time (R237) -/

/-- The high-water mark: the greatest of every clock, time and FLOOR of the package (R237). -/
def State.highWater (s : State) : Nat :=
  let a := s.groups.foldl (fun m e => max m e.2.clk) 0
  let b := s.lines.foldl (fun m e => max m (max e.2.w e.2.l)) a
  let c := s.slices.foldl (fun m e => max m e.2.floor) b
  s.channels.foldl (fun m e => max m e.2.cc) c

/-- The high-water mark asks for a rebase: no group issues until it is done. -/
def State.rebaseDue (s : State) : Bool := decide (2 ^ 47 ≤ s.highWater)

/-! ## Lines at their homes (R212) -/

/-- The home slice of a place (R204). -/
def homeSlice : Place → Nat
  | .dram sl _ => sl
  | .host _ h _ => h
  | .scratch _ _ | .regs _ _ | .vault _ _ _ => 0

/-- The times of a line at its home: those it is tracked with, or FLOOR twice for a line the home begins to track. -/
def State.lineOf (s : State) (p : Place) : Line :=
  match p.lineKey with
  | none => default
  | some k => (s.lines.at? k).getD
      { w := (s.sliceAt (homeSlice p)).floor, l := (s.sliceAt (homeSlice p)).floor,
        present := 0, shared := 0, owned := false, dirty := false, backing := [], backBad := 0 }

/-- The home holds the line tracked with these times. -/
def State.setLine (s : State) (p : Place) (x : Line) : State :=
  match p.lineKey with
  | none => s
  | some k => { s with lines := s.lines.put k x }

/-- A line about to be written at its home: dirty, and the bytes that a host's own memory keeps for it, with their marks. -/
def State.dirtied (s : State) (p : Place) (x : Line) : Line :=
  match p with
  | .host _ _ _ =>
    if x.dirty then x else { x with dirty := true, backing := s.bytesAt 0 p.line 128, backBad := s.badMask p.line 128 }
  | .dram _ _ | .scratch _ _ | .regs _ _ | .vault _ _ _ => { x with dirty := true }

/-- The host's own memory stands for a line that a home held dirty: its bytes, and which of them are poisoned. -/
def State.restoreLine (s : State) (port addr : Nat) (x : Line) : State :=
  let s := { s with hostMem := s.hostMem.writeN (port * 2 ^ 56 + addr) x.backing }
  (List.range 4).foldl (fun (s : State) i => s.setBad (.host port 0 (addr + 32 * i)) (x.backBad / 2 ^ (32 * i) % 2 ^ 32)) s

/-- Every line tracked is dropped, and what its home alone held of it is lost (R370, R377). -/
def State.dropLines (s : State) : State :=
  { s.lines.foldl (fun (s : State) e =>
      if 2 ^ 64 ≤ e.1 ∧ e.2.dirty then s.restoreLine (e.1 / 2 ^ 64 - 1) (e.1 % 2 ^ 56 * 128) e.2 else s) s with lines := [] }

/-- Home `h` stops tracking the line of a key, which leaves its L3: FLOOR rises past its lease (R212). -/
def State.untrackKey (s : State) (h k : Nat) : State :=
  match s.lines.at? k with
  | none => s
  | some x =>
    let sl := s.sliceAt h
    { s with lines := s.lines.drop k,
             slices := s.slices.put h { sl with floor := max sl.floor (x.l + 1), l3 := sl.l3.filter fun e => decide (e.1 ≠ k) } }

/-- The home stops tracking a line (R212). -/
def State.untrack (s : State) (p : Place) : State :=
  match p.lineKey with
  | none => s
  | some k => s.untrackKey (homeSlice p) k

/-- The home's L3 holds the line for the context: a lookup hits only a line with the looker's own tag (R207). -/
def State.holds (s : State) (ctx : Nat) (p : Place) : Bool :=
  p.lineKey.any fun k => (s.sliceAt (homeSlice p)).l3.contains (k, ctx)

/-- The home's L3 holds the line, under whatever tag. -/
def State.onChip (s : State) (p : Place) : Bool :=
  p.lineKey.any fun k => (s.sliceAt (homeSlice p)).l3.any fun e => e.1 == k

/-- The source code of the unit where a place's bytes lie at its home: the L3, if it holds the line, else their storage (R311). -/
def State.sourceOf (s : State) (p : Place) : Nat := if s.onChip p then 2 else p.source

/-- The home may read the line for a context: of device memory, one that no host may hold newer (R239); of a host's, one that it
holds under the context's tag (R207, R242).  A device line that misses comes from DRAM, which changes no byte. -/
def State.homeHas (s : State) (ctx : Nat) (p : Place) : Bool :=
  match p with
  | .host _ _ _ => s.holds ctx p
  | .dram _ _ => (s.lineOf p).present &&& ~~~(s.lineOf p).shared == 0
  | .scratch _ _ | .regs _ _ | .vault _ _ _ => true

/-- The home may perform a device store, atomic, reduction or stream application on the line for a context: no host holds a copy
(R239), and a host-backed line is held and owned (R242). -/
def State.homeOwns (s : State) (ctx : Nat) (p : Place) : Bool :=
  match p with
  | .host _ _ _ => s.holds ctx p && (s.lineOf p).owned
  | .dram _ _ => (s.lineOf p).present == 0
  | .scratch _ _ | .regs _ _ | .vault _ _ _ => true

/-! ## Asking the hosts (R239, R240, R242) -/

/-- The tag of a line that no context filled: one that a peer wrote or read (log 75). -/
def noTag : Nat := 1024

/-- The ports that a home must ask before it reads (`own` false) or writes the line for a context, and has no right to now. -/
def State.askedPorts (s : State) (ctx : Nat) (p : Place) (own : Bool) : List Nat :=
  match p with
  | .host q _ _ => if (if own then s.homeOwns ctx p else s.homeHas ctx p) then [] else [q]
  | .dram _ _ =>
    let x := s.lineOf p
    let m := if own then x.present else x.present &&& ~~~x.shared
    (List.range 4).filter fun q => m.getLsbD q && !s.conflicts.contains (q, (p.lineKey).getD 0)
  | .scratch _ _ | .regs _ _ | .vault _ _ _ => []

/-- The request of a line for a context: a back-invalidation is made for none. -/
def askOf (ctx : Nat) (p : Place) (own : Bool) (port : Nat) : Ask :=
  { ctx := match p with
      | .host _ _ _ => ctx
      | .dram _ _ | .scratch _ _ | .regs _ _ | .vault _ _ _ => noTag,
    port := port, line := p.line, own := own }

/-- A home that an access finds without the line, or without ownership of it, asks for it: RdShared or RdOwn of a
host-backed line, BISnpData or BISnpInv of a device line; a request that met a host's own waits for that one (R240). -/
def State.ask (s : State) (ctx : Nat) (p : Place) (own : Bool) : State :=
  { s with asks := s.asks ++ ((s.askedPorts ctx p own).map (askOf ctx p own)).filter fun a => !s.asks.contains a }

/-- The requests of several places' homes. -/
def State.askAll (s : State) (ctx : Nat) (ps : List Place) (own : Bool) : State := ps.foldl (fun s p => s.ask ctx p own) s

/-! ## What the L3 and L2 hold (R5, R207, R208) -/

/-- Lines that one slice's L3, or its L2, has room for: 32 MiB (R5). -/
def lineCapacity : Nat := 262144

/-- The entry that gives way to a fill by `ctx` (R208), of a list of entries with their tags, the most recently used
first: the least recently used of the context when it has `limit` or more, else of all. -/
def victim {α : Type} (held : List (α × Nat)) (ctx limit : Nat) : Option (α × Nat) :=
  let own := held.filter fun e => decide (e.2 = ctx)
  match own.getLast? with
  | some v => if limit ≤ own.length then some v else held.getLast?
  | none => held.getLast?

/-- An L3 victim: a dirty line is written back, and its W and L stay at the home until its last lease has expired (R208); a host's
line must be asked for again, and its host still asks the home for it until then (R242, log 75). -/
def State.evictLine (s : State) (k : Nat) : State :=
  { s with lines := s.lines.alter k fun x : Line => { x with dirty := false, owned := x.owned && decide (k < 2 ^ 64) } }

/-- The home's L3 holds the line for a context, as the most recently used one, with a victim if it has no room (R207, R208). -/
def State.holdLine (s : State) (ctx : Nat) (p : Place) : State :=
  match p.lineKey with
  | none => s
  | some k =>
    let h := homeSlice p
    let sl := s.sliceAt h
    let others := sl.l3.filter fun e => decide (e.1 ≠ k)
    let out := if others.length < lineCapacity then none else victim others ctx (s.contextAt ctx).cfg.l3limit
    match out with
    | none => s.setSlice h { sl with l3 := (k, ctx) :: others }
    | some v => (s.setSlice h { sl with l3 := (k, ctx) :: others.filter fun e => decide (e ≠ v) }).evictLine v.1

/-- Bytes of a line written at its home at time `t`, with W := t and L := t. -/
def State.writeAtHome (s : State) (ctx : Nat) (p : Place) (bytes : List Byte) (t : Nat) : State :=
  let s := s.setLine p (s.dirtied p { s.lineOf p with w := t, l := t })
  (s.putBytes (s.keyOf ctx) p bytes).holdLine ctx p

/-- A store performed at a home: t := max(clock, L + 1) (R218, R228, R271); the state and t. -/
def State.storeAtHome (s : State) (ctx : Nat) (p : Place) (bytes : List Byte) (clk : Nat) : State × Nat :=
  let t := max clk ((s.lineOf p).l + 1)
  (s.writeAtHome ctx p bytes t, t)

/-- Masked bytes of one line written at its home, as one moment (R218). -/
def State.storeLine (s : State) (ctx : Nat) (line : Place) (bytes : Table Byte) (clk : Nat) : State × Nat :=
  let x := s.lineOf line
  let t := max clk (x.l + 1)
  let s := s.setLine line (s.dirtied line { x with w := t, l := t })
  let s := bytes.foldl (fun s e => s.putByte (s.keyOf ctx) (line.plus e.1) e.2) s
  (s.holdLine ctx line, t)

/-- A home read for a context that extends the lease: L := max(L, upTo); the state, W and L (R215, R271).  The next renewal of a
line that a host has a copy of asks that host again (R239). -/
def State.renewAtHome (s : State) (ctx : Nat) (p : Place) (upTo : Nat) : State × Nat × Nat :=
  let x := s.lineOf p
  let l := max x.l upTo
  ((s.setLine p { x with l := l, shared := 0 }).holdLine ctx p, x.w, l)

/-! ## Ordinary writes of bytes that may cross lines -/

/-- Split `n` bytes from place `p` on into pieces that lie in one line each: place and byte count. -/
def linePieces (p : Place) (n : Nat) : List (Place × Nat × Nat) :=
  let first := p.offset / 128
  (List.range ((p.offset + n + 127) / 128 - first)).map fun k =>
    let a := max p.offset ((first + k) * 128)
    let e := min (p.offset + n) ((first + k + 1) * 128)
    (p.plus (a - p.offset), a - p.offset, e - a)

/-- Bytes written at their homes, line by line in ascending order, as home writes of clock `clk`; the state and the
greatest time. -/
def State.homeWrite (s : State) (ctx : Nat) (p : Place) (bytes : List Byte) (clk : Nat) : State × Nat :=
  if p.isGlobal then
    (linePieces p bytes.length).foldl
      (fun (s, t) (q, o, n) =>
        let (s, t') := s.storeAtHome ctx q ((bytes.drop o).take n) clk
        (s, max t t')) (s, 0)
  else (s.putBytes 0 p bytes, 0)

/-! ## Copies (R203, R207, R214) -/

/-- A usable copy of a sector for a context at clock `c`. -/
def findCopy (l : List CopyLine) (ctx : Nat) (sector : Place) (c : Nat) : Option CopyLine :=
  l.find? fun x => decide (x.ctx = ctx) && decide (x.sector = sector) && decide (c ≤ x.lc)

/-- The copies with one taken in, in place of the same context's copy of that sector. -/
def takeCopy (l : List CopyLine) (x : CopyLine) : List CopyLine :=
  x :: l.filter fun y => !(decide (y.ctx = x.ctx) && decide (y.sector = x.sector))

/-- The times of a copy can be expressed as 24-bit offsets from a base (R236). -/
def CopyLine.fits (x : CopyLine) (base : Nat) : Bool := decide (base ≤ x.w) && decide (x.lc < base + 2 ^ 24)

/-- The base of a bank that takes a copy: as it is if it serves, else the copy's W (R236, log 75). -/
def CopyLine.baseFrom (x : CopyLine) (base : Nat) : Nat := if x.fits base then base else x.w

/-- The L2 bank of a copy: bits [10:7] of its address (R207). -/
def CopyLine.bank (x : CopyLine) : Nat := x.sector.offset / 128 % 16

/-- The lines whose sectors an L2 holds, with their tags, the most recently used first (R208). -/
def l2Lines (l : List CopyLine) : List (Place × Nat) := (l.map fun x => (x.sector.line, x.ctx)).eraseDups

/-- An L2 with a copy taken in: without room for its line, that of the victim's line goes (R208). -/
def takeL2 (l : List CopyLine) (x : CopyLine) (limit : Nat) : List CopyLine :=
  let l := takeCopy l x
  if l.length ≤ lineCapacity then l
  else
    let held := l2Lines l
    if held.length ≤ lineCapacity then l
    else match victim (held.drop 1) x.ctx limit with
      | none => l
      | some v => l.filter fun y => !(decide (y.sector.line = v.1) && decide (y.ctx = v.2))

/-- Sectors that the L1 of a context's L1 size holds (R138, R203): the earliest filled gives way (log 75). -/
def l1Sectors (code : Nat) : Nat := 1024 * 2 ^ code

/-- A copy taken into a slice's L2; those of its bank that the base no longer serves go (R214, R236). -/
def Slice.takeCopy (sl : Slice) (x : CopyLine) (limit : Nat) : Slice :=
  let base := x.baseFrom ((sl.l2Bases.at? x.bank).getD 0)
  { sl with l2 := takeL2 (sl.l2.filter fun y => decide (y.bank ≠ x.bank) || y.fits base) x limit, l2Bases := sl.l2Bases.put x.bank base }

/-- A copy taken into a core's L1, whose base serves every copy in it (R214, R236). -/
def Core.takeCopy (co : Core) (x : CopyLine) (code : Nat) : Core :=
  let base := x.baseFrom co.l1Base
  { co with l1 := (Machine.takeCopy (co.l1.filter fun y => y.fits base) x).take (l1Sectors code), l1Base := base }

/-- A copy taken into a slice's L2 and a core's L1, unless no base serves its times (R214, R236). -/
def State.keepCopy (s : State) (core : Nat) (x : CopyLine) : State :=
  if x.fits x.w then
    let cfg := (s.contextAt x.ctx).cfg
    let s := s.setSlice (coreSlice core) ((s.sliceAt (coreSlice core)).takeCopy x cfg.l2limit)
    s.setCore core ((s.coreAt core).takeCopy x cfg.l1)
  else s

/-- A context's copies dropped everywhere. -/
def State.dropCopies (s : State) (p : CopyLine → Bool) : State :=
  { s with cores := s.cores.mapVals (fun c => { c with l1 := c.l1.filter (fun x => !p x) }),
           slices := s.slices.mapVals (fun c => { c with l2 := c.l2.filter (fun x => !p x) }) }

/-- What a lane's read gives: bytes, W, whether it was a lease hit, and the source code of the unit where its poison lay, if a
byte is poisoned (R311). -/
structure LaneRead where
  bytes : List Byte
  w : Nat
  hit : Bool
  poison : Option Nat
  deriving DecidableEq, Repr, Inhabited

/-- A sector renewed at its home and filled into the slice's L2 and the core's L1 (R209, R215). -/
def State.fillCopy (s : State) (ctx core c lease : Nat) (p : Place) : State × CopyLine :=
  let (s, w, l) := s.renewAtHome ctx p (c + lease)
  let x : CopyLine :=
    { ctx := ctx, sector := p.sector, w := w, lc := l,
      data := s.bytesAt (s.keyOf ctx) p.sector 32, bad := (s.poison.at? p.sector.sectorKey).getD 0 }
  (s.keepCopy core x, x)

/-- What a copy gives of `n` bytes from byte `o` of its sector on: `source` is the unit where its bytes lie. -/
def CopyLine.give (x : CopyLine) (o n : Nat) (hit : Bool) (source : Nat) : LaneRead :=
  { bytes := (x.data.drop o).take n, w := x.w, hit := hit, poison := if x.bad / 2 ^ o % 2 ^ n ≠ 0 then some source else none }

/-- The lane's read of `n` bytes at a global place at clock `c` (R215): from the L1, from the L2, or by renewal. -/
def State.readCopy (s : State) (ctx core c lease : Nat) (p : Place) (n : Nat) : State × LaneRead :=
  let sector := p.sector
  let o := p.offset - sector.offset
  match findCopy (s.coreAt core).l1 ctx sector c with
  | some x => (s, x.give o n true 0)
  | none =>
    match findCopy (s.sliceAt (coreSlice core)).l2 ctx sector c with
    | some x => (s.keepCopy core x, x.give o n true 1)
    | none =>
      let (t, x) := s.fillCopy ctx core c lease p
      (t, x.give o n false (s.sourceOf p))

/-- The lane's read at the home, bypassing every copy (R217). -/
def State.readHome (s : State) (ctx c lease : Nat) (p : Place) (n : Nat) : State × LaneRead :=
  let (t, w, _) := s.renewAtHome ctx p (c + lease)
  (t, { bytes := t.bytesAt (t.keyOf ctx) p n, w := w, hit := false, poison := if s.isPoisoned p n then some (s.sourceOf p) else none })

/-! ## The order of a group's own accesses (R82, R201, R217) -/

/-- An atomic of the group, issued before `seq`, still has a lane on these bytes to perform. -/
def State.atomBefore (s : State) (gid seq : Nat) (p : Place) (n : Nat) : Bool :=
  s.atoms.any fun a => decide (a.gid = gid) && decide (a.seq < seq) &&
    a.lanes.any fun l => l.place.meets a.size p n

/-- A load of the group, issued before `seq`, has still to read bytes among these. -/
def State.loadBefore (s : State) (gid seq : Nat) (p : Place) (n : Nat) : Bool :=
  s.loads.any fun x => decide (x.gid = gid) && decide (x.seq < seq) && x.rest.any fun l => l.place.meets x.size p n

/-- An access of the group to a place without times, issued before `seq`, is on its way (R201: in issue order). -/
def State.localBefore (s : State) (gid seq : Nat) : Bool :=
  (s.locals.any fun x => decide (x.gid = gid) && decide (x.seq < seq)) ||
  (s.atoms.any fun a => decide (a.gid = gid) && decide (a.seq < seq) && a.lanes.any fun l => !l.place.isGlobal) ||
  (s.loads.any fun x => decide (x.gid = gid) && decide (x.seq < seq) && x.rest.any fun l => !l.place.isGlobal)

/-! ## Host requests that cannot be made (R345, R357) -/

/-- Host requests on behalf of the context are not issued: a VF that one of its pages lies in is in ERROR (R357). -/
def State.blocked (s : State) (ctx : Nat) (p : Place) : Bool :=
  match p with
  | .host _ _ _ => s.pages.any fun e => e.2.bound == some ctx && (s.vfAt (e.1 / 4)).tdisp == Tdisp.error
  | .dram _ _ | .scratch _ _ | .regs _ _ | .vault _ _ _ => false

/-- The home has the right to a line that an access for the context needs: to write it (`own`), or to read it. -/
def State.homeRight (s : State) (ctx : Nat) (own : Bool) (p : Place) : Bool := if own then s.homeOwns ctx p else s.homeHas ctx p

/-- An access that needs a host request which is not issued (R357): its home has no right to the line. -/
def State.barred (s : State) (ctx : Nat) (own : Bool) (p : Place) : Bool := s.blocked ctx p && !s.homeRight ctx own p

/-- The port has not answered for the line within the 50 ms, and its home has no right to it; or it has answered too late (R345). -/
def State.expired (s : State) (e : Cut) : Bool := decide (e.due ≤ s.time) && (e.late || !s.homeRight e.ctx e.own e.line)

/-- The access of that issue number needs a line that its severed port has not answered for in time: it is no longer performed
(R345). -/
def State.unanswered (s : State) (seq : Nat) (p : Place) : Bool :=
  s.cuts.any fun e => decide (e.seq = seq) && decide (e.line = p.line) && s.expired e

/-- What an answer to a request leaves of a cut: nothing, or, after the 50 ms, its mark. -/
def Cut.answered (e : Cut) (a : Ask) (time : Nat) : Option Cut :=
  if e.line = a.line ∧ e.ctx = a.ctx ∧ (a.own ∨ !e.own) then (if time < e.due then none else some { e with late := true }) else some e

/-- A port has answered a home's request: the accesses that were in flight to it when it was severed are performed (R345). -/
def State.answerCuts (s : State) (a : Ask) : State :=
  let left (l : List Cut) : List Cut := l.filterMap fun e => e.answered a s.time
  { s with cuts := left s.cuts, channels := s.channels.mapVals fun k : Channel => { k with cut := left k.cut },
           slices := s.slices.mapVals fun x : Slice => { x with streams := x.streams.mapVals fun t : Stream => { t with cut := left t.cut } } }

/-! ## Loads -/

/-- The context of a group. -/
def State.ctxOf (s : State) (gid : Nat) : Nat := ((s.groupAt gid).map (·.ctx)).getD 0

/-- Every byte of the lane comes from the group's store-buffer entry (R217). -/
def Load.covered (x : Load) (l : LoadLane) : Bool := (List.range x.size).all fun i => (l.own.at? i).isSome

/-- A usable copy of the lane's sector is at hand, so that no home is asked (R215). -/
def State.copyAtHand (s : State) (x : Load) (l : LoadLane) : Bool :=
  l.place.isGlobal && !l.atHome && match s.groupAt x.gid with
    | none => false
    | some g => (findCopy (s.coreAt g.core).l1 g.ctx l.place.sector x.clk).isSome ||
        (findCopy (s.sliceAt (coreSlice g.core)).l2 g.ctx l.place.sector x.clk).isSome

/-- The read of the lane is one that its severed port has not answered in time (R345). -/
def State.cutLane (s : State) (x : Load) (l : LoadLane) : Bool :=
  !x.covered l && !s.copyAtHand x l && s.unanswered x.seq l.place

/-- The lanes that `p` picks of those left return poisoned data. -/
def Load.severed (x : Load) (p : LoadLane → Bool) : Load :=
  { x with data := (x.rest.filter p).foldl (fun t l => t.put l.lane 0) x.data, rest := x.rest.filter fun l => !p l,
           poison := x.poison <|> some 6, hit := false }

/-- The home that the lane's read needs can serve it. -/
def State.laneHome (s : State) (x : Load) (l : LoadLane) : Bool :=
  s.copyAtHand x l || ((s.homeHas (s.ctxOf x.gid) l.place || s.blocked (s.ctxOf x.gid) l.place) && !s.unanswered x.seq l.place)

/-- The lane's read may be performed now: after the group's earlier reads and atomics of its bytes (R82), and of a place
without times after all its earlier accesses of such places (R201). -/
def State.laneReady (s : State) (x : Load) (l : LoadLane) : Bool :=
  x.covered l ||
  if l.place.isGlobal then
    s.laneHome x l && !s.atomBefore x.gid x.seq l.place x.size && !s.loadBefore x.gid x.seq l.place x.size
  else !s.localBefore x.gid x.seq

/-- Every read that is left of the load may be performed now. -/
def State.loadReady (s : State) (x : Load) : Bool := x.rest.all fun l => s.laneReady x l

/-- The homes that a load's lanes wait for are asked (R239, R242). -/
def State.askLoad (s : State) (x : Load) : State :=
  s.askAll (s.ctxOf x.gid) ((x.rest.filter fun l => !x.covered l && !s.laneHome x l && !s.unanswered x.seq l.place).map (·.place)) false

/-- One lane of a load performed, as an access of its own (R203): its bytes, W, hit and poison added to the load.  A read that
is not issued to its host returns poison, and bytes for which the model gives zero (R357, log 18). -/
def State.performLane (s : State) (ctx core : Nat) (x : Load) (l : LoadLane) : State × Load :=
  let (s, r) : State × LaneRead :=
    if x.covered l then (s, { bytes := List.replicate x.size 0, w := 0, hit := true, poison := none })
    else if s.barred ctx false l.place && !s.copyAtHand x l then
      (s, { bytes := List.replicate x.size 0, w := 0, hit := false, poison := some 6 })
    else if l.place.isGlobal then
      if l.atHome then s.readHome ctx x.clk x.lease l.place x.size
      else s.readCopy ctx core x.clk x.lease l.place x.size
    else (s, { bytes := s.bytesAt 0 l.place x.size, w := 0, hit := true, poison := if s.isPoisoned l.place x.size then some 0 else none })
  let bytes := (List.range x.size).map fun i => (l.own.at? i).getD (r.bytes.getD i 0)
  (s, { x with data := x.data.put l.lane (fromBytes bytes), rest := x.rest.filter fun k => decide (k.lane ≠ l.lane),
               w := max x.w r.w, hit := x.hit && r.hit, poison := x.poison <|> r.poison })

/-- Two lanes of a load whose reads are performed together: of one sector (R81, R273); in scratch, of the same bytes (R81); of the
register space, any two (R264). -/
def LoadLane.together (a b : LoadLane) : Bool :=
  match a.place, b.place with
  | .regs _ _, .regs _ _ => true
  | .scratch _ _, .scratch _ _ => decide (a.place = b.place)
  | p, q => decide (p.sector = q.sector)

/-- Lanes in ascending order, but those whose reads are performed together one behind the other. -/
def grouped : List LoadLane → List LoadLane
  | [] => []
  | l :: ls => l :: ((grouped ls).filter l.together ++ (grouped ls).filter fun k => !l.together k)

/-- Every read that is left of a load performed, those of one sector together (R273). -/
def State.performLoad (s : State) (ctx core : Nat) (x : Load) : State × Load :=
  (grouped x.rest).foldl (fun (s, y) l => s.performLane ctx core y l) (s, x)

/-! ## Prefetches (R209) -/

/-- The sector of a `vpref` filled, its line renewed, as a load miss would (R209): at once, or when its home has the line. -/
def State.fillSector (s : State) (x : Prefetch) : State :=
  if s.homeHas x.ctx x.place then (s.fillCopy x.ctx x.core x.clk x.lease x.place).1
  else if s.blocked x.ctx x.place then s
  else { s with prefetches := s.prefetches ++ [x] }.ask x.ctx x.place false

/-- The prefetches that wait for their homes tried again. -/
def State.retryPrefetches (s : State) : State := s.prefetches.foldl State.fillSector { s with prefetches := [] }

/-! ## Stores -/

/-- The entry may drain now: the group's earlier reads of its bytes are performed, its earlier atomics too, no host
holds the line, and no redundant copy holds it back. -/
def State.entryReady (s : State) (e : Entry) : Bool :=
  !e.held && (s.homeOwns e.ctx e.line || s.blocked e.ctx e.line) && !s.unanswered e.seq e.line &&
  e.bytes.all fun b =>
    !s.loadBefore e.gid e.seq (e.line.plus b.1) 1 && !s.atomBefore e.gid e.seq (e.line.plus b.1) 1 &&
    !(s.entries.any fun f => decide (f.gid = e.gid) && decide (f.seq < e.seq) && decide (f.line = e.line))

/-- One bit for each byte of the line that an entry writes. -/
def byteMask (bytes : Table Byte) : Nat := bytes.foldl (fun m e => m ||| 2 ^ e.1) 0

/-- An access of that issue number has still to be performed: a store of several lines is several entries (R277). -/
def State.accessLeft (s : State) (seq : Nat) : Bool :=
  (s.entries.any fun e => decide (e.seq = seq)) || (s.atoms.any fun a => decide (a.seq = seq)) ||
    s.locals.any fun x => decide (x.seq = seq)

/-- An acknowledgement of marked accesses raises the time that the marks stand for (R277). -/
def Group.raiseMark (g : Group) (seqs : List Nat) (t : Nat) : Group :=
  { g with markAck := if seqs.any fun q => g.marked.contains q then max g.markAck t else g.markAck }

/-- The group's marks lose the accesses that are now acknowledged (R277). -/
def Group.unmark (g : Group) (seqs : List Nat) (t : Nat) : Group :=
  { g with markAck := if seqs.any fun q => g.marked.contains q then max g.markAck t else g.markAck,
           marked := g.marked.filter fun q => !seqs.contains q }

/-- A line that the group has written since its last `fence.s`, if it is host-backed (R224). -/
def Group.wroteHost (g : Group) (line : Place) : Group :=
  match line with
  | .host _ _ _ => { g with hostWrote := if g.hostWrote.contains line then g.hostWrote else line :: g.hostWrote }
  | .dram _ _ | .scratch _ _ | .regs _ _ | .vault _ _ _ => g

/-- The acknowledgement of a store, atomic or reduction reaches its group (R219), with the bytes it stands for; the words of
`done` have no other access to come. -/
def Group.acknowledge (g : Group) (seqs done : List Nat) (t : Nat) (line : Place) (mask : Nat) : Group :=
  ((({ g with acks := t :: g.acks, unfolded := (line, mask) :: g.unfolded } : Group).wroteHost line).raiseMark seqs t).unmark done t

/-- An acknowledgement raises the stamp of every copy that its access holds (R277). -/
def State.raiseStamps (s : State) (seqs : List Nat) (t : Nat) : State :=
  { s with channels := s.channels.mapVals fun k : Channel => { k with queue := k.queue.map fun x : Copy =>
      if (x.holds.any fun q => seqs.contains q) then { x with stamp := max x.stamp t } else x } }

end Sys2Proof.Machine
end

