-- ==== Sys2Proof/Machine/Translate.lean ====
section
/-! DEFINITION. From an address to the place of its bytes: the map of spaces and their extents (R193 to R195), the
four-level table walk (R315, R316), the judgement of a leaf (R204, R206, R317, R345) and the translations that a
core keeps (R319). -/

namespace Sys2Proof.Machine

/-! ## Spaces (R193, R194) -/

/-- An address inside the map. -/
inductive Mapped
  /-- a global virtual address -/
  | global (va : Nat)
  /-- a byte of scratch, register or vault space -/
  | here (p : Place)
  deriving DecidableEq, Repr

/-- The copy number of a group's grove: 0 the primary, 1 the redundant copy (R141). -/
def State.copyOf (s : State) (g : Group) : Nat := (s.groveAt g.grove).copy

/-- The record a group's launch was started from. -/
def State.recordOf (s : State) (g : Group) : Record := (s.launchAt g.launch).rcd

/-- The group is one of a redundant copy (R141), and so signs its accesses (R309). -/
def State.redundant (s : State) (g : Group) : Bool := (s.recordOf g).redund && decide (g.role = .kernel)

/-- The grove that is member `m` of the group's copse (R136, R198). -/
def State.memberGrove (s : State) (g : Group) (m : Nat) : Option Nat :=
  let size := (s.recordOf g).copse + 1
  let grx := g.grx / size * size + m
  (s.groves.find? fun e => decide (e.2.launch = g.launch) && decide (e.2.copy = s.copyOf g) && decide (e.2.grx = grx)).map (·.1)

/-- Where an address of a group lies; none when it is outside the map or outside its space's extent (R78, R194). -/
def State.mapAddr (s : State) (gid : Nat) (g : Group) (a : Scalar) : Option Mapped :=
  let space := a.toNat / 2 ^ 48
  let o := a.toNat % 2 ^ 48
  let scratch := (s.recordOf g).scratch * 256
  if space = 0 then some (.global o)
  else if space = 0xFFF0 then
    if o < scratch then some (.here (.scratch g.grove o)) else none
  else if space = 0xFFF1 then
    let m := o / 2 ^ 20
    if m < (s.recordOf g).copse + 1 ∧ o % 2 ^ 20 < scratch then
      (s.memberGrove g m).map fun k => .here (.scratch k (o % 2 ^ 20))
    else none
  else if space = 0xFFF2 then
    if o < g.nregs * g.width * 4 then some (.here (.regs gid o)) else none
  else if space = 0xFFF3 then
    if o < 2 ^ 23 then some (.here (.vault (dieOf (coreSlice g.core)) (vaultOfCore g.core) o)) else none
  else if space = 0xFFF4 then
    if o / 2 ^ 23 < 72 then some (.here (.vault (dieOf (coreSlice g.core)) (o / 2 ^ 23) (o % 2 ^ 23))) else none
  else none

/-- Vault `v` of a die is allotted to the context (R200, R338: bit 24 j + c for slice j of the glade). -/
def State.vaultAllotted (s : State) (ctx die v : Nat) : Bool :=
  let x := s.contextAt ctx
  let slice := 3 * die + v / 24
  decide (x.glade ≤ slice) && decide (slice < x.glade + (s.gladeAt x.glade).len) &&
    x.cfg.vaults.getLsbD (24 * (slice - x.glade) + v % 24)

/-! ## The table walk (R315, R316) -/

/-- A leaf that a walk found: the entry, and the page it maps. -/
structure Leaf where
  entry : Scalar
  base : Nat
  size : Nat
  deriving DecidableEq, Repr, Inhabited

/-- Fields of a translation entry (R316). -/
def pteTgt (e : Scalar) : Nat := bitsOf e.toNat 63 60
def ptePlaced (e : Scalar) : Bool := e.getLsbD 59
def pteDie (e : Scalar) : Nat := bitsOf e.toNat 58 57
def pteAddr (e : Scalar) : Nat := bitsOf e.toNat 55 8 * 256
def pteLeaf (e : Scalar) : Bool := e.getLsbD 7
def pteDt (e : Scalar) : Bool := e.getLsbD 6
def pteGb (e : Scalar) : Bool := e.getLsbD 5
def pteBack (e : Scalar) : Nat := bitsOf e.toNat 4 3
def pteW (e : Scalar) : Bool := e.getLsbD 1
def pteV (e : Scalar) : Bool := e.getLsbD 0

/-- A levels' index position, and the size of what one of its entries maps (R315). -/
def levelShift : Nat → Nat
  | 0 => 39
  | 1 => 30
  | 2 => 21
  | _ => 16

/-- Entries of a table of the level. -/
def levelEntries (level : Nat) : Nat := if level < 3 then 512 else 32

/-- A valid entry of the level is ill-formed (R316); `bytes` is the glade's device memory. -/
def pteIllFormed (level bytes : Nat) (e : Scalar) : Bool :=
  e.getLsbD 56 || e.getLsbD 2 ||
  (if pteLeaf e then
    decide (level = 0) || decide (pteBack e = 3) || decide (pteAddr e % 2 ^ levelShift level ≠ 0) ||
    decide (pteBack e = 0 ∧ pteTgt e ≠ 0) || decide (pteBack e = 1 ∧ 3 < pteTgt e) ||
    decide (pteBack e = 2 ∧ 11 < pteTgt e) || decide (pteBack e = 0 ∧ bytes ≤ pteAddr e)
  else
    decide (level = 3) || decide (bytes ≤ pteAddr e) ||
    decide (pteAddr e % (if level = 2 then 256 else 4096) ≠ 0))

/-- The entry of a table at physical address `table`, as the context reads it at its home. -/
def State.pteAt (s : State) (ctx table i : Nat) : Scalar :=
  let g := (s.contextAt ctx).glade
  BitVec.ofNat 64 (fromBytes (s.bytesAt (s.keyOf ctx) (s.dramPlace g (table + 8 * i)) 8))

/-- The walk from a table of the level on, downward while `fuel` lasts: the leaf, or the DETAIL of R317. -/
def State.walkFrom (s : State) (ctx va : Nat) : (fuel level table : Nat) → Except Nat Leaf
  | 0, _, _ => .error 0x03
  | fuel + 1, level, table =>
    let sh := levelShift level
    let e := s.pteAt ctx table (va / 2 ^ sh % levelEntries level)
    if !pteV e then .error 0x01
    else if pteIllFormed level (gladeBytes (s.gladeAt (s.contextAt ctx).glade).len) e then .error 0x03
    else if pteLeaf e then .ok { entry := e, base := va / 2 ^ sh * 2 ^ sh, size := 2 ^ sh }
    else s.walkFrom ctx va fuel (level + 1) (pteAddr e)

/-- The walk of a context's address (R315). -/
def State.walk (s : State) (ctx va : Nat) : Except Nat Leaf :=
  s.walkFrom ctx va 4 0 (s.contextAt ctx).cfg.root

/-! ## The judgement of a leaf (R317) -/

/-- Where a translated address leads. -/
inductive Target
  | place (p : Place)
  /-- address `addr` of device link `link` (R362) -/
  | peer (link addr : Nat)
  deriving DecidableEq, Repr, Inhabited

/-- The mapping is severed for the context (R345). -/
def State.severed (s : State) (ctx : Nat) (e : Scalar) : Bool :=
  let x := s.contextAt ctx
  (pteBack e == 1 && x.sevp.getLsbD (pteTgt e)) || (pteGb e && x.sevgb)

/-- The frame of a device-memory leaf agrees with its placement (R206). -/
def State.placementOk (s : State) (ctx : Nat) (e : Scalar) : Bool :=
  let g := (s.contextAt ctx).glade
  let gl := s.gladeAt g
  let B := gl.len * gl.shareB * 2 ^ 30
  if ptePlaced e then
    decide (B ≤ pteAddr e) && decide (dieOf (g + (pteAddr e - B) / ((48 - gl.shareB) * 2 ^ 30)) = pteDie e)
  else decide (pteAddr e < B)

/-- The target of an address under a leaf, or the CODE and DETAIL of its fault, in the order of R317. -/
def State.judge (s : State) (ctx : Nat) (l : Leaf) (va : Nat) (write byGroup : Bool) : Except (Nat × Nat) Target :=
  let e := l.entry
  if s.severed ctx e then .error (7, 0x05)
  else if pteBack e = 0 ∧ !s.placementOk ctx e then .error (7, 0x04)
  else if pteBack e = 2 ∧ byGroup then .error (8, 0)
  else if write ∧ !pteW e then .error (if pteDt e then (7, 0x02) else (8, 0))
  else
    let a := pteAddr e + (va - l.base)
    .ok (if pteBack e = 0 then .place (s.dramPlace (s.contextAt ctx).glade a)
      else if pteBack e = 1 then
        let g := (s.contextAt ctx).glade
        .place (.host (pteTgt e) (hostHome g (s.gladeAt g).len a) a)
      else .peer (pteTgt e) a)

/-- A fault that the guardian services and the word replays (R317). -/
def replayable (code detail : Nat) : Bool :=
  code == 7 && (detail == 0x01 || detail == 0x02 || detail == 0x05)

/-! ## Cached translations of a core (R319) -/

/-- The leaf that a core has cached for an address of a context. -/
def Core.cached (c : Core) (ctx va : Nat) : Option Leaf :=
  (c.tlb.find? fun x => decide (x.ctx = ctx) && decide (x.base ≤ va) && decide (va < x.base + x.size)).map
    fun x => { entry := x.leaf, base := x.base, size := x.size }

/-- The core with a leaf cached. -/
def Core.cacheLeaf (c : Core) (ctx : Nat) (l : Leaf) : Core :=
  { c with tlb := { ctx := ctx, base := l.base, size := l.size, leaf := l.entry } :: c.tlb }

/-- A judged leaf of a core's walk: a good one is cached, and a fault caches nothing (R365). -/
def State.keepGood (s : State) (core ctx : Nat) (l : Leaf) (j : Except (Nat × Nat) Target) : State × Except (Nat × Nat) Target :=
  match j with
  | .ok t => (s.setCore core ((s.coreAt core).cacheLeaf ctx l), .ok t)
  | .error e => (s, .error e)

/-- The end `r` of a core's walk (R365). -/
def State.walked (s : State) (core ctx va : Nat) (write : Bool) (r : Except Nat Leaf) : State × Except (Nat × Nat) Target :=
  match r with
  | .error d => (s, .error (7, d))
  | .ok l => s.keepGood core ctx l (s.judge ctx l va write true)

/-- A translation by a core: through its cached leaf, or by a walk; where the cached leaf does not permit the access the
tables are walked again (R318). -/
def State.translate (s : State) (core ctx va : Nat) (write : Bool) : State × Except (Nat × Nat) Target :=
  match (s.coreAt core).cached ctx va with
  | none => s.walked core ctx va write (s.walk ctx va)
  | some l => match s.judge ctx l va write true with
    | .ok t => (s, .ok t)
    | .error _ => s.walked core ctx va write (s.walk ctx va)

/-- Translations dropped on every core (R319). -/
def State.dropXlates (s : State) (p : Xlate → Bool) : State :=
  { s with cores := s.cores.mapVals (fun c => { c with tlb := c.tlb.filter (fun x => !p x) }) }

/-- The place of an address of a group that the map holds, or the CODE and DETAIL of its fault (R79, R200). -/
def State.locate (s : State) (g : Group) (m : Mapped) (write : Bool) : State × Except (Nat × Nat) Place :=
  match m with
  | .global va =>
    match s.translate g.core g.ctx va write with
    | (s, .ok (.place p)) => (s, .ok p)
    | (s, .ok (.peer _ _)) => (s, .error (8, 0))
    | (s, .error e) => (s, .error e)
  | .here (.vault d v o) =>
    (s, if s.vaultAllotted g.ctx d v then .ok (.vault d v o) else .error (8, 0))
  | .here p => (s, .ok p)

/-- A translation made outside every core (a channel, the dispatcher, a walker): no leaf is cached. -/
def State.translateAt (s : State) (ctx va : Nat) (write byGroup : Bool) : Except (Nat × Nat) Target :=
  match s.walk ctx va with
  | .error d => .error (7, d)
  | .ok l => s.judge ctx l va write byGroup

end Sys2Proof.Machine
end

