-- ==== Sys2Proof/Machine/Package.lean ====
section
/-! DEFINITION. Around the groups: the error log and its actions (R311 to R313), notices and their rings (R347,
R348), checkpoint slots (R295, R296), discards and preemptions (R300, R301), suspension (R346), and the destruction
of a context (R354) and the reset of a glade (R312, R330). -/

namespace Sys2Proof.Machine

/-! ## Guardianship as programs and hosts read it (R42, R336) -/

def GState.code : GState → Nat
  | .guarded => 0
  | .shared => 1
  | .orphaned => 2
  | .suspended => 3
  | .reaped => 4

/-- Ports of the co-guardians. -/
def Context.comask (x : Context) : BitVec 4 :=
  (x.guardians.drop 1).foldl (fun m g => m ||| BitVec.ofNat 4 (2 ^ g.port)) 0

/-- GDN (R42).  While the context has no guardian the manual gives PORT no value: the model reads 0 there (log 77). -/
def Context.gdn (x : Context) : Scalar :=
  BitVec.ofNat 64 (x.comask.toNat * 2 ^ 8 + (x.guardians.head?.map (·.port)).getD 0 * 2 ^ 4 + x.state.code)

/-- ECLASS (R42). -/
def Context.eclassWord (x : Context) : Scalar :=
  match x.eclass with
  | none => 0
  | some (src, cls) => BitVec.ofNat 64 (2 ^ 12 + src * 2 ^ 8 + cls)

/-- TCAUSE: DETAIL in [15:8], CODE in [4:0] (R42). -/
def tcauseWord (code detail : Nat) : Scalar := BitVec.ofNat 64 (detail % 256 * 256 + code % 32)

/-- Periods of a core's clock since the last start (R9). -/
def Core.clock (c : Core) : Nat := c.phase / 800

/-! ## The error log (R311 to R313) -/

/-- Default actions of the classes (R311): 1 log, 2 interrupt the guardian, 3 kill the context. -/
def defaultAction : Nat → Nat
  | 2 | 3 | 7 | 9 | 10 | 14 | 15 => 2
  | 4 => 3
  | _ => 1

/-- The action a glade's ERRSEV holds for a class and source (R312). -/
def Glade.action (g : Glade) (cls src : Nat) : Nat := (g.errsev.at? (cls * 8 + src)).getD (defaultAction cls)

/-- The action that is left to take for a context that is no more: a reset of the glade, or no more than the log (log 93). -/
def Glade.lastAction (g : Glade) (cls src : Nat) : Nat := if g.action cls src = 4 then 4 else min (g.action cls src) 1

/-- An entry written into a glade's ring of 256; the oldest is overwritten and OVF marks the loss (R313). -/
def Glade.write (g : Glade) (e : LogEntry) : Glade :=
  let full := decide (256 ≤ g.errlog.length)
  { g with errlog := (if full then g.errlog.drop 1 else g.errlog) ++ [{ e with ovf := full }],
           loghead := g.loghead + 1 }

/-- The 32 bytes of an entry (R313). -/
def LogEntry.bytes (e : LogEntry) : List Byte :=
  toBytes e.time 8 ++ toBytes e.addr.toNat 8 ++ toBytes e.ctx 2 ++ toBytes (e.cls + 16 * e.source) 1 ++
  toBytes (e.act + if e.ovf then 128 else 0) 1 ++ toBytes e.detail.toNat 4 ++ toBytes 0 8

/-- An entry logged in a glade with the action taken; action 0 logs nothing (R312, R313). -/
def State.logAct (s : State) (glade act cls src ctx : Nat) (addr : Scalar) : State :=
  if act = 0 then s
  else { s with glades := s.glades.alter glade fun g =>
           g.write { time := s.time, addr := addr, ctx := ctx, cls := cls, source := src, act := act, ovf := false, detail := 0 } }

/-- An entry logged in a glade of which nothing else is to come: of a refused request, which changes no state (R364). -/
def State.logIn (s : State) (glade cls src ctx : Nat) (addr : Scalar) : State :=
  s.logAct glade (min ((s.gladeAt glade).action cls src) 1) cls src ctx addr

/-! ## Notices (R347, R348) -/

/-- The 128 bytes of a notice (R347). -/
def Notice.bytes (n : Notice) : List Byte :=
  toBytes n.seq 8 ++ toBytes n.type 1 ++ toBytes n.gix 1 ++ toBytes n.ctx 2 ++ toBytes n.grx 4 ++ toBytes n.toff 4 ++
  toBytes n.svcSeq.toNat 4 ++ toBytes n.tcause.toNat 8 ++ toBytes n.taddr.toNat 8 ++ toBytes n.tlane.toNat 8 ++
  (((n.args.map (fun a : Scalar => toBytes a.toNat 8)).flatten) ++ List.replicate 32 0).take 32 ++
  (n.log ++ List.replicate 32 0).take 32 ++ List.replicate 16 0

/-- Waiting entries written into the ring while NHEAD − NTAIL is below 16 (R347). -/
def CtxPage.flush (fuel : Nat) (p : CtxPage) : CtxPage :=
  match fuel, p.waiting with
  | 0, _ | _, [] => p
  | fuel + 1, e :: rest =>
    if (p.nhead - p.ntail).toNat < 16 then
      CtxPage.flush fuel { p with ring := p.ring.put (p.nhead.toNat % 16) e, nhead := p.nhead + 1, waiting := rest,
                                  signals := p.signals + 1 }
    else p

/-- An entry sent to a guardian's page. -/
def CtxPage.send (p : CtxPage) (e : List Byte) : CtxPage :=
  let p := { p with waiting := p.waiting ++ [e] }
  p.flush p.waiting.length

/-- A notice delivered to the rings of every guardian of a context. -/
def State.sendNotice (s : State) (gs : List Guardian) (n : Notice) : State :=
  gs.foldl (fun s g => s.setPage g.vf g.page ((s.pageAt g.vf g.page).send n.bytes)) s

/-- The oldest queued notice of type 3 dropped, if there is one. -/
def dropOldestError : List Notice → List Notice
  | [] => []
  | n :: rest => if n.queued ∧ n.type = 3 then rest else n :: dropOldestError rest

/-- A queued notice of type 3. -/
def Notice.queuedError (n : Notice) : Bool := n.queued && decide (n.type = 3)

/-- The notices with one that is to be queued, at most 256 of them (R348): past that the oldest of type 3 makes room; when none
is of type 3 the new one is not queued (log 78). -/
def queueNotice (l : List Notice) (n : Notice) : List Notice :=
  if (l.filter (·.queued)).length < 256 then l ++ [n]
  else if l.any Notice.queuedError then dropOldestError l ++ [n]
  else l ++ [{ n with queued := false }]

/-- A notice raised in a context (R347).  With no guardian, types 3, 4 and 5 are queued (R348). -/
def State.notify (s : State) (ctx : Nat) (n : Notice) : State :=
  let x := s.contextAt ctx
  let n := { n with seq := x.nextNotice, ctx := ctx }
  if x.guardians = [] then
    s.setContext ctx { x with
      nextNotice := x.nextNotice + 1,
      notices := if n.type < 3 then x.notices ++ [n] else queueNotice x.notices { n with queued := true } }
  else
    (s.setContext ctx { x with nextNotice := x.nextNotice + 1, notices := x.notices ++ [n] }).sendNotice x.guardians n

/-- The queue of a context without a guardian is full, and a notice of the type would be queued (R348). -/
def Context.overflows (x : Context) (type : Nat) : Bool :=
  decide (x.guardians = []) && decide (3 ≤ type) && decide (256 ≤ (x.notices.filter (·.queued)).length)

/-! ## Destruction (R354, R330) -/

/-- Frames that the context's tables map with BACK 0, base and size (R354), and the tables themselves. -/
def State.framesFrom (s : State) (ctx : Nat) : (fuel level table : Nat) → List (Nat × Nat) × List (Nat × Nat)
  | 0, _, _ => ([], [])
  | fuel + 1, level, table =>
    let found := (List.range (levelEntries level)).map fun i =>
      let e := s.pteAt ctx table i
      if !pteV e || pteIllFormed level (gladeBytes (s.gladeAt (s.contextAt ctx).glade).len) e then ([], [])
      else if pteLeaf e then (if pteBack e = 0 then ([(pteAddr e, 2 ^ levelShift level)], []) else ([], []))
      else s.framesFrom ctx fuel (level + 1) (pteAddr e)
    ((found.map (·.1)).flatten, (table, 8 * levelEntries level) :: (found.map (·.2)).flatten)

/-- The frames of a context; without a table root there are none. -/
def State.frames (s : State) (ctx : Nat) : List (Nat × Nat) :=
  let root := (s.contextAt ctx).cfg.root
  if root = 0 then [] else (s.framesFrom ctx 4 0 root).1

/-- The frames of a context, as the device writes zero to them: lines that no context holds are under the glade key (R354, R359). -/
def State.zeroingOf (s : State) (ctx key : Nat) : Zeroing :=
  let x := s.contextAt ctx
  { first := x.glade, len := (s.gladeAt x.glade).len, shareB := (s.gladeAt x.glade).shareB, frames := s.frames ctx, key := key }

/-- All of a glade's device memory, as the device writes zero to it. -/
def State.zeroingAll (s : State) (g key : Nat) : Zeroing :=
  { first := g, len := (s.gladeAt g).len, shareB := (s.gladeAt g).shareB, frames := [(0, gladeBytes (s.gladeAt g).len)], key := key }

/-- The device writes zero to every DRAM byte of a zeroing, which stands good again, under its key. -/
def State.zeroDram (s : State) (z : Zeroing) : State :=
  { s with dram := s.dram.clear fun a => z.holds (a / sliceBytes) (a % sliceBytes),
           keys := s.keys.filter (fun e => !z.holds (e.1 * 128 / sliceBytes) (e.1 * 128 % sliceBytes)),
           zeroed := z :: s.zeroed,
           poison := s.poison.filter (fun e => !(decide (e.1 < 2 ^ 64) && z.holds (e.1 * 32 / sliceBytes) (e.1 * 32 % sliceBytes))) }

/-- The key of a sector of a vault in `State.poison` names a vault that `p` picks by die and index. -/
def vaultSector (p : Nat → Nat → Bool) (k : Nat) : Bool :=
  decide (2 ^ 64 * 6 ≤ k) && decide (k < 2 ^ 64 * 7) &&
    let v := (k - 2 ^ 64 * 6) * 32 / vaultBytes
    p (v / 72) (v % 72)

/-- The device writes zero to every vault that `p` picks by die and index, and what it writes stands good (R302). -/
def State.zeroVaults (s : State) (p : Nat → Nat → Bool) : State :=
  { s with vaultMem := s.vaultMem.clear fun a => p (a / vaultBytes / 72) (a / vaultBytes % 72),
           poison := s.poison.filter fun e => !vaultSector p e.1 }

/-- The next generation of a stream slot: 1, 2, 3, 1 (R231). -/
def nextGen (g : Nat) : Nat := if g = 3 then 1 else g + 1

/-- A stream's slot closed (R235). -/
def Stream.close (x : Stream) : Stream := { x with isOpen := false, gen := nextGen x.gen, buf := [], cut := [], next := 0 }

/-- A context page with no notice in its ring, bound or unbound (R339, R342, R354). -/
def CtxPage.rebind (p : CtxPage) (ctx : Option Nat) : CtxPage :=
  { p with bound := ctx, nhead := 0, ntail := 0, ring := [], waiting := [] }

/-- The context page becomes unbound: the notices that it showed are gone. -/
def CtxPage.unbind (p : CtxPage) : CtxPage := p.rebind none

/-- A byte of host memory. -/
def Place.isHost : Place → Bool
  | .host _ _ _ => true
  | .dram _ _ | .scratch _ _ | .regs _ _ | .vault _ _ _ => false

/-- What a destruction leaves of the accesses of a context under way (R354, R300): its stores, atomics and reductions of host
memory are still performed.  Those of device memory and of its vaults come before the zeros, and are gone with them; loads and
contributions return nothing. -/
def State.dropAccessesOf (s : State) (ctx : Nat) : State :=
  let mine (gid : Nat) : Bool := match s.groupAt gid with
    | some g => decide (g.ctx = ctx)
    | none => false
  { s with
    loads := s.loads.filter (fun a => !mine a.gid), locals := s.locals.filter (fun a => decide (a.ctx ≠ ctx)),
    contribs := s.contribs.filter (fun a => decide (a.ctx ≠ ctx)), prefetches := s.prefetches.filter (fun a => decide (a.ctx ≠ ctx)),
    flights := s.flights.filter (fun f : Flight => decide (f.ctx ≠ ctx)),
    entries := s.entries.filter (fun e => decide (e.ctx ≠ ctx) || (e.line.isHost && !e.held)),
    slotWrites := s.slotWrites.filter (fun e => decide (e.ctx ≠ ctx) || e.place.isHost),
    atoms := (s.atoms.map fun a : Atomic => if a.ctx = ctx then
        { a with returns := false, lanes := a.lanes.filter fun l : AtomLane => l.place.isHost } else a).filter fun a : Atomic =>
      decide (a.ctx ≠ ctx) || decide (a.lanes ≠ []) }

/-- Every line that an L3 slice holds for the context is dropped: written back if dirty, and no longer tracked (R354, R207, R212). -/
def State.dropHeld (s : State) (ctx : Nat) : State :=
  s.slices.foldl (fun (s : State) e => (e.2.l3.filter fun l => decide (l.2 = ctx)).foldl (fun (s : State) l => s.untrackKey e.1 l.1) s) s

/-- Contexts of a glade, by id. -/
def State.contextsOf (s : State) (g : Nat) : List Nat :=
  (s.contexts.filter fun e => decide (e.2.glade = g)).map (·.1)

/-! ## Allotments (R338, R340) -/

/-- Core pairs of a context's CPAIRS, by package pair number. -/
def State.ownPairs (s : State) (ctx : Nat) : List Nat :=
  let x := s.contextAt ctx
  ((List.range (12 * (s.gladeAt x.glade).len)).filter fun b => x.cfg.cpairs.getLsbD b).map fun b => 12 * x.glade + b

/-- The context is time-sliced. -/
def State.timeSliced (s : State) (ctx : Nat) : Bool := (s.contextAt ctx).cfg.cpairs == 0

/-- The core pairs that a context runs on: its own, or those of its glade that no context holds. -/
def State.allotment (s : State) (ctx : Nat) : List Nat :=
  if s.timeSliced ctx then
    let g := (s.contextAt ctx).glade
    let held := (s.contextsOf g).flatMap fun c => s.ownPairs c
    ((List.range (12 * (s.gladeAt g).len)).map (12 * g + ·)).filter fun p => !held.contains p
  else s.ownPairs ctx

/-- The cores of some pairs return to step 40 (R165). -/
def State.restoreSteps (s : State) (pairs : List Nat) : State :=
  let back (s : State) (k : Nat) : State := s.setCore k { s.coreAt k with step := 40 }
  pairs.foldl (fun (s : State) p => back (back s (2 * p)) (2 * p + 1)) s

/-- A context's time slice ends, with its turn, or as it leaves its own core pairs: their clocks are again at 1.05 GHz (R165, log 27). -/
def State.endSlice (s : State) (ctx : Nat) : State :=
  if !s.timeSliced ctx ∨ (s.gladeAt (s.contextAt ctx).glade).turn = some ctx then s.restoreSteps (s.allotment ctx) else s

/-- Destruction of a context (R354): groups, channels, streams and launches end; device memory it maps, and its
vaults, read zero; its cached lines are dropped; its key is cleared, its pages unbound; the event is logged as class 11. -/
def State.destroyOne (s : State) (ctx : Nat) : State :=
  let x := s.contextAt ctx
  let z := s.zeroingOf ctx (s.gladeAt x.glade).key
  let s := (s.endSlice ctx).dropAccessesOf ctx
  let s := { s with
    doneTime := s.launches.foldl (fun (m : Nat) (e : Nat × Launch) => if e.2.ctx = ctx ∧ e.2.complete then max m e.2.last else m) s.doneTime,
    groups := s.groups.filter (fun e => decide (e.2.ctx ≠ ctx)), groves := s.groves.filter (fun e => decide (e.2.ctx ≠ ctx)),
    launches := s.launches.filter (fun e => decide (e.2.ctx ≠ ctx)), graphs := s.graphs.filter (fun e => decide (e.2.ctx ≠ ctx)),
    channels := s.channels.mapVals (fun c : Channel => if (c.owner.any fun o : Nat × Nat => o.1 == ctx) then .reset else c),
    slices := s.slices.mapVals (fun c => { c with streams := c.streams.mapVals fun t =>
      if t.isOpen ∧ t.ctx = ctx then t.close else t }) }
  let s := s.zeroDram z
  let s := s.zeroVaults fun d v => s.vaultAllotted ctx d v
  let s := s.dropHeld ctx
  let s := s.dropCopies fun c => decide (c.ctx = ctx)
  let s := s.dropXlates fun c => decide (c.ctx = ctx)
  let s := { s with
    ctxKeys := s.ctxKeys.drop ctx,
    vaultLast := s.vaultLast.filter (fun e => decide (e.2 ≠ ctx)),
    pages := s.pages.mapVals (fun p => if p.bound = some ctx then p.unbind else p),
    contexts := s.contexts.drop ctx }
  s.logAct x.glade ((s.gladeAt x.glade).lastAction 11 7) 11 7 ctx 0

/-- Zero written to all of a glade's DRAM and vaults, under `key`, and every cached line of it dropped (R330); of host memory
its homes hold nothing dirty then. -/
def State.wipeGlade (s : State) (g key : Nat) : State :=
  let n := (s.gladeAt g).len
  let inside (slice : Nat) : Bool := decide (g ≤ slice) && decide (slice < g + n)
  let s := s.zeroDram (s.zeroingAll g key)
  let s := s.zeroVaults fun d v => inside (3 * d + v / 24)
  { s with
    cores := s.cores.map (fun e : Nat × Core => if inside (coreSlice e.1) then (e.1, { e.2 with l1 := [], tlb := [] }) else e),
    slices := s.slices.map (fun e : Nat × Slice => if inside e.1 then (e.1, { e.2 with l2 := [], l3 := [] }) else e),
    lines := s.lines.filter (fun e => !inside (if e.1 < 2 ^ 64 then e.1 * 128 / sliceBytes else e.1 % 2 ^ 64 / 2 ^ 56)) }

/-- Reset of a glade (R312, action 4). -/
def State.resetGlade (s : State) (g : Nat) : State :=
  let s := (s.contextsOf g).foldl State.destroyOne s
  let engines := (s.gladeAt g).engines
  let s := { s with channels := s.channels.map (fun e : Nat × Channel => if engines.getLsbD (e.1 / 16) then (e.1, .reset) else e) }
  let s := s.wipeGlade g (s.draws + 1)
  { s.draw with glades := s.glades.alter g fun x => { x with key := s.draws + 1 } }

/-- Destruction of a context (R354), with the glade's action for its class 11 if that is a reset (R312). -/
def State.destroy (s : State) (ctx : Nat) : State :=
  let g := (s.contextAt ctx).glade
  let s := s.destroyOne ctx
  if (s.gladeAt g).action 11 7 = 4 then s.resetGlade g else s

/-! ## Errors and their actions (R312) -/

/-- An error attributed to a context: ECLASS, then the action of ERRSEV, at least `atLeast`; each action includes
the ones before it, and action 3 leaves no notice.  `raise` raises the notice of action 2. -/
def State.errorBy (raise : State → Nat → Notice → State) (s : State) (atLeast cls src ctx : Nat) (addr : Scalar) (detail : BitVec 32) : State :=
  match s.contexts.at? ctx with
  | none => s
  | some x =>
    let s := s.setContext ctx { x with eclass := some (src, cls) }
    let act := max atLeast ((s.gladeAt x.glade).action cls src)
    let e : LogEntry := { time := s.time, addr := addr, ctx := ctx, cls := cls, source := src, act := act, ovf := false, detail := detail }
    let s := if act = 0 then s else { s with glades := s.glades.alter x.glade fun g => g.write e }
    if act = 2 then raise s ctx { (default : Notice) with type := 3, log := e.bytes }
    else if act = 3 then s.destroy ctx
    else if act = 4 then s.resetGlade x.glade
    else s

/-- A notice raised in a context.  An event beyond what the queue of an orphan holds is an error of class 11 (R312, R348); the notice
that action 2 raises of it is no further event (log 78). -/
def State.raise (s : State) (ctx : Nat) (n : Notice) : State :=
  if (s.contextAt ctx).overflows n.type then (s.notify ctx n).errorBy State.notify 0 11 7 ctx 0 0 else s.notify ctx n

/-- An error attributed to a context, whose action is at least `atLeast`. -/
def State.errorAtLeast (s : State) (atLeast cls src ctx : Nat) (addr : Scalar) (detail : BitVec 32) : State :=
  s.errorBy State.raise atLeast cls src ctx addr detail

/-- An error of a glade attributed to no context: action 2 stands in place of action 3, and no guardian is told (R312). -/
def State.report (s : State) (glade cls src : Nat) (addr : Scalar) : State :=
  let a := (s.gladeAt glade).action cls src
  let s := s.logAct glade (if a = 3 then 2 else a) cls src 0xFFFF addr
  if a = 4 then s.resetGlade glade else s

/-- An error attributed to no context, in every glade that `p` picks (R364, R376). -/
def State.reportWhere (s : State) (p : Glade → Bool) (cls src : Nat) (addr : Scalar) : State :=
  s.glades.foldl (fun s e => if p e.2 then s.report e.1 cls src addr else s) s

/-- An error attributed to a context (R312). -/
def State.error (s : State) (cls src ctx : Nat) (addr : Scalar) (detail : BitVec 32) : State :=
  s.errorAtLeast 0 cls src ctx addr detail

/-! ## Performance times of a launch's effects (R157) -/

/-- A launch learns the time of an effect, and the line where it was performed, if that is a host's (R156, R224). -/
def Launch.note (l : Launch) (t : Nat) (p : Place) : Launch :=
  { l with last := max l.last t,
           hostWrote := if p.isHost ∧ ¬ l.hostWrote.contains p.line then p.line :: l.hostWrote else l.hostWrote }

/-- A launch learns the time of an effect. -/
def State.noteEffect (s : State) (launch t : Nat) : State :=
  { s with launches := s.launches.alter launch fun l : Launch => { l with last := max l.last t } }

/-- A launch learns of an effect of a copy that one of its groups submitted. -/
def State.noteCopy (s : State) (launch t : Nat) (p : Place) : State :=
  { s with launches := s.launches.alter launch fun l : Launch => l.note t p }

/-- The launch that started a group learns of an effect of it. -/
def State.noteGroup (s : State) (gid t : Nat) (p : Place) : State :=
  { s with launches := s.launches.mapVals fun l : Launch => if l.gids.contains gid then l.note t p else l }

/-- Host-backed lines are written back: clean, and still valid at the home (R224). -/
def State.writeBack (s : State) (ps : List Place) : State :=
  ps.foldl (fun (s : State) p => match p.lineKey with
    | some k => { s with lines := s.lines.alter k fun x : Line => { x with dirty := false } }
    | none => s) s

/-! ## Global memory as the device's own units reach it -/

/-- Pieces of `n` bytes from address `va` on that lie in one 64 KiB page each: address, position, length. -/
def pagePieces (va n : Nat) : List (Nat × Nat × Nat) :=
  (List.range (if n = 0 then 0 else (va + n + 65535) / 65536 - va / 65536)).map fun k =>
    let a := max va ((va / 65536 + k) * 65536)
    let e := min (va + n) ((va / 65536 + k + 1) * 65536)
    (a, a - va, e - a)

/-- The places of the pieces of a range, or the lowest address that faults, with CODE and DETAIL (R297). -/
def State.placesOf (s : State) (ctx va n : Nat) (write : Bool) : Except (Nat × Nat × Nat) (List (Place × Nat × Nat)) :=
  (pagePieces va n).foldr (fun (a, o, len) rest =>
    match s.translateAt ctx a write true with
    | .ok (.place p) => match rest with
      | .ok l => .ok ((p, o, len) :: l)
      | .error e => .error e
    | .ok (.peer _ _) => .error (a, 8, 0)
    | .error (c, d) => .error (a, c, d)) (.ok [])

/-- The home can serve the device's own read (`own` false) or write of a line; what a VF in ERROR bars is not asked for (R239, R242,
R357). -/
def State.lineReady (s : State) (ctx : Nat) (own : Bool) (p : Place) : Bool :=
  s.blocked ctx p || s.homeRight ctx own p

/-- The lines of a range: the first place in each. -/
def linesOf (ps : List (Place × Nat × Nat)) : List Place := ps.flatMap fun (p, _, n) => (linePieces p n).map (·.1)

/-- The homes of a range can serve the device's own read or write of it. -/
def State.placesReady (s : State) (ctx : Nat) (ps : List (Place × Nat × Nat)) (own : Bool) : Bool :=
  (linesOf ps).all (s.lineReady ctx own)

/-- The requests of the homes of a range that it waits for. -/
def State.askPlaces (s : State) (ctx : Nat) (ps : List (Place × Nat × Nat)) (own : Bool) : State :=
  s.askAll ctx ((linesOf ps).filter fun p => !s.lineReady ctx own p) own

/-- Bytes written at a range's places as home writes of clock `clk`, line by line; the state and the greatest time.  A write to host
memory that a VF in ERROR bars is dropped and logged (R357), and so is one that `cut` says its severed port has not answered
(R345). -/
def State.landPlaces (s : State) (cut : Place → Bool) (ctx va : Nat) (ps : List (Place × Nat × Nat)) (bytes : List Byte) (clk : Nat) :
    State × Nat :=
  ps.foldl (fun (s, t) (p, o, n) => (linePieces p n).foldl (fun (s, t) (q, o', m) =>
    let at_ := o + o'
    if s.barred ctx true q then (s.error 8 6 ctx (BitVec.ofNat 64 (va + at_)) 0, t)
    else if cut q then (s.error 2 6 ctx (BitVec.ofNat 64 (va + at_)) 0, t)
    else
      let (s, t') := s.homeWrite ctx q ((bytes.drop at_).take m) clk
      (s, max t t')) (s, t)) (s, 0)

/-- Bytes written at a range's places, none of them in flight before. -/
def State.writePlaces (s : State) (ctx va : Nat) (ps : List (Place × Nat × Nat)) (bytes : List Byte) (clk : Nat) : State × Nat :=
  s.landPlaces (fun _ => false) ctx va ps bytes clk

/-- The source code of the first poison in a range (R311): what a VF in ERROR bars, or a severed port does not answer, comes
poisoned from the host (R345, R357). -/
def State.poisonIn (s : State) (cut : Place → Bool) (ctx : Nat) (ps : List (Place × Nat × Nat)) : Option Nat :=
  (ps.flatMap fun (p, _, n) => linePieces p n).findSome? fun (q, _, m) =>
    if s.barred ctx false q || cut q then some 6 else if s.isPoisoned q m then some (s.sourceOf q) else none

/-- Bytes read at a range's places, and the source of the first poison. -/
def State.readPlaces (s : State) (ctx : Nat) (ps : List (Place × Nat × Nat)) : List Byte × Option Nat :=
  ((ps.map fun (p, _, len) => s.bytesAt (s.keyOf ctx) p len).flatten, s.poisonIn (fun _ => false) ctx ps)

/-! ## Accesses of the device that wait for their homes (R345) -/

/-- The access under way that is made for a group, launch or graph at an address. -/
def State.flightOf (s : State) (who va : Nat) : Option Flight :=
  s.flights.find? fun f => decide (f.who = who) && decide (f.va = va)

/-- What was made for a group, launch or graph is no longer under way. -/
def State.land (s : State) (who : Nat) : State := { s with flights := s.flights.filter fun f : Flight => decide (f.who ≠ who) }

/-- An access that has been translated waits for its homes, which are asked. -/
def State.takeOff (s : State) (ctx who va : Nat) (ps : List (Place × Nat × Nat)) (bytes : Option (List Byte)) : State :=
  let f : Flight := { seq := s.nextId, ctx := ctx, who := who, va := va, pieces := ps, bytes := bytes }
  ({ s.fresh with flights := s.flights ++ [f] } : State).askPlaces ctx ps bytes.isSome

/-- The home of a line of an access under way has the right to it, or the access of the line is not to be performed. -/
def State.flightLine (s : State) (f : Flight) (p : Place) : Bool := s.unanswered f.seq p || s.lineReady f.ctx f.bytes.isSome p

/-- Every home of an access under way can serve it. -/
def State.flightReady (s : State) (f : Flight) : Bool := (linesOf f.pieces).all (s.flightLine f)

/-- The homes that an access under way waits for are asked. -/
def State.askFlight (s : State) (f : Flight) : State :=
  s.askAll f.ctx ((linesOf f.pieces).filter fun p => !s.flightLine f p) f.bytes.isSome

/-- What comes of a read that the device makes. -/
inductive Fetched
  /-- a fault at an address, with CODE and DETAIL -/
  | fault (a code detail : Nat)
  /-- it waits for its homes -/
  | waits (s : State)
  /-- the bytes, the source of the first poison, and the greatest W of the lines -/
  | got (bytes : List Byte) (bad : Option Nat) (w : Nat)

/-- The greatest W of the lines of a range. -/
def State.latestW (s : State) (ps : List (Place × Nat × Nat)) : Nat := (linesOf ps).foldl (fun m p => max m (s.lineOf p).w) 0

/-- A read of a global range that the device makes for a launch, a graph or a restart: at once, or when its homes can serve it. -/
def State.fetchFor (s : State) (ctx who va n : Nat) : Fetched :=
  match s.flightOf who va with
  | some f =>
    if s.flightReady f then .got (s.readPlaces ctx f.pieces).1 (s.poisonIn (s.unanswered f.seq) ctx f.pieces) (s.latestW f.pieces) else .waits (s.askFlight f)
  | none => match s.placesOf ctx va n false with
    | .error (a, code, d) => .fault a code d
    | .ok ps =>
      if s.placesReady ctx ps false then .got (s.readPlaces ctx ps).1 (s.readPlaces ctx ps).2 (s.latestW ps) else .waits (s.takeOff ctx who va ps none)

/-- A translation that met an ill-formed entry is logged as class 9 (R317). -/
def State.logIllFormed (s : State) (ctx : Nat) (addr : Scalar) (code detail : Nat) : State :=
  if code = 7 ∧ detail = 3 then s.error 9 0 ctx addr 0 else s

/-! ## Checkpoint slots (R295, R296) -/

/-- Bytes of a slot of a group of width `w`. -/
def slotBytes (w : Nat) : Nat := 1024 + 384 * w

/-- The address of a group's slot, 0 if its launch has no area. -/
def State.slotOf (s : State) (g : Group) : Nat :=
  let x := s.launchAt g.launch
  if x.area = 0 ∨ g.role ≠ .kernel then 0
  else
    let n := x.rcd.groups + 1
    x.area + (s.copyOf g * (x.rcd.groves + 1) * n + g.grx * n + g.gix) * slotBytes g.width

/-- A slot write that fails leaves the group without a restart point: it is logged as class 4, source 0, with the slot's
address and the group's TCAUSE, and at least kills the context (R300, R313). -/
def State.slotLost (s : State) (g : Group) (slot : Nat) : State :=
  s.errorAtLeast 3 4 0 g.ctx (BitVec.ofNat 64 slot) (g.tcause.setWidth 32)

/-- The write's home can take it, and no earlier write of the same bytes waits. -/
def State.slotReady (s : State) (w : SlotWrite) : Bool :=
  (s.homeOwns w.ctx w.place || s.blocked w.ctx w.place) && !s.unanswered w.seq w.place &&
  !s.slotWrites.any fun v => decide (v.seq < w.seq) && v.place.meets v.bytes.length w.place w.bytes.length

/-- A slot write performed, or dropped and logged where a VF in ERROR bars it (R357). -/
def State.performSlot (s : State) (w : SlotWrite) : State :=
  if s.barred w.ctx true w.place then s.error 8 6 w.ctx (BitVec.ofNat 64 w.va) 0
  else (s.homeWrite w.ctx w.place w.bytes w.clk).1

/-- One slot write: at once, or once its home has the line (R239, R242). -/
def State.putSlot (s : State) (w : SlotWrite) : State :=
  if s.slotReady w then s.performSlot w else { s with slotWrites := s.slotWrites ++ [w] }.ask w.ctx w.place true

/-- Bytes written into a group's slot as home writes.  One that faults in translation, or meets an uncorrectable error, is
the loss of the slot (R300). -/
def State.slotWrite (s : State) (gid : Nat) (g : Group) (off : Nat) (bytes : List Byte) : State :=
  let slot := s.slotOf g
  match s.placesOf g.ctx (slot + off) bytes.length true with
  | .error (a, code, d) => (s.logIllFormed g.ctx (BitVec.ofNat 64 a) code d).slotLost g slot
  | .ok ps =>
    if ps.any fun (p, _, n) => !s.barred g.ctx true p && s.isPoisoned p n then s.slotLost g slot
    else ps.foldl (fun (s : State) (p, o, n) => (linePieces p n).foldl (fun (s : State) (q, o', m) =>
      s.fresh.putSlot { seq := s.nextId, gid := gid, ctx := g.ctx, va := slot + off + o + o', place := q,
                        bytes := (bytes.drop (o + o')).take m, clk := g.clk }) s) s

/-! ## Discard and preemption (R300, R301) -/

/-- The group has a store, atomic or reduction not yet acknowledged. -/
def State.storesLeft (s : State) (gid : Nat) : Bool :=
  (s.entries.any fun e => decide (e.gid = gid)) || (s.atoms.any fun a => decide (a.gid = gid) && a.lanes ≠ [])

/-- A write of the group's slot waits for its home. -/
def State.slotLeft (s : State) (gid : Nat) : Bool := s.slotWrites.any fun w => decide (w.gid = gid)

/-- The group has a store on its way to a place without times. -/
def State.localsLeft (s : State) (gid : Nat) : Bool := s.locals.any fun x => decide (x.gid = gid)

/-- A discarded group's DCLK and DEPOCH are written once every acknowledgement has returned (R300). -/
def State.settle (s : State) (gid : Nat) : State :=
  match s.groupAt gid with
  | none => s
  | some g =>
    if g.wait = .discarded ∧ ¬ s.storesLeft gid ∧ s.slotOf g ≠ 0 then
      let dclk := g.acks.foldl max g.clk
      s.slotWrite gid g 0x30 (toBytes dclk 8 ++ toBytes s.epoch 4)
    else s

/-- A discarded group: its outstanding results and its matrix work are dropped; the acknowledgements `acks` have come. -/
def Group.dropped (g : Group) (acks : List Nat) : Group :=
  { g with acks := acks ++ g.acks, results := [], batches := [], openOps := [], wait := .discarded, held := none, occ := none,
           doneP := 0, mark := false, holding := false, early := [], replay := none, offGens := [], evictSince := none, demoted := none, heldTrap := none,
           mode := .user, compareDue := false, refusedPark := 0 }

/-- The atomic has been performed in every lane. -/
def Atomic.finished (a : Atomic) : Bool := decide (a.lanes = [])

/-- A discarded group's accesses: its loads return nothing, the entries held for a compare are dropped, and its atomics go
on as reductions. -/
def State.dropAccesses (s : State) (gid : Nat) : State :=
  { s with
    loads := s.loads.filter (fun x : Load => decide (x.gid ≠ gid)),
    flights := s.flights.filter (fun f : Flight => decide (f.who ≠ gid)),
    entries := s.entries.filter (fun e : Entry => !(decide (e.gid = gid) && e.held)),
    atoms := (s.atoms.filter (fun a : Atomic => !(decide (a.gid = gid) && a.finished))).map
      fun a : Atomic => if a.gid = gid then { a with returns := false } else a }

/-- Discard of a group (R300): issue stops, outstanding results and matrix work are dropped, stores and accepted
copies go on; the slot receives the counts.  An atomic that has been performed is acknowledged by its discard, to the copies that it
holds too (R277). -/
def State.discard (s : State) (gid : Nat) : State :=
  match s.groupAt gid with
  | none => s
  | some g =>
    let finished := s.atoms.filter fun a : Atomic => decide (a.gid = gid) && a.finished
    let g' := finished.foldl (fun (g : Group) a => g.unmark [a.seq] a.t) (g.dropped (finished.map fun a : Atomic => a.t))
    let s := finished.foldl (fun (s : State) a => s.raiseStamps [a.seq] a.t) s
    let s := (s.dropAccesses gid).setGroup gid g'
    let noSlot := decide (s.slotOf g = 0)
    let s := if noSlot then s else s.slotWrite gid g' 0x25 (toBytes g.mlast.toNat 1)
    let s := if noSlot then s else s.slotWrite gid g' 0x28 (toBytes g.cpyDone 4 ++ toBytes (max g.gredCount g.gredSkip) 4)
    s.settle gid

/-- One group met by a preemption (R301): a handler runs to its `tret` or `exit`, a group without a restart point to
its next `region`; every other group is discarded at once, and so is one parked in `svc`, or on a replayable fault if
the context suspends (R346). -/
def State.preemptGroup (s : State) (gid : Nat) : State :=
  match s.groupAt gid with
  | none => s
  | some g =>
    let parked := match g.wait with
      | .svc _ => true
      | .guardian _ => decide ((s.contextAt g.ctx).state = .suspended)
      | _ => false
    if g.wait = .discarded ∨ g.wait = .stopped ∨ g.role ≠ .kernel then s
    else if !parked && (decide (g.mode = .steward) || decide (g.rstate = 2)) then
      (if g.evictSince.isSome then s else s.setGroup gid { g with evictSince := some (s.coreAt g.core).clock })
    else s.discard gid

/-- Groups of a context, by key. -/
def State.groupsOf (s : State) (ctx : Nat) : List Nat :=
  (s.groups.filter fun e => decide (e.2.ctx = ctx)).map (·.1)

/-- A preemption of a context (R301). -/
def State.preempt (s : State) (ctx : Nat) : State := (s.groupsOf ctx).foldl State.preemptGroup s

/-- The notices of types 1 and 2 of a context without a guardian are dropped: the restarts of their groups raise them
again (R348). -/
def Context.dropNotices (x : Context) : Context :=
  if x.guardians = [] then
    { x with notices := x.notices.map fun n : Notice => if n.type ≤ 2 ∧ ¬ n.answered then { n with answered := true, gid := none } else n }
  else x

def State.dropNotices (s : State) (ctx : Nat) : State := { s with contexts := s.contexts.alter ctx Context.dropNotices }

/-- Suspension (R346): a preemption; GDN reads 3 at once, notices of types 1 and 2 are dropped with their groups
(R348), and the reap timer starts when no guardian is left. -/
def State.suspend (s : State) (ctx : Nat) : State :=
  match s.contexts.at? ctx with
  | none => s
  | some x =>
    let s := s.setContext ctx { x with
      state := .suspended,
      reapFrom := if x.guardians = [] then some s.time else x.reapFrom,
      notices := x.notices.map fun n : Notice => if n.type ≤ 2 ∧ ¬ n.answered then { n with answered := true, gid := none } else n }
    s.preempt ctx

/-- A launch of the context is not complete, or a record waits, or a graph runs (R346). -/
def State.hasWork (s : State) (ctx : Nat) : Bool :=
  (s.launches.any fun e => decide (e.2.ctx = ctx) && !e.2.complete) || (s.graphs.any fun e => decide (e.2.ctx = ctx)) ||
  decide ((s.contextAt ctx).submits ≠ [])

/-- An event that an orphan cannot survive (R346): the context suspends if it is ORPHANED. -/
def State.orphanTrigger (s : State) (ctx : Nat) : State :=
  if (s.contextAt ctx).state = .orphaned then s.suspend ctx else s

/-! ## Evictions and restores asked for (R304, R327) -/

/-- An eviction of a context begins (R304): its groups are discarded, or run to where they may be. -/
def State.startEviction (s : State) (ctx : Nat) : State :=
  ({ s with contexts := s.contexts.alter ctx fun x : Context => { x with evicting := true } }).preempt ctx

/-- The oldest request that has an effect is taken up, once nothing is in progress (R327): an eviction of a context that is
on its cores, a restore of one that is not. -/
def State.takeAskedFrom (s : State) (ctx : Nat) : (fuel : Nat) → State
  | 0 => s
  | fuel + 1 =>
    let x := s.contextAt ctx
    if x.evicting || x.restoring then s
    else match x.asked with
      | [] => s
      | restore :: rest =>
        let t := s.setContext ctx { x with asked := rest }
        if restore != x.evicted then t.takeAskedFrom ctx fuel
        else if restore then t.setContext ctx { x with asked := rest, restoring := true }
        else t.startEviction ctx

/-- The requests that waited are taken up, when an eviction or restore has ended or is abandoned (R327). -/
def State.takeAsked (s : State) (ctx : Nat) : State :=
  if (s.contexts.at? ctx).isNone then s else s.takeAskedFrom ctx (s.contextAt ctx).asked.length

/-- A write of a group of the context that `p` picks by its number has still to be performed (R326). -/
def State.writesWhere (s : State) (ctx : Nat) (p : Nat → Bool) : Bool :=
  (s.entries.any fun e => decide (e.ctx = ctx) && p e.gid) || (s.atoms.any fun a => decide (a.ctx = ctx) && a.lanes ≠ [] && p a.gid) ||
  (s.slotWrites.any fun w => decide (w.ctx = ctx) && p w.gid) || s.locals.any fun x => decide (x.ctx = ctx) && p x.gid

/-- The group served an eviction or restore, or has ended. -/
def State.notKernel (s : State) (gid : Nat) : Bool := !(s.groupAt gid).any fun g => decide (g.role = .kernel)

end Sys2Proof.Machine
end

