-- ==== Sys2Proof/Machine/Ops.lean ====
section
/-! DEFINITION. The operations that every word shares: d-field results and write generations (R45 to R48, R177), taking
an exception (R289 to R291) and returning from one (R292), partial faults (R294), the checks of R56, the operand
hazards (R255), and `word`, which runs a word's meaning under them. -/

namespace Sys2Proof.Machine

/-! ## The word at issue -/

/-- The fate of the word at issue set. -/
def State.fate (s : State) (f : Fate) : State := { s with cur := s.cur.map fun c => { c with fate := f } }

/-- The group replaced and the word held, waiting as `w` says. -/
def State.hold (s : State) (gid : Nat) (g : Group) (w : Wait) : State :=
  (s.setGroup gid { g with wait := w }).fate .hold

/-! ## d-field results (R45 to R48, R177) -/

/-- Earlier outstanding results to a register no longer write it: a later write of it has been issued (R47). -/
def Group.supersede (g : Group) (k : Nat) : Group :=
  { g with results := g.results.map fun r : Result => if r.dest.keys.contains k then { r with past := k :: r.past } else r }

/-- A write generation taken for a register: the issues of one offset share one of each vector register (R177), and
every scalar write takes a fresh one. -/
def Group.takeGen (g : Group) (k : Nat) : Group :=
  if k < 1024 ∧ g.offGens.contains k then g
  else
    let g := g.supersede k
    { g with gens := g.gens.put k ((g.gens.at? k).getD 0 + 1), offGens := if k < 1024 then k :: g.offGens else g.offGens }

/-- The generation of a register. -/
def Group.genOf (g : Group) (k : Nat) : BitVec 4 := (g.gens.at? k).getD 0

/-- A write made at issue counts as a write under R48: earlier outstanding results to the register are dropped. -/
def Group.bumpGen (g : Group) (k : Nat) : Group :=
  let g := g.supersede k
  { g with gens := g.gens.put k ((g.gens.at? k).getD 0 + 1) }

/-- A scalar written at issue (R67, R290, R292). -/
def Group.writeNow (g : Group) (k : Nat) (v : Scalar) : Group := (g.setScalar k v).bumpGen (1024 + k)

/-- The outstanding writes of a register that hold distinct generations. -/
def Group.outstanding (g : Group) (k : Nat) : Nat :=
  ((g.results.filterMap fun r => (r.dest.keys.zip r.tag).find? fun e => e.1 == k).map (·.2)).dedup.length

/-- A result issued: generations are taken and the result joins the outstanding ones. -/
def State.pushResult (s : State) (gid : Nat) (g : Group) (r : Result) : State :=
  let g := r.dest.keys.foldl Group.takeGen g
  let r := { r with seq := s.nextId, tag := r.dest.keys.map g.genOf }
  (s.fresh).setGroup gid { g with results := g.results ++ [r] }

/-- A vector result of `n` registers under the issue mask: lane i of member k gets `f k i`.  With an empty mask nothing is
written and no write is issued (R111, R171). -/
def State.vecResult (s : State) (c : Issue) (g : Group) (d : Reg) (n : Nat) (flags : BitVec 5) (f : Nat → Nat → Lane) : State :=
  let lanes := lanesOf g.width c.mask
  if c.mask = 0 then s
  else s.pushResult c.gid g
    { (default : Result) with
      dest := g.dest d n, mask := c.mask, flags := flags, ready := true,
      vals := ((List.range n).map fun k => lanes.map fun i => (64 * k + i, f k i)).flatten }

/-- A scalar result: one value for each scalar of the destination. -/
def State.scalResult (s : State) (c : Issue) (g : Group) (d : Reg) (vs : List Scalar) (flags : BitVec 5) : State :=
  s.pushResult c.gid g
    { (default : Result) with dest := g.dest d vs.length, mask := c.mask, flags := flags, ready := true, svals := vs }

/-- One register of a returning result written, if its generation is still the register's. -/
def Group.writeResult (g : Group) (r : Result) (k key : Nat) : Group :=
  if r.tag.getD k 0 = g.genOf key ∧ !r.past.contains key then
    if key = 2048 then { g with cm := widthMask g.width (r.svals.getD k 0) }
    else if 1024 ≤ key then g.setScalar (key - 1024) (r.svals.getD k 0)
    else (lanesOf g.width r.mask).foldl (fun g i => g.setLane key i ((r.vals.at? (64 * k + i)).getD 0)) g
  else g

/-- The return of a result (R48): each register is written, or left when a later write was issued; the flags merge
either way (R98). -/
def Group.deliver (g : Group) (r : Result) : Group :=
  let g := { g with results := g.results.filter fun x => x.seq ≠ r.seq }
  let g := (r.dest.keys.zipIdx).foldl (fun g (key, k) => g.writeResult r k key) g
  g.mergeFlags r.flags

/-- The result may return: its data has arrived, and no earlier store of the group to one of its registers through the register
space is still on its way, nor an earlier load of it from there to be performed (R35, R82, log 10). -/
def State.resultReady (s : State) (gid : Nat) (g : Group) (r : Result) : Bool :=
  let meets (p : Place) (n : Nat) : Bool := r.dest.keys.any fun k => p.meets n (.regs gid (k * g.width * 4)) (g.width * 4)
  r.ready && !(s.locals.any fun x => decide (x.gid = gid) && decide (x.seq < r.seq) && meets x.place x.size) &&
    !s.loads.any fun x => decide (x.gid = gid) && decide (x.seq < r.seq) && x.rest.any fun l => meets l.place x.size

/-! ## Steward faults (R291) -/

/-- TCAUSE, TADDR, TLANE, TOFF and TPLN recorded (R179, R180, R289). -/
def Group.record (g : Group) (code detail : Nat) (taddr : Scalar) (tlane : Mask) (toff plane : Nat) : Group :=
  { g with tcause := tcauseWord code detail, taddr := taddr, tlane := tlane, toff := BitVec.ofNat 20 toff,
           tdone := g.doneP, tplane := BitVec.ofNat 2 plane, tocc := g.occ.getD 0 }

/-- The groups that serve an eviction or restore of a context are stopped for good: it is abandoned, its groves stay off their
cores, and a request that waited is taken up (R304, R327).  Their stores go on, and are waited for (R326). -/
def State.abandon (s : State) (ctx : Nat) : State :=
  let serving (g : Group) : Bool := decide (g.ctx = ctx) && decide (g.role ≠ .kernel)
  let gone (gid : Nat) : Bool := (s.groupAt gid).any serving
  let s := s.endSlice ctx
  ({ s with contexts := s.contexts.alter ctx (fun x => { x with evicting := false, restoring := false, evicted := true }),
            groves := s.groves.mapVals (fun v : Grove => if v.ctx = ctx then { v with placed := false } else v),
            loads := s.loads.filter (fun x : Load => !gone x.gid), flights := s.flights.filter (fun f : Flight => !gone f.who),
            groups := s.groups.filter (fun e => !serving e.2) } : State).takeAsked ctx

/-- A steward fault: the group stops; the event is logged as class 10 for CODE 11 and 12 and as class 4 for every
other cause; an eviction or restore that the group serves is abandoned (R304). -/
def State.stewardFault (s : State) (gid : Nat) (g : Group) (code : Nat) : State :=
  let s := { s.setGroup gid { g with wait := .stopped, held := none } with
    loads := s.loads.filter (fun x : Load => !(decide (x.gid = gid) && x.own)), flights := s.flights.filter fun f : Flight => decide (f.who ≠ gid) }
  let s := if g.role = .kernel then s else s.abandon g.ctx
  s.error (if code = 11 ∨ code = 12 then 10 else 4) 0 g.ctx g.taddr (g.tcause.setWidth 32)

/-! ## Taking an exception (R290) -/

/-- The entry into the steward handler, once the outstanding results are complete: the trap registers have been
recorded; s20 to s23 go to the hidden frame, the mode changes, s20 names the checkpoint slot, and the group goes on
at offset 0 of TVEC. -/
def State.enter (s : State) (gid : Nat) (g : Group) : State :=
  let g := { g with frame := [g.scalar 20, g.scalar 21, g.scalar 22, g.scalar 23], mode := .steward, off := 0,
                    occ := none, doneP := 0, offGens := [], holding := false, early := [], replay := none, wait := .none, held := none,
                    trapMark := g.mark, mark := false, entered := (s.coreAt g.core).clock }
  s.setGroup gid (g.writeNow 20 (BitVec.ofNat 64 (s.slotOf g)))

/-- A cause delivered to the steward (R289, R290): recorded, with whether the word will be confined to TLANE if its CODE, as `tret` finds
it, is 7 or 8 (log 96); a steward fault in steward mode or with no handler; else
the entry, after the outstanding results are complete (R50). -/
def State.trap (s : State) (gid : Nat) (g : Group) (code detail : Nat) (taddr : Scalar) (tlane : Mask)
    (plane : Nat) (lanes : Bool) : State :=
  let g' := { g.record code detail taddr tlane g.off plane with laneTrap := lanes || !(code == 7 || code == 8), vec := (s.contextAt g.ctx).tvec }
  if g.mode = .steward ∨ (s.contextAt g.ctx).tvec = 0 then s.stewardFault gid g' code
  else if g.results = [] then s.enter gid g'
  else s.setGroup gid { g' with wait := .trap }

/-- A precise trap of the word at issue; its park mark is kept for the return (R49). -/
def State.trapWord (s : State) (c : Issue) (g : Group) (code detail : Nat) (taddr : Scalar) (tlane : Mask) : State :=
  (s.trap c.gid { g with wait := .none, held := none, trapOwn := c.mark } code detail taddr tlane c.plane false).fate .left

/-- A handle fault for which the manual gives no TADDR and TLANE: both are free values. -/
def State.openHandleFault (s : State) (c : Issue) (g : Group) (detail : Nat) : State :=
  s.draw.draw.trapWord c g 10 detail (Config.unstated s.draws) (Config.unstated (s.draws + 1))

/-- A handle fault for which the manual gives TADDR and no TLANE: TLANE is a free value. -/
def State.addrHandleFault (s : State) (c : Issue) (g : Group) (detail : Nat) (taddr : Scalar) : State :=
  s.draw.trapWord c g 10 detail taddr (Config.unstated s.draws)

/-- A replayable fault (R294): a notice to the guardian, during which the group parks.  In steward mode it is a
steward fault (R291); an orphan suspends (R346), and so does a group that a suspension waits for. -/
def State.guardianFault (s : State) (gid : Nat) (g : Group) (code detail : Nat) (taddr : Scalar) (tlane : Mask)
    (plane : Nat) (lanes : Bool) : State :=
  let g' := { g.record code detail taddr tlane g.off plane with laneTrap := lanes, held := none }
  let x := s.contextAt g.ctx
  if g.mode = .steward then s.stewardFault gid g' code
  else
    let s := (s.setGroup gid { g' with wait := .guardian x.nextNotice }).raise g.ctx
      { (default : Notice) with
        type := 1, gix := g.gix, grx := g.grx, toff := g.off, tcause := tcauseWord code detail, taddr := taddr,
        tlane := tlane, gid := some gid }
    if x.state = .orphaned then s.suspend g.ctx
    else if x.state = .suspended then (s.dropNotices g.ctx).discard gid
    else s

/-- A fault of translation or protection, delivered as R317 says, if its group has not been killed meanwhile. -/
def State.deliverFault (s : State) (gid : Nat) (g : Group) (code detail : Nat) (taddr : Scalar) (tlane : Mask)
    (plane : Nat) (lanes : Bool) : State :=
  match s.groupAt gid with
  | none => s
  | some _ =>
    if replayable code detail then s.guardianFault gid g code detail taddr tlane plane lanes
    else s.trap gid g code detail taddr tlane plane lanes

/-- A fault of translation or protection: an ill-formed entry is logged (R317), and the fault is delivered. -/
def State.transFault (s : State) (gid : Nat) (g : Group) (code detail : Nat) (taddr : Scalar) (tlane : Mask)
    (plane : Nat) (lanes : Bool) : State :=
  (s.logIllFormed g.ctx taddr code detail).deliverFault gid g code detail taddr tlane plane lanes

/-! ## The return from an exception (R292) -/

/-- The resume point of the cause in TCAUSE is the next word: `brk`, `trap` and `svc` (R289). -/
def resumesNext (tcause : Scalar) : Bool := bitsOf tcause.toNat 4 0 == 9 || bitsOf tcause.toNat 4 0 == 13

/-- `tret`: the hidden frame and user mode come back, and the group resumes at the offset, planes and lanes that the
control registers name.  A word that completed by its trap (`brk`, `trap`) has its park mark counted (R49).  The planes left
issue in ascending order: R180 has them start with TPLN.PLANE, which is the lowest of them unless the handler has changed
TPLN, and for that the model follows R292 (log 79). -/
def Group.resume (g : Group) : Group :=
  let code := bitsOf g.tcause.toNat 4 0
  let mark := g.trapMark || (resumesNext g.tcause && g.trapOwn)
  let g := (g.frame.zipIdx).foldl (fun g (v, k) => g.writeNow (20 + k) v) g
  let done := if resumesNext g.tcause then g.tdone ||| BitVec.ofNat 4 (2 ^ g.tplane.toNat) else g.tdone
  let g := { g with mode := .user, doneP := 0, occ := none, offGens := [], mark := false, holding := false, early := [], off := g.toff.toNat,
                    replay := if g.laneTrap ∧ (code = 7 ∨ code = 8) then some (g.tplane.toNat, g.tlane) else none }
  if done = 0 then g
  else if g.tocc &&& ~~~done = 0 then
    { g with off := g.toff.toNat + 1, replay := none, wait := if mark then .run else .none }
  else { g with occ := some g.tocc, doneP := done, mark := mark }

/-! ## Illegal words (R56) -/

/-- Access to a control register in a mode (R40): readable, writable. -/
def ctlAccess (mode : Mode) (i : Nat) : Bool × Bool :=
  match mode with
  | .user =>
    if i = 0x03 ∨ i = 0x05 then (false, false)
    else if i ≤ 0x02 ∨ i = 0x10 then (true, true)
    else (true, false)
  | .steward => if i ≤ 0x0A ∨ i = 0x10 then (true, true) else (true, false)

/-- A `ctlwr` value sets a reserved bit or gives a field a value out of range (R41 to R43). -/
def ctlBadValue (i : Nat) (v : Scalar) : Bool :=
  let n := v.toNat
  match i with
  | 0x00 => decide (n / 2 ^ 8 ≠ 0) || v.getLsbD 3
  | 0x01 | 0x02 => decide (n / 2 ^ 8 ≠ 0) || decide (n % 256 = 0)
  | 0x03 | 0x05 => decide (n % 256 ≠ 0)
  | 0x04 | 0x09 => decide (n / 2 ^ 20 ≠ 0)
  | 0x06 => decide (n / 2 ^ 16 ≠ 0) || decide (bitsOf n 7 5 ≠ 0) || decide (16 ≤ bitsOf n 4 0)
  | 0x0A => decide (n / 2 ^ 12 ≠ 0) || decide (bitsOf n 7 6 ≠ 0)
  | 0x10 => decide (n / 2 ^ 5 ≠ 0)
  | _ => false

/-- The DETAIL that a control register access gives in the group's mode. -/
def ctlDetail (g : Group) (write : Bool) (l : BitVec 7) (v : Scalar) : Option (BitVec 8) :=
  let i := l.toNat
  if 0x13 ≤ i then none
  else
    let (r, w) := ctlAccess g.mode i
    if !write then (if r then none else some 0x08)
    else if !r then some 0x08
    else if !w then some 0x06
    else if ctlBadValue i v then some 0x0A
    else none

/-- The DETAIL that the machine's state gives a word (R56): a vector register beyond the file, a steward-only word or
register in user mode, a control register or value, a plane literal, a matrix word at width 16, a launch barrier
outside a cooperative launch, `region` in steward mode.  `region` meets its checks in the order of R297: steward mode
(0x0E), then the checkpoint area (a handle fault, in its meaning), then its registers (0x07). -/
def stateDetail (s : State) (g : Group) (i : Instr) : Option (BitVec 8) :=
  let reached : Bool := match i with
    | .region _ _ => decide (g.mode = .user) && decide (s.slotOf g ≠ 0)
    | _ => true
  let bound : Option (BitVec 8) :=
    if reached && (wordVectors i).any fun e => decide (g.nregs < g.winb + e.1 + e.2) then some 0x07 else none
  let other : Option (BitVec 8) := match i with
    | .tret | .sealst _ _ _ | .sealld _ _ _ | .dsave _ | .dload _ => if g.mode = .user then some 0x08 else none
    | .ctlrd _ l => ctlDetail g false l 0
    | .ctlwr a l => ctlDetail g true l (g.srcS .a a)
    | .plsel l | .plmask l => if g.planes ≤ l.toNat then some 0x0B else none
    | .mma _ _ _ _ _ | .mmas _ _ _ _ _ | .mzero _ => if g.width = 16 then some 0x0C else none
    | .barArr l | .barWt l | .barSync l | .barQ _ l =>
      if l.toNat / 32 = 2 ∧ ¬ (s.recordOf g).coop then some 0x0D else none
    | .region _ _ => if g.mode = .steward then some 0x0E else none
    | _ => none
  lowerDetail bound other

/-- The lowest DETAIL of an illegal word, none for a word that may go on (R56). -/
def illegalDetail (s : State) (g : Group) (i : Instr) : Option (BitVec 8) :=
  lowerDetail i.detail (stateDetail s g i)

/-! ## Operand hazards (R255) -/

/-- Pending matrix instructions, oldest first, with the number their batch has or will receive. -/
def Group.pendingOps (g : Group) : List (MatOp × BitVec 4) :=
  ((g.batches.map fun b => b.ops.map fun o => (o, b.number)).flatten) ++ g.openOps.map fun o => (o, g.mlast + 1)

/-- The batch number of the oldest pending instruction that uses one of the registers. -/
def Group.regHazard (g : Group) (ps : List Nat) : Option (BitVec 4 × Nat) :=
  match g.pendingOps.find? fun o => ps.any fun p => o.1.regs.contains p with
  | none => none
  | some (_, n) =>
    some (n, (ps.filter fun p => g.pendingOps.any fun o => o.1.regs.contains p).foldl min 1024)

/-- A write of `n` bytes at a place meets a pending instruction's operand bytes or the bytes of its registers. -/
def Group.opMeets (g : Group) (gid : Nat) (o : MatOp) (p : Place) (n : Nat) : Bool :=
  (o.foot.any fun f => f.1.meets f.2 p n) ||
  (o.regs.any fun r => p.meets n (.regs gid (r * g.width * 4)) (g.width * 4))

/-- The batch number of the oldest pending instruction that a store would disturb, and the lanes that disturb one. -/
def Group.memHazard (g : Group) (gid : Nat) (ws : List (Nat × Place × Nat)) : Option (BitVec 4 × List Nat) :=
  match g.pendingOps.find? fun o => ws.any fun w => g.opMeets gid o.1 w.2.1 w.2.2 with
  | none => none
  | some (_, n) =>
    some (n, (ws.filter fun w => g.pendingOps.any fun o => g.opMeets gid o.1 w.2.1 w.2.2).map (·.1))

/-- The vector registers that a word's destinations write. -/
def vectorDests (g : Group) (i : Instr) : List Nat :=
  ((wordDests i g).map fun d => match d with
    | .vec p n => (List.range n).map (p + ·)
    | .scal _ _ | .cm | .nul => []).flatten

/-! ## Running a word's meaning -/

/-- A destination of the word has 15 writes outstanding (R48). -/
def stalled (g : Group) (i : Instr) : Bool :=
  ((wordDests i g).map Dest.keys).flatten.any fun k => decide (15 ≤ g.outstanding k) && !(g.offGens.contains k)

/-- The word touches memory for the issuing lanes alone: with none it does nothing and raises nothing, whatever registers
it names (R80, R171). -/
def lanesAlone : Instr → Bool
  | .vldB _ _ _ | .vldBI _ _ _ | .vldH _ _ _ | .vldHI _ _ _ | .vldW _ _ _ | .vldD _ _ _ | .vldQ _ _ _ => true
  | .vldWO _ _ _ | .vldDO _ _ _ | .vstB _ _ _ | .vstH _ _ _ | .vstW _ _ _ | .vstD _ _ _ | .vstQ _ _ _ => true
  | .vstWO _ _ _ | .vstDO _ _ _ => true
  | .vatomAdd _ _ _ | .vatomAddf _ _ _ | .vatomMinI _ _ _ | .vatomMaxI _ _ _ | .vatomAnd _ _ _ | .vatomOr _ _ _ => true
  | .vatomXor _ _ _ | .vatomXchg _ _ _ | .vatomCas _ _ _ => true
  | .gredAdd _ _ _ | .gredAddf _ _ _ | .gredMaxI _ _ _ | .sqredAddf _ _ _ | .sqredAdd _ _ _ => true
  | _ => false

/-- The state of the group raises no illegal-instruction trap of the word: it is `vpref`, which never traps (R87), or a word of
`lanesAlone` without an issuing lane. -/
def excused (c : Issue) (i : Instr) : Bool :=
  match i with
  | .vpref _ _ => true
  | i => decide (c.mask = 0) && lanesAlone i

/-- The meaning `k` of a word of the group at issue, under the checks that every word meets: the illegal-instruction
trap (R56), the operand hazard of its vector destinations (R255), the stall for want of a generation (R48).  A load's
destination is checked for the hazard before its addresses, a store's addresses before the bytes they disturb: the manual
orders neither (log 80). -/
def word (i : Instr) (s : State) (k : Issue → Group → State) : Host.Outcome State Fault Refusal :=
  match s.cur with
  | none => .fault .noIssuingGroup
  | some c => match s.groupAt c.gid with
    | none => .fault .noIssuingGroup
    | some g =>
      match (if excused c i then i.detail else illegalDetail s g i) with
      | some d => .next (s.trapWord c g 1 d.toNat (BitVec.ofNat 64 c.addr) 0)
      | none =>
        match (if c.mask = 0 then none else g.regHazard (vectorDests g i)) with
        | some (n, p) =>
          .next (s.trapWord c g 5 n.toNat (0xFFF2_0000_0000_0000 + BitVec.ofNat 64 (p * g.width * 4)) c.mask)
        | none => if stalled g i then .next (s.hold c.gid g .stall) else .next (k c g)

end Sys2Proof.Machine
end

