-- ==== Sys2Proof/Machine/Access.lean ====
section
/-! DEFINITION. The accesses of a word: the checks of R78, translation and partial faults (R79, R294), loads (R83,
R215, R217), stores (R85, R218, R201), atomics and far reductions (R228), the signature of a redundant copy (R309),
and poisoned data (R302). -/

namespace Sys2Proof.Machine

/-- One access of a word: its lane, its address, where its bytes are. -/
abbrev Located := Nat × Scalar × Place

/-- One access that faults: its lane, its address, CODE and DETAIL. -/
abbrev Faulted := Nat × Scalar × Nat × Nat

/-! ## Checks (R78) -/

/-- The trap of R78 for a word's accesses, none when every address passes: alignment first, then the map.  `regs` says
whether the register space counts as inside the map (R227). -/
def State.addressTrap (s : State) (c : Issue) (g : Group) (scalar regs : Bool) (size : Nat) (la : List (Nat × Scalar)) :
    Option (Nat × Scalar × Mask) :=
  let lanes (l : List (Nat × Scalar)) : Mask := if scalar then 0 else maskOf (l.map (·.1))
  let bad := la.filter fun e => decide (e.2.toNat % size ≠ 0)
  match bad with
  | e :: _ => some (6, e.2, lanes bad)
  | [] =>
    let out := la.filter fun e => match s.mapAddr c.gid g e.2 with
      | none => true
      | some (.here (.regs _ _)) => !regs
      | some _ => false
    match out with
    | e :: _ => some (15, e.2, lanes out)
    | [] => none

/-- Each access translated, in ascending lane order: those that may be performed, and those that fault. -/
def State.locateAll (s : State) (c : Issue) (g : Group) (write : Bool) : List (Nat × Scalar) → State × List Located × List Faulted
  | [] => (s, [], [])
  | (i, a) :: rest =>
    match s.mapAddr c.gid g a with
    | none => s.locateAll c g write rest
    | some m =>
      let (s, r) := s.locate g m write
      let (s, good, bad) := s.locateAll c g write rest
      match r with
      | .ok p => (s, (i, a, p) :: good, bad)
      | .error (code, d) => (s, good, (i, a, code, d) :: bad)

/-- The trap that the faulted accesses of a word decide (R294), after the good ones have been performed; every ill-formed entry
that a lane has met is logged (R317). -/
def State.accessFault (s : State) (c : Issue) (scalar : Bool) (bad : List Faulted) : State :=
  match s.groupAt c.gid, bad with
  | none, _ | _, [] => s
  | some g, (_, a, code, d) :: _ =>
    let tlane : Mask := if scalar then 0 else maskOf (bad.map (·.1))
    let g := { g with wait := .none, held := none, trapOwn := c.mark }
    let s := bad.foldl (fun (s : State) f => s.logIllFormed g.ctx f.2.1 f.2.2.1 f.2.2.2) s
    (match bad.find? (fun f : Faulted => !replayable f.2.2.1 f.2.2.2) with
      | some (_, _, code', d') => s.deliverFault c.gid g code' d' a tlane c.plane (!scalar)
      | none => s.deliverFault c.gid g code d a tlane c.plane (!scalar)).fate .left

/-- A word's accesses: checked, translated, performed by `k` where they are good, and the word trapped where they are
not. -/
def State.access (s : State) (c : Issue) (g : Group) (scalar write regs : Bool) (size : Nat) (la : List (Nat × Scalar))
    (k : State → Group → List Located → State) : State :=
  match s.addressTrap c g scalar regs size la with
  | some (code, a, m) => s.trapWord c g code 0 a m
  | none =>
    let (s, good, bad) := s.locateAll c g write la
    let s := if good = [] then s else k s g good
    if bad = [] then s else s.accessFault c scalar bad

/-! ## The signature of a redundant copy (R309) -/

/-- One bit of CRC-64 ECMA-182. -/
def crcBit (r : BitVec 64) (b : Bool) : BitVec 64 :=
  let top := r.getLsbD 63 != b
  let r := r <<< 1
  if top then r ^^^ 0x42F0E1EBA9EA3693 else r

/-- One byte of CRC-64 ECMA-182, most significant bit first: no reflection. -/
def crcByte (r : BitVec 64) (b : Byte) : BitVec 64 :=
  (List.range 8).foldl (fun r i => crcBit r (b.getLsbD (7 - i))) r

/-- The 26 bytes folded for one lane: address, data with zeros above, byte mask. -/
def signatureRecord (a : Scalar) (bytes : List Byte) : List Byte :=
  toBytes a.toNat 8 ++ (bytes ++ List.replicate 16 0).take 16 ++ toBytes (2 ^ bytes.length - 1) 2

/-- A global access folded into the signature of a redundant copy. -/
def Group.sign (g : Group) (a : Scalar) (bytes : List Byte) : Group :=
  let sig := (signatureRecord a bytes).foldl crcByte g.sig
  { g with sig := sig, sigCount := g.sigCount + 1, sigLog := g.sigLog.put (g.sigCount + 1) sig }

/-- The global accesses of a word folded, in ascending lane order, when the launch is redundant. -/
def State.signAll (s : State) (g : Group) (ws : List (Scalar × Place × List Byte)) : Group :=
  if s.redundant g then
    ws.foldl (fun g w => if w.2.1.isGlobal then g.sign w.1 w.2.2 else g) g
  else g

/-! ## Loads -/

/-- The newest buffered value of a byte of the group, unless a later atomic of the group is still to be performed on
it (R82, R217). -/
def State.ownByte (s : State) (gid : Nat) (p : Place) : Option Byte :=
  let es := s.entries.filter fun e => decide (e.gid = gid) && decide (e.line = p.line) &&
    (e.bytes.at? (p.offset - p.line.offset)).isSome
  match es.foldl (fun (b : Option Entry) e => match b with
      | none => some e
      | some f => if f.seq < e.seq then some e else some f) none with
  | none => none
  | some e =>
    if s.atoms.any fun a => decide (a.gid = gid) && decide (e.seq < a.seq) && a.lanes.any fun l => l.place.meets a.size p 1
    then none else e.bytes.at? (p.offset - p.line.offset)

/-- A byte that the group stored, drained and has not folded, or that an atomic of it changes that has not returned, is read at
the home (R217). -/
def State.readsHome (s : State) (gid : Nat) (g : Group) (p : Place) : Bool :=
  (g.unfolded.any fun u => decide (u.1 = p.line) && Nat.testBit u.2 (p.offset - p.line.offset)) ||
  (s.atoms.any fun a => decide (a.gid = gid) && (a.lanes ++ a.did).any fun l => l.place.meets a.size p 1)

/-- One lane of a load as it issues. -/
def State.loadLane (s : State) (gid : Nat) (g : Group) (size : Nat) (e : Located) : LoadLane :=
  let (i, _, p) := e
  if p.isGlobal then
    let own := (List.range size).filterMap fun k => (s.ownByte gid (p.plus k)).map fun b => (k, b)
    { lane := i, place := p, own := own,
      atHome := (List.range size).any fun k => (s.ownByte gid (p.plus k)).isNone && s.readsHome gid g (p.plus k) }
  else { lane := i, place := p, own := [], atHome := false }

/-- The lanes of a load, those of one sector alike: where one of them is to be read at the home, all are (R217, R273). -/
def sectorsAlike (ls : List LoadLane) : List LoadLane :=
  ls.map fun l => { l with atHome := l.place.isGlobal && ls.any fun k => k.atHome && decide (k.place.sector = l.place.sector) }

/-- A load none of whose lanes has been read. -/
def State.newLoad (s : State) (c : Issue) (g : Group) (size : Nat) (widen : Widen) (good : List Located) : Load :=
  let lanes := sectorsAlike (good.map fun e => s.loadLane c.gid g size e)
  { seq := s.nextId, gid := c.gid, size := size, widen := widen, lanes := lanes, clk := g.clk, lease := g.lease.toNat,
    rest := lanes, data := [], w := 0, hit := true, poison := none, own := false }

/-- A load issues: its result is outstanding, its reads are still to be performed (R83, R215). -/
def State.issueLoad (s : State) (c : Issue) (g : Group) (dest : Dest) (size : Nat) (widen : Widen) (good : List Located) : State :=
  let x := s.newLoad c g size widen good
  let s := s.pushResult c.gid g
    { (default : Result) with dest := dest, mask := maskOf (good.map (·.1)), ready := false }
  { s with loads := s.loads ++ [x] }

/-- The register data of a load's value: the 32-bit word of member k (R83). -/
def Widen.lane (w : Widen) (v k : Nat) : Lane :=
  match w with
  | .sign8 => (BitVec.ofNat 8 v).signExtend 32
  | .sign16 => (BitVec.ofNat 16 v).signExtend 32
  | .zero8 | .zero16 | .word | .dword | .qword => BitVec.ofNat 32 (v / 2 ^ (32 * k))

/-- The data of a returned load put into its result (R83). -/
def Result.fill (r : Result) (x : Load) : Result :=
  let data := x.data
  match r.dest with
  | .vec _ n => { r with ready := true,
                         vals := (data.map fun (i, v) => (List.range n).map fun k => (64 * k + i, x.widen.lane v k)).flatten }
  | .scal _ _ | .cm => { r with ready := true, svals := data.map fun e => BitVec.ofNat 64 e.2 }
  | .nul => { r with ready := true }

/-! ## Stores -/

/-- The entries of a group that a store may merge into: its line, not yet draining. -/
def Entry.takes (e : Entry) (gid : Nat) (line : Place) : Bool :=
  decide (e.gid = gid) && decide (e.line = line) && !e.draining

/-- New entries that stores to these lines would need. -/
def State.newEntries (s : State) (gid : Nat) (lines : List Place) : Nat :=
  (lines.dedup.filter fun l => !(s.entries.any fun e => e.takes gid l)).length

/-- The core's store buffer has room for the stores (R218: 64 entries). -/
def State.bufferRoom (s : State) (gid core : Nat) (lines : List Place) : Bool :=
  decide ((s.entries.filter fun e => decide (e.core = core)).length + s.newEntries gid lines ≤ 64)

/-- One global store put into the store buffer: merged, or a new entry (R218). -/
def State.bufferStore (s : State) (gid : Nat) (g : Group) (seq : Nat) (a : Scalar) (p : Place) (bytes : List Byte) : State :=
  let o := p.offset - p.line.offset
  let put (t : Table Byte) : Table Byte := bytes.zipIdx.foldl (fun t e => t.put (o + e.2) e.1) t
  if s.entries.any fun e => e.takes gid p.line then
    { s with entries := s.entries.map fun e =>
        if e.takes gid p.line then { e with seq := seq, bytes := put e.bytes, clk := max e.clk g.clk } else e }
  else
    { s with entries := s.entries ++
        [{ seq := seq, gid := gid, ctx := g.ctx, core := g.core, line := p.line, va := a.toNat - o, bytes := put [], clk := g.clk,
           born := (s.coreAt g.core).clock, draining := false, held := s.redundant g }] }

/-- A store issues: each lane's bytes, in ascending lane order (R81), go to the store buffer or on their way to a home
without times (R201).  A store takes one issue number. -/
def State.issueStore (s : State) (c : Issue) (g : Group) (ws : List (Scalar × Place × List Byte)) : State :=
  let g' := s.signAll g ws
  let seq := s.nextId
  let s := s.fresh.setGroup c.gid g'
  ws.foldl (fun s w =>
    let (a, p, bytes) := w
    if p.isGlobal then s.bufferStore c.gid g seq a p bytes
    else { s with locals := s.locals ++ [{ seq := seq, gid := c.gid, ctx := g.ctx, place := p, size := bytes.length, data := fromBytes bytes }] }) s

/-- The operand-hazard trap of a word that writes memory (R255), or `k` with the accesses that would be performed; the
checks of R78 come first. -/
def State.overHazard (s : State) (c : Issue) (g : Group) (scalar regs : Bool) (size : Nat) (la : List (Nat × Scalar))
    (k : List Located → State) : State :=
  match s.addressTrap c g scalar regs size la with
  | some (code, a, m) => s.trapWord c g code 0 a m
  | none =>
    let pre := (s.locateAll c g true la).2.1
    match g.memHazard c.gid (pre.map fun e : Located => (e.1, e.2.2, size)) with
    | some (n, lanes) =>
      let a := ((pre.find? (fun e : Located => lanes.contains e.1)).map (fun e : Located => e.2.1)).getD 0
      s.trapWord c g 5 n.toNat a (if scalar then 0 else maskOf lanes)
    | none => k pre

/-- Room is needed in a core's store buffer: every entry of it drains (R218), and every redundant copy with entries held there
comes to a compare (R309). -/
def State.makeRoom (s : State) (core : Nat) : State :=
  let held (gid : Nat) : Bool := s.entries.any fun e => decide (e.core = core) && decide (e.gid = gid) && e.held
  { s with
    entries := s.entries.map (fun e : Entry => if e.core = core then { e with draining := true } else e),
    groups := s.groups.map fun e : Nat × Group => if held e.1 then (e.1, { e.2 with compareDue := true }) else e }

/-- The global lines that a word's accesses store to. -/
def linesStored (l : List Located) : List Place := (l.filter (fun e : Located => e.2.2.isGlobal)).map (fun e : Located => e.2.2.line)

/-- The whole of a store word: operand hazards, room in the buffer, and the stores. -/
def State.storeWord (s : State) (c : Issue) (g : Group) (scalar : Bool) (size : Nat) (la : List (Nat × Scalar))
    (data : Nat → List Byte) : State :=
  s.overHazard c g scalar true size la fun pre =>
    if s.bufferRoom c.gid g.core (linesStored pre) then
      s.access c g scalar true true size la fun s g good =>
        s.issueStore c { g with wait := .none } (good.map fun e => (e.2.1, e.2.2, data e.1))
    else (s.hold c.gid g (.space (64 - s.newEntries c.gid (linesStored pre)))).makeRoom g.core

/-! ## Atomics and far reductions (R228) -/

/-- An atomic or reduction issues: the group's entries for its lines begin to drain first, each lane is then sent, and
a value-returning form has an outstanding result.  The operand of a compare-and-swap in the signature's record is its compare value
(log 100). -/
def State.issueAtomic (s : State) (c : Issue) (g : Group) (op : AtomOp) (size : Nat) (dest : Option Dest)
    (ls : List (Scalar × AtomLane)) : State :=
  let lines := ls.map fun e => e.2.place.line
  let s := { s with entries := s.entries.map fun e : Entry =>
    if e.gid = c.gid ∧ lines.contains e.line then { e with draining := true } else e }
  let g := s.signAll g (ls.map fun e => (e.1, e.2.place, toBytes e.2.v size))
  let a : Atomic :=
    { seq := s.nextId, gid := c.gid, ctx := g.ctx, core := g.core, op := op, size := size, lanes := ls.map (·.2),
      did := [], clk := g.clk, returns := dest.isSome, old := [], t := 0 }
  let s := match dest with
    | some d => s.pushResult c.gid g { (default : Result) with dest := d, mask := maskOf (ls.map fun e : Scalar × AtomLane => e.2.lane), ready := false }
    | none => s.fresh.setGroup c.gid g
  { s with atoms := s.atoms ++ [a] }

/-! ## Poisoned data (R302) -/

/-- A discard whose restart counts in WDOG (R303). -/
def State.strike (s : State) (gid : Nat) : State :=
  let s := s.discard gid
  match s.groupAt gid with
  | none => s
  | some g =>
    let n := min 255 (g.wdog + 1)
    let s := s.setGroup gid { g with wdog := n, errorRestart := true }
    if s.slotOf g = 0 then s else s.slotWrite gid g 0x26 (toBytes n 1)

/-- A group consumes an uncorrectable error: with a restart point, in user mode, it is discarded and restarts in place;
else the context is at least killed.  Both log class 1 with the source where the data lay. -/
def State.consumeError (s : State) (gid source : Nat) : State :=
  match s.groupAt gid with
  | none => s
  | some g =>
    if g.rstate = 1 ∧ g.mode = .user then (s.strike gid).error 1 source g.ctx 0 0
    else s.errorAtLeast 3 1 source g.ctx 0 0

/-! ## The return of a load (R215, R220) -/

/-- CLK rises to the greatest W among the lanes: what a load returns happens before what its group does next (R215, R226).  A
word whose every global lane was a lease hit counts as one; when the count reaches ATICK the automatic tick comes next. -/
def Group.loadClock (g : Group) (x : Load) : Group :=
  let hit := x.hit && x.lanes.any fun l => l.place.isGlobal
  let hits := if hit then g.hits + 1 else g.hits
  { g with clk := max g.clk x.w, hits := hits, tickDue := g.tickDue || (hit && decide (g.atick.toNat ≤ hits)) }

/-! ## A word's own reads and writes (R169, R282, R285, R297, R306) -/

/-- A word's own read has been performed: its group goes on with `k`, with its state before and after it and the values by lane;
or it consumes the poison that it has met (R302). -/
def State.readDone (s : State) (c : Issue) (x : Load) (k : State → Group → Group → List Nat → State) : State :=
  match s.groupAt c.gid with
  | none => s
  | some g =>
    match x.poison with
    | some source => ((s.setGroup c.gid { g with wait := .none, held := none }).consumeError c.gid source).fate .left
    | none =>
      let g := { g with wait := .none }
      k (s.setGroup c.gid (g.loadClock x)) g (g.loadClock x) (x.data.map (·.2))

/-- A word's own read is under way, and its group waits for it. -/
def State.waitRead (s : State) (c : Issue) (g : Group) (x : Load) : State :=
  let x := { x with own := true }
  ({ s.fresh with loads := s.loads ++ [x] }.askLoad x).hold c.gid g (.reading x.seq)

/-- A word's own read: at once, or when the group's earlier accesses of its bytes and its homes allow. -/
def State.beginRead (s : State) (c : Issue) (g : Group) (x : Load) (k : State → Group → Group → List Nat → State) : State :=
  if s.loadReady x then
    let (s, x) := s.performLoad g.ctx g.core x
    s.readDone c x k
  else s.waitRead c g x

/-- What is left of a word's own read, the load of number `seq`: lanes that a severed port has not answered are poisoned (R345). -/
def State.endRead (s : State) (c : Issue) (seq : Nat) (k : State → Group → Group → List Nat → State) : State :=
  match s.loads.find? (fun x => decide (x.seq = seq)), s.groupAt c.gid with
  | some x, some g =>
    let x := if x.rest.any (s.cutLane x) then x.severed (s.cutLane x) else x
    if s.loadReady x then
      let (s, x) := s.performLoad g.ctx g.core x
      { s with loads := s.loads.filter fun y : Load => decide (y.seq ≠ seq) }.readDone c x k
    else (s.askLoad x).fate .hold
  | _, _ => s

/-- A word that reads for itself: `start` comes, if the word gets so far, to its read, translated; `k` goes on behind it. -/
def State.ownRead (s : State) (c : Issue) (g : Group) (k : State → Group → Group → List Nat → State)
    (start : (State → Group → Load → State) → State) : State :=
  match g.wait with
  | .reading seq => s.endRead c seq k
  | _ => start fun s g x => s.beginRead c g x k

/-- A global read of `32 n` bytes of one line at address `a` (R282, R285), as the accesses of a word. -/
def blockAt (n : Nat) (a : Scalar) (p : Place) : List Located :=
  (List.range n).map fun k => (k, a + BitVec.ofNat 64 (32 * k), p.plus (32 * k))

/-- The bytes that a read of pieces of `size` bytes gives. -/
def blockBytes (size : Nat) (vs : List Nat) : List Byte := (vs.map fun v => toBytes v size).flatten

/-- The accesses under way that are made for a group, launch or graph. -/
def State.flightsOf (s : State) (who : Nat) : List Flight := s.flights.filter fun f => decide (f.who = who)

/-- The writes under way of a word are performed, those that are still to be. -/
def State.landWrites (s : State) (gid clk : Nat) : State :=
  (s.flightsOf gid).foldl (fun (t : State) f => (t.landPlaces (s.unanswered f.seq) f.ctx f.va f.pieces (f.bytes.getD []) clk).1) (s.land gid)

/-- The group has an access on its way. -/
def State.busy (s : State) (gid : Nat) : Bool :=
  s.storesLeft gid || (s.locals.any fun x => decide (x.gid = gid)) || s.loads.any fun x => decide (x.gid = gid)

/-! ## Waits of a fence (R223) -/

/-- The waits of a fence are over: no outstanding result, no entry, atomic, reduction or local store of the group. -/
def State.fenceOver (s : State) (gid : Nat) (g : Group) : Bool :=
  decide (g.results = []) && !s.storesLeft gid && !(s.locals.any fun x => decide (x.gid = gid))

/-- Every entry of a group begins to drain. -/
def State.drainGroup (s : State) (gid : Nat) : State :=
  { s with entries := s.entries.map fun e : Entry => if e.gid = gid then { e with draining := true } else e }

/-- Acknowledgements folded into CLK: what came before a fence happens before what follows it (R223, R226). -/
def Group.fold (g : Group) : Group := { g with clk := g.acks.foldl max g.clk, acks := [], unfolded := [] }

/-- A word that waits as a fence does before its effect `k` (R223, R298): a redundant copy first passes a compare
(R309); then the waits begin, hold, and end when FENCE_COMPLETE has folded the acknowledgements. -/
def State.afterFence (s : State) (c : Issue) (g : Group) (k : State → Group → State) : State :=
  match g.wait with
  | .fenced => let g := { g with wait := .none }; k (s.setGroup c.gid g) g
  | .fence | .compare => s.fate .hold
  | w =>
    if s.redundant g ∧ w ≠ .compared then s.hold c.gid g .compare
    else (s.drainGroup c.gid).hold c.gid g .fence

/-- A word that is checked at its issue and then waits as a fence does (R78, R232, R255, R298): `check` traps, or goes on into the
wait; `k` is the word's effect once the wait is over. -/
def State.checkedFence (s : State) (c : Issue) (g : Group) (check : State → State) (k : State → Group → State) : State :=
  match g.wait with
  | .fenced => s.afterFence c g k
  | _ => check (s.afterFence c g k)

/-- A non-idempotent word (R298): after its waits and effect the slot's STATE is 2. -/
def State.spoilRestart (s : State) (gid : Nat) : State :=
  match s.groupAt gid with
  | none => s
  | some g =>
    let g := { g with rstate := 2 }
    let s := s.setGroup gid g
    if s.slotOf g = 0 then s else s.slotWrite gid g 0x27 (toBytes 2 1)

end Sys2Proof.Machine
end

