-- ==== Sys2Proof/Machine/Hierarchy.lean ====
section
/-! DEFINITION. Barriers (R184, R185, R187), the rebalancing of core clocks (R165), and the end of a group, a grove and
a copse (R74, R187, R197, R198). -/

namespace Sys2Proof.Machine

/-! ## Barriers (R184) -/

/-- A count has been reached, by the difference modulo 2^32 (R184). -/
def reached (have_ want : BitVec 32) : Bool := !(have_ - want).getLsbD 31

/-- The number that `Group.barN` and `Group.barA` use for a barrier literal (R54): grove barriers 0 to 15, copse
barriers from 16, launch barriers from 20. -/
def barrierIndex (l : BitVec 7) : Nat :=
  if l.toNat / 32 = 0 then l.toNat % 32 else if l.toNat / 32 = 1 then 16 + l.toNat % 32 else 20 + l.toNat % 32

/-- Where the copse barriers and launch barriers of a group lie in its launch. -/
def State.copseKey (s : State) (g : Group) (b : Nat) : Nat :=
  4 * (2 * (g.grx / ((s.launchAt g.launch).rcd.copse + 1)) + s.copyOf g) + (b - 16)
def State.launchKey (s : State) (g : Group) (b : Nat) : Nat := 2 * s.copyOf g + (b - 20)

/-- Barrier b of a group's units. -/
def State.barrierAt (s : State) (g : Group) (b : Nat) : Barrier :=
  let x := s.launchAt g.launch
  if b < 16 then ((s.groveAt g.grove).bars.at? b).getD default
  else if b < 20 then (x.copseBars.at? (s.copseKey g b)).getD default
  else (x.launchBars.at? (s.launchKey g b)).getD default

/-- Barrier b of a group's units replaced. -/
def State.setBarrier (s : State) (g : Group) (b : Nat) (x : Barrier) : State :=
  if b < 16 then { s with groves := s.groves.alter g.grove fun v => { v with bars := v.bars.put b x } }
  else if b < 20 then
    { s with launches := s.launches.alter g.launch fun l => { l with copseBars := l.copseBars.put (s.copseKey g b) x } }
  else { s with launches := s.launches.alter g.launch fun l => { l with launchBars := l.launchBars.put (s.launchKey g b) x } }

/-- N and A of a group for barrier b (R184). -/
def Group.issued (g : Group) (b : Nat) : BitVec 32 := (g.barN.at? b).getD 0
def Group.counted (g : Group) (b : Nat) : BitVec 32 := (g.barA.at? b).getD 0

/-! ## Rebalancing (R165) -/

/-- The completion rebalances clocks: a copse or launch barrier, or a grove barrier of a grove that spans a pair. -/
def State.rebalances (s : State) (g : Group) (b : Nat) : Bool := decide (16 ≤ b) || (s.groveAt g.grove).upper.isSome

/-- The late core one step up and the early core one step down, within 32 to 48, if the power budget has room.  While throttling
withholds the raise (R376) the step down is not made either, as where the budget has no room (log 27). -/
def State.rebalance (s : State) (order : List Nat) : State :=
  match order.head?, order.getLast? with
  | some early, some late =>
    if early = late then s
    else
      let room := Config.powerRoom s.draws
      let s := s.draw
      if room ∧ s.boot.throttleAt = none then
        let s := s.setCore late { s.coreAt late with step := min 48 ((s.coreAt late).step + 1) }
        s.setCore early { s.coreAt early with step := max 32 ((s.coreAt early).step - 1) }
      else s
  | _, _ => s

/-! ## Arrivals and completions (R185) -/

/-- The open phase of barrier b completes. -/
def State.completeBarrier (s : State) (g : Group) (b : Nat) : State :=
  let x := s.barrierAt g b
  let s := s.setBarrier g b { x with t := x.open_, ph := x.ph + 1, c := 0, open_ := 0, order := [] }
  if s.rebalances g b then s.rebalance x.order else s

/-- An arrival counted: A and C rise, CLK is recorded, and the last arrival completes the phase. -/
def State.countArrival (s : State) (gid : Nat) (g : Group) (b : Nat) : State :=
  let x := s.barrierAt g b
  let s := s.setGroup gid { g with barA := g.barA.put b (g.counted b + 1), wait := .none }
  let x := { x with c := x.c + 1, open_ := max x.open_ g.clk, order := (x.order.filter (· ≠ g.core)) ++ [g.core] }
  let s := s.setBarrier g b x
  if x.c = x.expd then s.completeBarrier g b else s

/-- One barrier of an exiting group's units (R187): its arrival in the open phase is uncounted, and it is no longer
expected.  Its core keeps its place in the order of the arrivals (log 88). -/
def State.leaveBarrier (s : State) (g : Group) (b : Nat) : State :=
  let x := s.barrierAt g b
  let x := { x with c := if reached x.ph (g.counted b) then x.c else x.c - 1, expd := x.expd - 1 }
  let s := s.setBarrier g b x
  if x.c ≠ 0 ∧ x.c = x.expd then s.completeBarrier g b else s

/-! ## The end of a group, a grove and a copse -/

/-- The groves of a grove's copse, of the same copy, placed so far. -/
def State.copseOf (s : State) (v : Grove) : List (Nat × Grove) :=
  let size := (s.launchAt v.launch).rcd.copse + 1
  s.groves.filter fun e => decide (e.2.launch = v.launch) && decide (e.2.copy = v.copy) && decide (e.2.grx / size = v.grx / size)

/-- A grove whose last group has exited (R197, R198): its scratch is released, or kept until its copse has exited. -/
def State.endGrove (s : State) (k : Nat) : State :=
  let v := s.groveAt k
  let s := { s with groves := s.groves.alter k fun v => { v with placed := false, kept := true },
                    launches := s.launches.alter v.launch fun x => { x with alive := x.alive - 1 } }
  let copse := s.copseOf v
  if copse.all fun e => decide (e.2.alive = 0) then
    let gone (key : Nat) : Bool := copse.any fun e => decide (e.1 = key)
    { s with groves := s.groves.filter (fun e : Nat × Grove => !gone e.1),
             locals := s.locals.filter (fun x => match x.place with
               | .scratch g _ => !gone g
               | .dram _ _ | .host _ _ _ | .regs _ _ | .vault _ _ _ => true) }
  else s

/-- The last eviction group of a context has ended (R307): its groves are off their cores, and SEALCTR takes n; a request that
waited is taken up (R327). -/
def State.finishEviction (s : State) (ctx : Nat) : State :=
  let s := s.endSlice ctx
  ({ s with groves := s.groves.mapVals (fun v : Grove => if v.ctx = ctx then { v with placed := false } else v),
            contexts := s.contexts.alter ctx fun x : Context =>
              { x with evicting := false, evicted := true, sealctr := x.sealctr + 1 } } : State).takeAsked ctx

/-- The last restore group of a context has ended: its discarded groups may restart (R304, R326), and a request that waited
is taken up (R327). -/
def State.finishRestore (s : State) (ctx : Nat) : State :=
  ({ s with contexts := s.contexts.alter ctx fun x : Context => { x with restoring := false, evicted := false } } : State).takeAsked ctx

/-- A group of a context serves an eviction or restore. -/
def State.serving (s : State) (ctx : Nat) : Bool := s.groups.any fun e => decide (e.2.ctx = ctx) && decide (e.2.role ≠ .kernel)

/-- A group ends (R74): nothing of it is left; its units' barriers no longer wait for it (R187); the grove it was
the last group of exits. -/
def State.endGroup (s : State) (gid : Nat) : State :=
  match s.groupAt gid with
  | none => s
  | some g =>
    let s := match g.role with
      | .kernel => (List.range 22).foldl (fun (s : State) b => s.leaveBarrier g b) s
      | .evict | .restore => s
    let s := { s with groups := s.groups.drop gid, loads := s.loads.filter (fun x => decide (x.gid ≠ gid)),
                      locals := s.locals.filter (fun x => match x.place with
                        | .regs k _ => decide (k ≠ gid)
                        | .dram _ _ | .host _ _ _ | .scratch _ _ | .vault _ _ _ => true) }
    match g.role with
    | .evict => if s.serving g.ctx then s else s.finishEviction g.ctx
    | .restore => if s.serving g.ctx then s else s.finishRestore g.ctx
    | .kernel =>
      let s := { s with groves := s.groves.alter g.grove fun v =>
        { v with alive := v.alive - 1, ends := v.ends.put g.gix (g.sigCount, g.sig) } }
      if (s.groveAt g.grove).alive = 0 then s.endGrove g.grove else s

end Sys2Proof.Machine
end

