-- ==== Sys2Proof/Machine/Issue.lean ====
section
/-! DEFINITION. Which plane-word issues next: the occupied set and the issue masks (R175, R176), fetching (R380), the
check of the uniform class (R178, R179), the end of a wait (R160), the choice of a group in a partition (R161, R162),
and what a word leaves for its group's offset (R45, R49, R67, R71). -/

namespace Sys2Proof.Machine

/-! ## Planes (R175, R176) -/

/-- The set of one plane. -/
def planeBit (p : Nat) : BitVec 4 := BitVec.ofNat 4 (2 ^ p)

/-- The occupied set of an offset (R175); in a handler, plane 0 alone (R291). -/
def Group.occupied (g : Group) : BitVec 4 :=
  match g.mode with
  | .steward => 1
  | .user =>
    if g.xm = 0 then planeBit ((List.range g.width).foldl (fun m i => min m (g.planeOf i)) 3)
    else (lanesOf g.width g.xm).foldl (fun o i => o ||| planeBit (g.planeOf i)) 0

/-- The issue mask of a plane (R176), confined by a replay to the lanes of TLANE (R292). -/
def Group.issueMask (g : Group) (p : Nat) : Mask :=
  let e := match g.mode with
    | .steward => g.xm
    | .user => maskOf ((lanesOf g.width g.xm).filter fun i => decide (g.planeOf i = p))
  match g.replay with
  | some (q, m) => if q = p then e &&& m else e
  | none => e

/-- The planes of a set, ascending. -/
def planesOf (o : BitVec 4) : List Nat := (List.range 4).filter fun p => o.getLsbD p

/-! ## Fetching (R173, R291, R380) -/

/-- The address of the word of plane p at the group's offset. -/
def State.wordAddr (s : State) (g : Group) (p : Nat) : Nat :=
  match g.mode with
  | .steward => g.vec + g.off * 4
  | .user => let r := s.recordOf g; r.entry + p * (r.pstride * 256) + g.off * 4

/-- The word of plane p, or the CODE and DETAIL of its fetch fault. -/
def State.fetch (s : State) (g : Group) (p : Nat) : State × Except (Nat × Nat) (BitVec 32) :=
  match s.translate g.core g.ctx (s.wordAddr g p) false with
  | (s, .ok (.place q)) => (s, .ok (BitVec.ofNat 32 (fromBytes (s.bytesAt (s.keyOf g.ctx) q 4))))
  | (s, .ok (.peer _ _)) => (s, .error (8, 0))
  | (s, .error e) => (s, .error e)

/-- The words of planes, or the lowest plane whose fetch faults, with CODE and DETAIL. -/
def State.fetchAll (s : State) (g : Group) : List Nat → State × Except (Nat × Nat × Nat) (List (Nat × BitVec 32))
  | [] => (s, .ok [])
  | p :: ps =>
    match s.fetch g p with
    | (s, .error (code, d)) => (s, .error (p, code, d))
    | (s, .ok w) =>
      match s.fetchAll g ps with
      | (s, .error e) => (s, .error e)
      | (s, .ok l) => (s, .ok ((p, w) :: l))

/-! ## The uniform class (R178) -/

/-- The words that must be bit-identical in every occupied plane and take effect once. -/
def uniformClass : Instr → Bool
  | .bra _ | .bz _ _ | .bnz _ _ | .bneg _ _ | .bnn _ _ | .bloop _ _ | .bcall _ _ | .bany _ => true
  | .jmp _ | .ret _ | .exit | .wbase _ | .park | .region _ _ => true
  | .barArr _ | .barWt _ | .barSync _ | .barQ _ _ => true
  | .mbatch _ | .mwait _ | .launch _ _ | .vif | .velse | .vendif => true
  | _ => false

/-- The word is of the uniform class: every word of the BR major, legal or not (its planes are compared before it is
decoded, R57, R179), and the others that the class names. -/
def wordUniform (w : BitVec 32) : Bool :=
  decide (majorOf w = 12) || match decode w with
  | .ok i => uniformClass i
  | .error _ => false

/-- The planes whose word differs from the lowest plane's, when one of the words is of the uniform class (R179). -/
def misaligned (ws : List (Nat × BitVec 32)) : List (Nat) :=
  match ws with
  | [] => []
  | (_, w) :: rest =>
    if ws.any fun e => wordUniform e.2 then (rest.filter fun e => e.2 ≠ w).map (·.1) else []

/-! ## The end of a wait (R160) -/

/-- The contributions of a group that wait refused at its core (R233). -/
def State.refusedOf (s : State) (gid : Nat) : Nat :=
  (s.contribs.filter fun x => decide (x.gid = gid) && x.refused).length

/-- Every matrix instruction of the group has executed, and every closed batch has completed. -/
def Group.matrixDone (g : Group) : Bool :=
  decide (g.batches = []) && g.openOps.all fun o => o.result.isSome

/-- The group's word waits for an access of its own. -/
def Group.accessing (g : Group) : Bool :=
  match g.wait with
  | .reading _ | .writing => true
  | _ => false

/-- The group's wait is over: it may issue, or its held word goes on.  While a rebase is due only a word whose own accesses are under
way goes on (R237). -/
def State.waitOver (s : State) (gid : Nat) (g : Group) : Bool :=
  (!s.rebaseDue || g.accessing) && !g.compareDue && (decide (g.refusedPark = 0) || decide (s.refusedOf gid < g.refusedPark)) &&
  match g.wait with
  | .none | .fenced | .compared | .over => true
  | .run | .trap => decide (g.results = [])
  | .arrive b u | .barrier b u => reached (s.barrierAt g b).ph u
  | .batchRoom => decide (g.batches.length < 4)
  | .batch k => !(g.batches.any fun x => decide (x.k ≤ k))
  | .room ch _ => (s.channelAt ch).fault
  | .faulted | .reached _ => true
  | .registers ks => !(g.results.any fun r => r.dest.keys.any ks.contains)
  | .quiet => decide (g.results = []) && g.matrixDone
  | .stall => match g.held with
    | some (i, _) => !stalled g i
    | none => true
  | .space n => decide ((s.entries.filter fun e => decide (e.core = g.core)).length ≤ n)
  | .idle => !s.busy gid
  | .reading seq => !s.loads.any fun x => decide (x.seq = seq) && x.rest.any fun l => !s.laneReady x l && !s.cutLane x l
  | .writing => (s.flightsOf gid).all s.flightReady && !s.slotLeft gid
  | .fence | .channel _ _ | .stream _ | .svc _ | .guardian _ | .compare | .discarded | .stopped => false

/-! ## Issue -/

/-- What a step does: the state moves by itself, or an instruction's meaning runs. -/
inductive Move
  | moved (s : State)
  | run (s : State) (i : Instr)

/-- The instruction of a fetched word; a word that decodes to none raises the illegal-instruction trap (R56). -/
def wordInstr (w : BitVec 32) : Instr :=
  match decode w with
  | .ok i => i
  | .error d => .illegalInstruction d

/-- Plane p of the current offset issues its fetched word.  A uniform-class word acts once, under all of XM, whatever plane it is fetched
for: where a later plane meets one that the check of R178 has not covered, the manual says nothing (log 99). -/
def State.issueWord (s : State) (gid : Nat) (g : Group) (p : Nat) (w : BitVec 32) : Move :=
  let c : Issue :=
    { gid := gid, core := g.core, slot := g.slot, plane := p, mask := if wordUniform w then g.xm else g.issueMask p, uniform := wordUniform w,
      addr := s.wordAddr g p, mark := parkMark w, again := false, fate := .done }
  .run { s.setGroup gid { g with wait := .none } with cur := some c } (wordInstr w)

/-- The offset begins (R175, R178, R380): the occupied set is taken, its words are fetched and checked, and the lowest
plane issues.  An offset that begins again after a replay keeps the write generations that it has taken (R177). -/
def State.beginOffset (s : State) (gid : Nat) (g : Group) : Move :=
  let o := g.occupied
  let g := { g with occ := some o, doneP := 0 }
  match s.fetchAll g (planesOf o) with
  | (s, .error (p, code, d)) =>
    .moved (s.transFault gid g code d (BitVec.ofNat 64 (s.wordAddr g p)) 0 p false)
  | (s, .ok ws) =>
    match misaligned ws, ws with
    | q :: qs, _ =>
      .moved (s.trap gid g 2 ((q :: qs).foldl (fun m p => m + 2 ^ p) 0) (BitVec.ofNat 64 (s.wordAddr g q)) g.xm q false)
    | [], (p, w) :: _ => s.issueWord gid g p w
    | [], [] => .moved s

/-- The watchdog trap that was held is taken before the word that the group was about to issue (R301, R303): TPLN names the
occupied planes of that word's offset and the next of them to issue (R43, R180). -/
def State.takeHeld (s : State) (gid : Nat) (g : Group) (d : BitVec 8) : State :=
  let o := g.occ.getD g.occupied
  s.trap gid { g with heldTrap := none, wait := .none, occ := some o } 14 d.toNat
    (BitVec.ofNat 64 ((s.recordOf g).entry + g.rgnoff.toNat * 4)) 0 ((planesOf (o &&& ~~~g.doneP)).headD 0) false

/-- The group issues its next plane-word (R160, R175 to R177).  Past the last offset it takes the access fault of R71,
which resumes, as R289 gives for CODE 15, at the same word: TPLN.DONE is 0.  A held watchdog trap comes before a word, and not
in a handler, where it would be a steward fault (log 81). -/
def State.issueNext (s : State) (gid : Nat) (g : Group) : Move :=
  let g := { g with trapOwn := false }
  if 2 ^ 20 ≤ g.off then
    let o := g.occ.getD g.occupied
    .moved (s.trap gid { g with off := 2 ^ 20 - 1, occ := some o, doneP := 0, wait := .none } 15 0 0x10_0000 0
      ((planesOf o).headD 0) false)
  else
    match (if g.mode = .user then g.heldTrap else none) with
    | some d => .moved (s.takeHeld gid g d)
    | none =>
      match g.occ with
      | none => s.beginOffset gid { g with wait := .none }
      | some o =>
        match planesOf (o &&& ~~~g.doneP) with
        | [] => .moved (s.setGroup gid { g with occ := none, doneP := 0, off := g.off + 1, wait := .none })
        | p :: _ =>
          match s.fetch g p with
          | (s, .error (code, d)) =>
            .moved (s.transFault gid { g with wait := .none } code d (BitVec.ofNat 64 (s.wordAddr g p)) 0 p false)
          | (s, .ok w) => s.issueWord gid { g with wait := .none } p w

/-- A ready group moves: it enters a handler it was about to enter, goes on with its held word, or issues. -/
def State.moveGroup (s : State) (gid : Nat) (g : Group) : Move :=
  match g.wait, g.held with
  | .trap, _ => .moved (s.enter gid g)
  | _, some (i, c) => .run { s with cur := some { c with fate := .done } } i
  | _, none => s.issueNext gid g

/-! ## What the word leaves (R45, R49, R67) -/

/-- The offset after the current one: the target of a taken transfer, or the next word. -/
def Fate.next (f : Fate) (off : Nat) : Nat :=
  match f with
  | .goto n => n
  | .done | .hold | .left => off + 1

/-- The word at issue has completed in its plane, or in every plane for a uniform word, the planes left among them (log 99): when the last
occupied plane has issued the offset is done, and the group parks if a word of it carried the mark. -/
def Group.complete (g : Group) (c : Issue) : Group :=
  let o := g.occ.getD 0
  let done := if c.uniform then o else g.doneP ||| planeBit c.plane
  let mark := g.mark || c.mark
  let g := { g with held := none, early := [], mark := mark, doneP := done, holding := o &&& ~~~done != 0, wait := .none,
                    replay := match g.replay with
                      | some (q, m) => if q = c.plane then none else some (q, m)
                      | none => none }
  if o &&& ~~~done = 0 then
    let g := { g with off := c.fate.next g.off, offGens := [], mark := false, replay := none,
                      wait := if mark then .run else .none }
    if g.off = 2 ^ 20 then g else { g with occ := none, doneP := 0 }
  else g

/-- The word at issue has issued now for the first time: not one that goes on after its wait, nor one that stalled at its
issue or found no room for its stores (R48, R161, R218). -/
def Issue.first (c : Issue) (g : Group) : Bool :=
  !c.again && !(decide (c.fate = .hold) && match g.wait with
    | .stall | .space _ => true
    | _ => false)

/-- The group whose word has issued and waits: it holds its partition while planes of the offset are left (R162). -/
def Group.waits (g : Group) (i : Instr) (c : Issue) : Group :=
  let done := if c.uniform then 15 else g.doneP ||| planeBit c.plane
  { g with held := some (i, { c with again := c.again || c.first g }),
           holding := if c.first g then g.occ.getD 0 &&& ~~~done != 0 else g.holding }

/-- After the meaning of instruction `i`: the word's fate takes effect, and nothing is at issue.  The slot that has issued a word
is its partition's last, whatever has become of its group (R161). -/
def State.finish (s : State) (i : Instr) : State :=
  match s.cur with
  | none => s
  | some c =>
    let s := { s with cur := none }
    let core := s.coreAt c.core
    let last := s.setCore c.core { core with lastSlot := core.lastSlot.put (c.slot / 4) (c.slot % 4) }
    match s.groupAt c.gid with
    | none => if c.again then s else last
    | some g =>
      let s := if c.first g then last else s
      match c.fate with
      | .left => s
      | .hold => s.setGroup c.gid (g.waits i c)
      | .done | .goto _ => s.setGroup c.gid (g.complete c)

/-! ## The choice of a group (R160 to R162) -/

/-- The group is demoted after a `spin` (R160): 64 clocks, the one of its count among them. -/
def State.demotedNow (s : State) (g : Group) : Bool :=
  match g.demoted with
  | some t => decide ((s.coreAt g.core).clock ≤ t)
  | none => false

/-- The groups of a partition that are resident: slot in the partition, key, group. -/
def State.partition (s : State) (core part : Nat) : List (Nat × Nat × Group) :=
  (s.groups.filter fun e => decide (e.2.core = core) && decide (e.2.slot / 4 = part) &&
    (decide (e.2.role ≠ .kernel) || ((s.groveAt e.2.grove).placed && decide (e.2.wait ≠ .discarded)))).map fun e => (e.2.slot % 4, e.1, e.2)

/-- The group holds its partition: it has issued in some plane of its offset and not in all (R162).  A trap, a fault that its guardian
services, a discard and a stop end the sequence (log 82). -/
def Group.midOffset (g : Group) : Bool :=
  match g.wait with
  | .trap | .guardian _ | .discarded | .stopped => false
  | _ => g.holding

/-- The group's word has issued and waits: what is left of it is no issue. -/
def Group.goesOn (g : Group) : Bool := g.held.any fun h => h.2.again

/-- The group that moves in a partition: one in the middle of an offset's planes holds it, and while its word stalls no other issues, but
a held word of another may go on (R162); else the first ready group after the slot that issued last, a demoted one only if no other is
(R161).  A group whose held word goes on after its wait moves without issuing; while a rebase is due there is no other (R237). -/
def State.chosen (s : State) (core part : Nat) : Option (Nat × Group) :=
  let gs := s.partition core part
  let ready (e : Nat × Nat × Group) : Bool := s.waitOver e.2.1 e.2.2
  match if s.rebaseDue then none else gs.find? fun e => e.2.2.midOffset with
  | some e => if ready e then some e.2 else (gs.find? fun e => ready e && e.2.2.goesOn).map (·.2)
  | none =>
    let last := ((s.coreAt core).lastSlot.at? part).getD 3
    let order := [1, 2, 3, 4].filterMap fun k => gs.find? fun e => decide (e.1 = (last + k) % 4)
    match order.find? fun e => ready e && !s.demotedNow e.2.2 with
    | some e => some e.2
    | none => (order.find? ready).map (·.2)

end Sys2Proof.Machine
end

