-- ==== Sys2Proof/Machine/ScalarInt.lean ====
section
/-! DEFINITION. The scalar integer words: SINT, SIMM and SLI (R59 to R65). -/

namespace Sys2Proof.Machine

/-! ## Values (R60 to R64) -/

/-- Quotient, truncated toward zero; the defined results of R62. -/
def sdivValue (a b : Scalar) : Scalar := if b = 0 then BitVec.allOnes 64 else a.sdiv b
def sdivnValue (a b : Scalar) : Scalar := if b = 0 then BitVec.allOnes 64 else a.udiv b

/-- Remainder, with the sign of the dividend; the defined results of R62. -/
def smodValue (a b : Scalar) : Scalar := if b = 0 then a else a.srem b
def smodnValue (a b : Scalar) : Scalar := if b = 0 then a else a.umod b

/-- Bits [127:64] of the product, signed and unsigned. -/
def smulhValue (a b : Scalar) : Scalar := BitVec.ofInt 64 (a.toInt * b.toInt / 2 ^ 64)
def smulhnValue (a b : Scalar) : Scalar := BitVec.ofNat 64 (a.toNat * b.toNat / 2 ^ 64)

/-- A truth value as a scalar. -/
def truth (b : Bool) : Scalar := if b then 1 else 0

/-- A shift count: bits [5:0] (R61). -/
def count (b : Scalar) : Nat := b.toNat % 64

/-- Leading zero bits of the low `w` bits of a number, and its one bits. -/
def leadingZeros (w v : Nat) : Nat := if v = 0 then w else w - 1 - Nat.log2 v
def oneBits (w v : Nat) : Nat := ((List.range w).filter fun i => v.testBit i).length

/-- The code address of a word relative to the offset and plane of the word at issue (R64); in a handler, to TVEC
and plane 0 (R323). -/
def State.codeAddress (s : State) (g : Group) (plane : Nat) (imm : BitVec 17) : Scalar :=
  match g.mode with
  | .steward => BitVec.ofNat 64 g.vec + (BitVec.ofNat 64 g.off + sext17 imm) * 4
  | .user =>
    let r := s.recordOf g
    BitVec.ofNat 64 (r.entry + plane * (r.pstride * 256)) + (BitVec.ofNat 64 g.off + sext17 imm) * 4

/-! ## Register forms, major 0 (R60) -/

/-- `SADD` (R60). -/
def execSadd (d a b : Reg) (s : State) : Host.Outcome State Fault Refusal :=
  word (.sadd d a b) s fun c g => s.scalResult c g d [(g.srcS .a a) + (g.srcS .b b)] 0

/-- `SSUB` (R60). -/
def execSsub (d a b : Reg) (s : State) : Host.Outcome State Fault Refusal :=
  word (.ssub d a b) s fun c g => s.scalResult c g d [(g.srcS .a a) - (g.srcS .b b)] 0

/-- `SMUL` (R60). -/
def execSmul (d a b : Reg) (s : State) : Host.Outcome State Fault Refusal :=
  word (.smul d a b) s fun c g => s.scalResult c g d [(g.srcS .a a) * (g.srcS .b b)] 0

/-- `SMULH_I` (R60). -/
def execSmulhI (d a b : Reg) (s : State) : Host.Outcome State Fault Refusal :=
  word (.smulhI d a b) s fun c g => s.scalResult c g d [smulhValue (g.srcS .a a) (g.srcS .b b)] 0

/-- `SMULH_N` (R60). -/
def execSmulhN (d a b : Reg) (s : State) : Host.Outcome State Fault Refusal :=
  word (.smulhN d a b) s fun c g => s.scalResult c g d [smulhnValue (g.srcS .a a) (g.srcS .b b)] 0

/-- `SDIV_I` (R62). -/
def execSdivI (d a b : Reg) (s : State) : Host.Outcome State Fault Refusal :=
  word (.sdivI d a b) s fun c g => s.scalResult c g d [sdivValue (g.srcS .a a) (g.srcS .b b)] 0

/-- `SDIV_N` (R62). -/
def execSdivN (d a b : Reg) (s : State) : Host.Outcome State Fault Refusal :=
  word (.sdivN d a b) s fun c g => s.scalResult c g d [sdivnValue (g.srcS .a a) (g.srcS .b b)] 0

/-- `SMOD_I` (R62). -/
def execSmodI (d a b : Reg) (s : State) : Host.Outcome State Fault Refusal :=
  word (.smodI d a b) s fun c g => s.scalResult c g d [smodValue (g.srcS .a a) (g.srcS .b b)] 0

/-- `SMOD_N` (R62). -/
def execSmodN (d a b : Reg) (s : State) : Host.Outcome State Fault Refusal :=
  word (.smodN d a b) s fun c g => s.scalResult c g d [smodnValue (g.srcS .a a) (g.srcS .b b)] 0

/-- `SAND` (R60). -/
def execSand (d a b : Reg) (s : State) : Host.Outcome State Fault Refusal :=
  word (.sand d a b) s fun c g => s.scalResult c g d [(g.srcS .a a) &&& (g.srcS .b b)] 0

/-- `SOR` (R60). -/
def execSor (d a b : Reg) (s : State) : Host.Outcome State Fault Refusal :=
  word (.sor d a b) s fun c g => s.scalResult c g d [(g.srcS .a a) ||| (g.srcS .b b)] 0

/-- `SXOR` (R60). -/
def execSxor (d a b : Reg) (s : State) : Host.Outcome State Fault Refusal :=
  word (.sxor d a b) s fun c g => s.scalResult c g d [(g.srcS .a a) ^^^ (g.srcS .b b)] 0

/-- `SANDN` (R60). -/
def execSandn (d a b : Reg) (s : State) : Host.Outcome State Fault Refusal :=
  word (.sandn d a b) s fun c g => s.scalResult c g d [(g.srcS .a a) &&& ~~~(g.srcS .b b)] 0

/-- `SSHL` (R61). -/
def execSshl (d a b : Reg) (s : State) : Host.Outcome State Fault Refusal :=
  word (.sshl d a b) s fun c g => s.scalResult c g d [(g.srcS .a a) <<< count (g.srcS .b b)] 0

/-- `SSHR` (R61). -/
def execSshr (d a b : Reg) (s : State) : Host.Outcome State Fault Refusal :=
  word (.sshr d a b) s fun c g => s.scalResult c g d [(g.srcS .a a) >>> count (g.srcS .b b)] 0

/-- `SSRA` (R61). -/
def execSsra (d a b : Reg) (s : State) : Host.Outcome State Fault Refusal :=
  word (.ssra d a b) s fun c g => s.scalResult c g d [(g.srcS .a a).sshiftRight (count (g.srcS .b b))] 0

/-- `SMIN_I` (R60). -/
def execSminI (d a b : Reg) (s : State) : Host.Outcome State Fault Refusal :=
  word (.sminI d a b) s fun c g => s.scalResult c g d [if (g.srcS .a a).slt (g.srcS .b b) then (g.srcS .a a) else (g.srcS .b b)] 0

/-- `SMIN_N` (R60). -/
def execSminN (d a b : Reg) (s : State) : Host.Outcome State Fault Refusal :=
  word (.sminN d a b) s fun c g => s.scalResult c g d [if (g.srcS .a a) < (g.srcS .b b) then (g.srcS .a a) else (g.srcS .b b)] 0

/-- `SMAX_I` (R60). -/
def execSmaxI (d a b : Reg) (s : State) : Host.Outcome State Fault Refusal :=
  word (.smaxI d a b) s fun c g => s.scalResult c g d [if (g.srcS .a a).slt (g.srcS .b b) then (g.srcS .b b) else (g.srcS .a a)] 0

/-- `SMAX_N` (R60). -/
def execSmaxN (d a b : Reg) (s : State) : Host.Outcome State Fault Refusal :=
  word (.smaxN d a b) s fun c g => s.scalResult c g d [if (g.srcS .a a) < (g.srcS .b b) then (g.srcS .b b) else (g.srcS .a a)] 0

/-- `SSLT_I` (R60). -/
def execSsltI (d a b : Reg) (s : State) : Host.Outcome State Fault Refusal :=
  word (.ssltI d a b) s fun c g => s.scalResult c g d [truth ((g.srcS .a a).slt (g.srcS .b b))] 0

/-- `SSLT_N` (R60). -/
def execSsltN (d a b : Reg) (s : State) : Host.Outcome State Fault Refusal :=
  word (.ssltN d a b) s fun c g => s.scalResult c g d [truth ((g.srcS .a a).ult (g.srcS .b b))] 0

/-- `SSEQ` (R60). -/
def execSseq (d a b : Reg) (s : State) : Host.Outcome State Fault Refusal :=
  word (.sseq d a b) s fun c g => s.scalResult c g d [truth ((g.srcS .a a) == (g.srcS .b b))] 0

/-- `SCLZ` (R60). -/
def execSclz (d a : Reg) (s : State) : Host.Outcome State Fault Refusal :=
  word (.sclz d a) s fun c g => s.scalResult c g d [BitVec.ofNat 64 (leadingZeros 64 (g.srcS .a a).toNat)] 0

/-- `SPOP` (R60). -/
def execSpop (d a : Reg) (s : State) : Host.Outcome State Fault Refusal :=
  word (.spop d a) s fun c g => s.scalResult c g d [BitVec.ofNat 64 (oneBits 64 (g.srcS .a a).toNat)] 0

/-- `SMOV` (R60). -/
def execSmov (d a : Reg) (s : State) : Host.Outcome State Fault Refusal :=
  word (.smov d a) s fun c g => s.scalResult c g d [g.srcS .a a] 0

/-! ## Immediate forms, major 8 (R63) -/

/-- `SADDI` (R63). -/
def execSaddi (d a : Reg) (imm : BitVec 10) (s : State) : Host.Outcome State Fault Refusal :=
  word (.saddi d a imm) s fun c g => s.scalResult c g d [g.srcS .a a + sext10 imm] 0

/-- `SANDI` (R63). -/
def execSandi (d a : Reg) (imm : BitVec 10) (s : State) : Host.Outcome State Fault Refusal :=
  word (.sandi d a imm) s fun c g => s.scalResult c g d [g.srcS .a a &&& sext10 imm] 0

/-- `SORI` (R63). -/
def execSori (d a : Reg) (imm : BitVec 10) (s : State) : Host.Outcome State Fault Refusal :=
  word (.sori d a imm) s fun c g => s.scalResult c g d [g.srcS .a a ||| sext10 imm] 0

/-- `SXORI` (R63). -/
def execSxori (d a : Reg) (imm : BitVec 10) (s : State) : Host.Outcome State Fault Refusal :=
  word (.sxori d a imm) s fun c g => s.scalResult c g d [g.srcS .a a ^^^ sext10 imm] 0

/-- `SSLTI` (R63). -/
def execSslti (d a : Reg) (imm : BitVec 10) (s : State) : Host.Outcome State Fault Refusal :=
  word (.sslti d a imm) s fun c g => s.scalResult c g d [truth ((g.srcS .a a).slt (sext10 imm))] 0

/-- `SSHLI` (R63). -/
def execSshli (d a : Reg) (n : BitVec 6) (s : State) : Host.Outcome State Fault Refusal :=
  word (.sshli d a n) s fun c g => s.scalResult c g d [g.srcS .a a <<< n.toNat] 0

/-- `SSHRI` (R63). -/
def execSshri (d a : Reg) (n : BitVec 6) (s : State) : Host.Outcome State Fault Refusal :=
  word (.sshri d a n) s fun c g => s.scalResult c g d [g.srcS .a a >>> n.toNat] 0

/-- `SSRAI` (R63). -/
def execSsrai (d a : Reg) (n : BitVec 6) (s : State) : Host.Outcome State Fault Refusal :=
  word (.ssrai d a n) s fun c g => s.scalResult c g d [(g.srcS .a a).sshiftRight n.toNat] 0

/-! ## Long immediates, major 11 (R64) -/

/-- `SMOVI` (R64). -/
def execSmovi (d : Reg) (imm : BitVec 17) (s : State) : Host.Outcome State Fault Refusal :=
  word (.smovi d imm) s fun c g => s.scalResult c g d [sext17 imm] 0

/-- `SLUI` (R64). -/
def execSlui (d : Reg) (imm : BitVec 17) (s : State) : Host.Outcome State Fault Refusal :=
  word (.slui d imm) s fun c g => s.scalResult c g d [(g.srcS .d d <<< 17) ||| imm.zeroExtend 64] 0

/-- `SADDPC` (R64). -/
def execSaddpc (d : Reg) (imm : BitVec 17) (s : State) : Host.Outcome State Fault Refusal :=
  word (.saddpc d imm) s fun c g => s.scalResult c g d [s.codeAddress g c.plane imm] 0

end Sys2Proof.Machine
end

