-- ==== Sys2Proof/Machine/MemFlat.lean ====
section
/-! DEFINITION. The memory words (R77 to R88), and the spills of the divergence stack (R169). -/

namespace Sys2Proof.Machine

/-! ## Loads (R83, R84) -/

/-- The accesses of a vector word: each issuing lane and its address. -/
def laneAccesses (c : Issue) (g : Group) (addr : Nat → Scalar) : List (Nat × Scalar) :=
  (lanesOf g.width c.mask).map fun i => (i, addr i)

/-- A vector load: nothing when no lane issues (R80). -/
def State.vectorLoad (s : State) (c : Issue) (g : Group) (d : Reg) (n size : Nat) (w : Widen) (addr : Nat → Scalar) : State :=
  match laneAccesses c g addr with
  | [] => s
  | la => s.access c g false false true size la fun s g good => s.issueLoad c g (g.dest d n) size w good

/-- A scalar load: performed whatever XM holds (R80). -/
def State.scalarLoad (s : State) (c : Issue) (g : Group) (d : Reg) (size : Nat) (w : Widen) (a : Scalar) : State :=
  s.access c g true false true size [(0, a)] fun s g good => s.issueLoad c g (g.dest d 1) size w good

/-- `VLD_B` (R83). -/
def execVldB (d a b : Reg) (s : State) : Host.Outcome State Fault Refusal :=
  word (.vldB d a b) s fun c g => s.vectorLoad c g d 1 1 .zero8 (g.addrV a b)

/-- `VLD_B_I` (R83). -/
def execVldBI (d a b : Reg) (s : State) : Host.Outcome State Fault Refusal :=
  word (.vldBI d a b) s fun c g => s.vectorLoad c g d 1 1 .sign8 (g.addrV a b)

/-- `VLD_H` (R83). -/
def execVldH (d a b : Reg) (s : State) : Host.Outcome State Fault Refusal :=
  word (.vldH d a b) s fun c g => s.vectorLoad c g d 1 2 .zero16 (g.addrV a b)

/-- `VLD_H_I` (R83). -/
def execVldHI (d a b : Reg) (s : State) : Host.Outcome State Fault Refusal :=
  word (.vldHI d a b) s fun c g => s.vectorLoad c g d 1 2 .sign16 (g.addrV a b)

/-- `VLD_W` (R83). -/
def execVldW (d a b : Reg) (s : State) : Host.Outcome State Fault Refusal :=
  word (.vldW d a b) s fun c g => s.vectorLoad c g d 1 4 .word (g.addrV a b)

/-- `VLD_D` (R83). -/
def execVldD (d a b : Reg) (s : State) : Host.Outcome State Fault Refusal :=
  word (.vldD d a b) s fun c g => s.vectorLoad c g d 2 8 .dword (g.addrV a b)

/-- `VLD_Q` (R83). -/
def execVldQ (d a b : Reg) (s : State) : Host.Outcome State Fault Refusal :=
  word (.vldQ d a b) s fun c g => s.vectorLoad c g d 4 16 .qword (g.addrV a b)

/-- `SLD_W` (R83). -/
def execSldW (d a b : Reg) (s : State) : Host.Outcome State Fault Refusal :=
  word (.sldW d a b) s fun c g => s.scalarLoad c g d 4 .word (g.addrS a b)

/-- `SLD_D` (R83). -/
def execSldD (d a b : Reg) (s : State) : Host.Outcome State Fault Refusal :=
  word (.sldD d a b) s fun c g => s.scalarLoad c g d 8 .dword (g.addrS a b)

/-- `VLD_W_O` (R83). -/
def execVldWO (d a : Reg) (imm : BitVec 10) (s : State) : Host.Outcome State Fault Refusal :=
  word (.vldWO d a imm) s fun c g => s.vectorLoad c g d 1 4 .word (g.addrVo a imm 4)

/-- `VLD_D_O` (R83). -/
def execVldDO (d a : Reg) (imm : BitVec 10) (s : State) : Host.Outcome State Fault Refusal :=
  word (.vldDO d a imm) s fun c g => s.vectorLoad c g d 2 8 .dword (g.addrVo a imm 8)

/-- `SLD_W_O` (R83). -/
def execSldWO (d a : Reg) (imm : BitVec 10) (s : State) : Host.Outcome State Fault Refusal :=
  word (.sldWO d a imm) s fun c g => s.scalarLoad c g d 4 .word (g.addrSo a imm 4)

/-- `SLD_D_O` (R83). -/
def execSldDO (d a : Reg) (imm : BitVec 10) (s : State) : Host.Outcome State Fault Refusal :=
  word (.sldDO d a imm) s fun c g => s.scalarLoad c g d 8 .dword (g.addrSo a imm 8)

/-! ## Stores (R85, R86) -/

/-- The low `size` bytes of the registers of a vector data field, lane i: register k gives bytes 4 k on. -/
def Group.vectorData (g : Group) (d : Reg) (size i : Nat) : List Byte :=
  (((List.range ((size + 3) / 4)).map fun k => toBytes (g.srcVk .d d k i).toNat 4).flatten).take size

/-- A vector store: nothing when no lane issues (R80). -/
def State.vectorStore (s : State) (c : Issue) (g : Group) (d : Reg) (size : Nat) (addr : Nat → Scalar) : State :=
  match laneAccesses c g addr with
  | [] => s
  | la => s.storeWord c g false size la (g.vectorData d size)

/-- A scalar store. -/
def State.scalarStore (s : State) (c : Issue) (g : Group) (d : Reg) (size : Nat) (a : Scalar) : State :=
  s.storeWord c g true size [(0, a)] fun _ => toBytes (g.srcS .d d).toNat size

/-- `VST_B` (R85). -/
def execVstB (d a b : Reg) (s : State) : Host.Outcome State Fault Refusal :=
  word (.vstB d a b) s fun c g => s.vectorStore c g d 1 (g.addrV a b)

/-- `VST_H` (R85). -/
def execVstH (d a b : Reg) (s : State) : Host.Outcome State Fault Refusal :=
  word (.vstH d a b) s fun c g => s.vectorStore c g d 2 (g.addrV a b)

/-- `VST_W` (R85). -/
def execVstW (d a b : Reg) (s : State) : Host.Outcome State Fault Refusal :=
  word (.vstW d a b) s fun c g => s.vectorStore c g d 4 (g.addrV a b)

/-- `VST_D` (R85). -/
def execVstD (d a b : Reg) (s : State) : Host.Outcome State Fault Refusal :=
  word (.vstD d a b) s fun c g => s.vectorStore c g d 8 (g.addrV a b)

/-- `VST_Q` (R85). -/
def execVstQ (d a b : Reg) (s : State) : Host.Outcome State Fault Refusal :=
  word (.vstQ d a b) s fun c g => s.vectorStore c g d 16 (g.addrV a b)

/-- `SST_W` (R85). -/
def execSstW (d a b : Reg) (s : State) : Host.Outcome State Fault Refusal :=
  word (.sstW d a b) s fun c g => s.scalarStore c g d 4 (g.addrS a b)

/-- `SST_D` (R85). -/
def execSstD (d a b : Reg) (s : State) : Host.Outcome State Fault Refusal :=
  word (.sstD d a b) s fun c g => s.scalarStore c g d 8 (g.addrS a b)

/-- `VST_W_O` (R85). -/
def execVstWO (d a : Reg) (imm : BitVec 10) (s : State) : Host.Outcome State Fault Refusal :=
  word (.vstWO d a imm) s fun c g => s.vectorStore c g d 4 (g.addrVo a imm 4)

/-- `VST_D_O` (R85). -/
def execVstDO (d a : Reg) (imm : BitVec 10) (s : State) : Host.Outcome State Fault Refusal :=
  word (.vstDO d a imm) s fun c g => s.vectorStore c g d 8 (g.addrVo a imm 8)

/-- `SST_W_O` (R85). -/
def execSstWO (d a : Reg) (imm : BitVec 10) (s : State) : Host.Outcome State Fault Refusal :=
  word (.sstWO d a imm) s fun c g => s.scalarStore c g d 4 (g.addrSo a imm 4)

/-- `SST_D_O` (R85). -/
def execSstDO (d a : Reg) (imm : BitVec 10) (s : State) : Host.Outcome State Fault Refusal :=
  word (.sstDO d a imm) s fun c g => s.scalarStore c g d 8 (g.addrSo a imm 8)

/-- One lane of `vpref` (R209): an address that is outside the map or would fault is ignored. -/
def State.prefetch (s : State) (gid : Nat) (g : Group) (a : Scalar) : State :=
  match s.mapAddr gid g a with
  | some (.global va) =>
    match s.translate g.core g.ctx va false with
    | (t, .ok (.place p)) => t.fillSector { ctx := g.ctx, core := g.core, place := p, clk := g.clk, lease := g.lease.toNat }
    | (_, .ok (.peer _ _)) | (_, .error _) => s
  | some (.here _) | none => s

/-- The register of a vector field lies in the file. -/
def Group.hasField (g : Group) (r : Reg) : Bool :=
  match r with
  | .v n => decide (g.winb + n.val < g.nregs)
  | .s _ | .nul | .lane | .plane | .xm | .cm | .gix | .grx | .clk => true

/-- `VPREF` (R87, R209): no effect on any register, byte, mask, flag or clock.  It never traps: offsets in a register beyond the
file name no address (log 70). -/
def execVpref (a b : Reg) (s : State) : Host.Outcome State Fault Refusal :=
  word (.vpref a b) s fun c g =>
    if g.hasField b then (laneAccesses c g (g.addrV a b)).foldl (fun s e => s.prefetch c.gid g e.2) s else s

/-! ## The divergence stack in memory (R169) -/

/-- `k`, if the word at issue has completed without a trap or a wait. -/
def State.whenDone (s : State) (gid : Nat) (k : Group → Group) : State :=
  match s.cur with
  | some c => if c.fate = .done then { s with groups := s.groups.alter gid k } else s
  | none => s

/-- `DSAVE` (R169): the bottom entry is stored and leaves the stack. -/
def execDsave (a : Reg) (s : State) : Host.Outcome State Fault Refusal :=
  word (.dsave a) s fun c g =>
    match g.stack with
    | [] => s
    | m :: rest => (s.storeWord c g true 8 [(0, g.srcS .a a)] fun _ => toBytes m.toNat 8).whenDone c.gid fun g => { g with stack := rest }

/-- `DLOAD` (R169): a new bottom entry is loaded, all 64 bits of it, once its bytes can be read (R82). -/
def execDload (a : Reg) (s : State) : Host.Outcome State Fault Refusal :=
  word (.dload a) s fun c g =>
    if g.stack.length = 8 then s
    else s.ownRead c g (fun s _ g vs => s.setGroup c.gid { g with stack := BitVec.ofNat 64 (vs.headD 0) :: g.stack }) fun go =>
      s.access c g true false true 8 [(0, g.srcS .a a)] fun s g good => go s g (s.newLoad c g 8 .dword good)

end Sys2Proof.Machine
end

