-- ==== Sys2Proof/Machine/AtomicWords.lean ====
section
/-! DEFINITION. The atomics and far reductions (R227, R228). -/

namespace Sys2Proof.Machine

/-- A value-returning atomic (R228, R298): its accesses are checked at issue (R78, R255), it waits as a fence does, its
accesses are sent, and the group has no restart point from then on. -/
def State.atomic (s : State) (c : Issue) (g : Group) (scalar : Bool) (op : AtomOp) (size : Nat) (dest : Group → Dest)
    (la : Group → List (Nat × Scalar)) (v v2 : Group → Nat → Nat) : State :=
  if la g = [] then s
  else s.checkedFence c g (fun t => s.overHazard c g scalar false size (la g) fun _ => t) fun s g =>
    s.overHazard c g scalar false size (la g) fun _ =>
      s.access c g scalar true false size (la g) fun s g good =>
        (s.issueAtomic c g op size (some (dest g)) (good.map fun e : Located =>
          (e.2.1, { lane := e.1, va := e.2.1.toNat, place := e.2.2, v := v g e.1, v2 := v2 g e.1 }))).spoilRestart c.gid

/-- A vector atomic of one operand. -/
def State.vatom (s : State) (c : Issue) (g : Group) (op : AtomOp) (d a b : Reg) : State :=
  s.atomic c g false op 4 (fun g => g.dest d 1) (fun g => laneAccesses c g (g.addrV a b))
    (fun g i => (g.srcV .d d i).toNat) fun _ _ => 0

/-- A far reduction (R228, R299): counted since the region entry; one that a restart replays is skipped.  A word whose
other lanes were sent before it replays for the faulted ones (R294) is not counted again. -/
def State.reduceFar (s : State) (c : Issue) (g : Group) (op : AtomOp) (d a b : Reg) : State :=
  match laneAccesses c g (g.addrV a b) with
  | [] => s
  | la =>
    let sent := g.replay.isSome && decide (({ g with replay := none } : Group).issueMask c.plane ≠ c.mask)
    let n := if sent then g.gredCount else g.gredCount + 1
    if !sent ∧ n ≤ g.gredSkip then s.setGroup c.gid { g with gredCount := n }
    else s.overHazard c g false false 4 la fun _ =>
      s.access c g false true false 4 la fun s g good =>
        s.issueAtomic c { g with gredCount := n } op 4 none (good.map fun e : Located =>
          (e.2.1, { lane := e.1, va := e.2.1.toNat, place := e.2.2, v := (g.srcV .d d e.1).toNat, v2 := 0 }))

/-- `VATOM_ADD` (R228). -/
def execVatomAdd (d a b : Reg) (s : State) : Host.Outcome State Fault Refusal :=
  word (.vatomAdd d a b) s fun c g => s.vatom c g .add d a b

/-- `VATOM_ADDF` (R228). -/
def execVatomAddf (d a b : Reg) (s : State) : Host.Outcome State Fault Refusal :=
  word (.vatomAddf d a b) s fun c g => s.vatom c g .addf d a b

/-- `VATOM_MIN_I` (R228). -/
def execVatomMinI (d a b : Reg) (s : State) : Host.Outcome State Fault Refusal :=
  word (.vatomMinI d a b) s fun c g => s.vatom c g .minI d a b

/-- `VATOM_MAX_I` (R228). -/
def execVatomMaxI (d a b : Reg) (s : State) : Host.Outcome State Fault Refusal :=
  word (.vatomMaxI d a b) s fun c g => s.vatom c g .maxI d a b

/-- `VATOM_AND` (R228). -/
def execVatomAnd (d a b : Reg) (s : State) : Host.Outcome State Fault Refusal :=
  word (.vatomAnd d a b) s fun c g => s.vatom c g .and d a b

/-- `VATOM_OR` (R228). -/
def execVatomOr (d a b : Reg) (s : State) : Host.Outcome State Fault Refusal :=
  word (.vatomOr d a b) s fun c g => s.vatom c g .or d a b

/-- `VATOM_XOR` (R228). -/
def execVatomXor (d a b : Reg) (s : State) : Host.Outcome State Fault Refusal :=
  word (.vatomXor d a b) s fun c g => s.vatom c g .xor d a b

/-- `VATOM_XCHG` (R228). -/
def execVatomXchg (d a b : Reg) (s : State) : Host.Outcome State Fault Refusal :=
  word (.vatomXchg d a b) s fun c g => s.vatom c g .xchg d a b

/-- `VATOM.CAS` (R228): the pair holds the compare value and the new value, and receives the old value and success. -/
def execVatomCas (d a b : Reg) (s : State) : Host.Outcome State Fault Refusal :=
  word (.vatomCas d a b) s fun c g =>
    s.atomic c g false .cas 4 (fun g => g.dest d 2) (fun g => laneAccesses c g (g.addrV a b))
      (fun g i => (g.srcVk .d d 0 i).toNat) fun g i => (g.srcVk .d d 1 i).toNat

/-- `SATOM.ADD` (R228). -/
def execSatomAdd (d a b : Reg) (s : State) : Host.Outcome State Fault Refusal :=
  word (.satomAdd d a b) s fun c g =>
    s.atomic c g true .add 8 (fun g => g.dest d 1) (fun g => [(0, g.addrS a b)]) (fun g _ => (g.srcS .d d).toNat) fun _ _ => 0

/-- `SATOM.CAS` (R228). -/
def execSatomCas (d a b : Reg) (s : State) : Host.Outcome State Fault Refusal :=
  word (.satomCas d a b) s fun c g =>
    s.atomic c g true .cas 8 (fun g => g.dest d 2) (fun g => [(0, g.addrS a b)]) (fun g _ => (g.srcSk .d d 0).toNat)
      fun g _ => (g.srcSk .d d 1).toNat

/-- `GRED_ADD` (R228, R299). -/
def execGredAdd (d a b : Reg) (s : State) : Host.Outcome State Fault Refusal :=
  word (.gredAdd d a b) s fun c g => s.reduceFar c g .add d a b

/-- `GRED_ADDF` (R228, R299). -/
def execGredAddf (d a b : Reg) (s : State) : Host.Outcome State Fault Refusal :=
  word (.gredAddf d a b) s fun c g => s.reduceFar c g .addf d a b

/-- `GRED_MAX_I` (R228, R299). -/
def execGredMaxI (d a b : Reg) (s : State) : Host.Outcome State Fault Refusal :=
  word (.gredMaxI d a b) s fun c g => s.reduceFar c g .maxI d a b

end Sys2Proof.Machine
end

