-- ==== Sys2Proof/Machine/Barrier.lean ====
section
/-! DEFINITION. The barrier words (R185, R188). -/

namespace Sys2Proof.Machine

/-- The word at issue ends its run, whether or not S is set (R45). -/
def State.endRun (s : State) : State := { s with cur := s.cur.map fun c => { c with mark := true } }

/-- The arrival of `bar.arr` and `bar.sync`, and then `k`: an arrival replayed after a restart is skipped (R189); one
that the open phase has already parks the group until that phase completes, and so ends its run (R45). -/
def State.arrive (s : State) (c : Issue) (g : Group) (b : Nat) (k : State → State) : State :=
  match g.wait with
  | .arrive _ _ => k (s.countArrival c.gid g b).endRun
  | _ =>
    let g := { g with barN := g.barN.put b (g.issued b + 1) }
    if reached (g.counted b) (g.issued b) then k (s.setGroup c.gid g)
    else if reached (s.barrierAt g b).ph (g.counted b) then k (s.countArrival c.gid g b)
    else s.hold c.gid g (.arrive b (g.counted b))

/-- The wait of `bar.wt` and `bar.sync`: until PH reaches N; then CLK rises to T, the greatest clock of the phase's arrivals
(R185, R226). -/
def State.await (s : State) (gid b : Nat) : State :=
  match s.groupAt gid with
  | none => s
  | some g =>
    let x := s.barrierAt g b
    if reached x.ph (g.issued b) then (s.setGroup gid { g with clk := max g.clk x.t, wait := .none }).endRun
    else s.hold gid g (.barrier b (g.issued b))

/-- `BAR.ARR` (R185). -/
def execBarArr (l : BitVec 7) (s : State) : Host.Outcome State Fault Refusal :=
  word (.barArr l) s fun c g => s.arrive c g (barrierIndex l) fun s => s

/-- `BAR.WT` (R185). -/
def execBarWt (l : BitVec 7) (s : State) : Host.Outcome State Fault Refusal :=
  word (.barWt l) s fun c _ => s.await c.gid (barrierIndex l)

/-- `BAR.SYNC` (R185): arrives, then waits. -/
def execBarSync (l : BitVec 7) (s : State) : Host.Outcome State Fault Refusal :=
  word (.barSync l) s fun c g =>
    match g.wait with
    | .barrier _ _ => s.await c.gid (barrierIndex l)
    | _ => s.arrive c g (barrierIndex l) fun s => s.await c.gid (barrierIndex l)

/-- The word that `bar.q` returns (R185): PH, EXP and C. -/
def Barrier.query (x : Barrier) : Scalar :=
  BitVec.ofNat 64 (x.ph.toNat % 2 ^ 16 * 2 ^ 48 + x.expd.toNat % 2 ^ 24 * 2 ^ 24 + x.c.toNat % 2 ^ 24)

/-- `BAR.Q` (R185). -/
def execBarQ (d : Reg) (l : BitVec 7) (s : State) : Host.Outcome State Fault Refusal :=
  word (.barQ d l) s fun c g => s.scalResult c g d [(s.barrierAt g (barrierIndex l)).query] 0

end Sys2Proof.Machine
end

