-- ==== Sys2Proof/Machine/Control.lean ====
section
/-! DEFINITION. Control flow, the window and the end of a group (R66 to R76). -/

namespace Sys2Proof.Machine

/-! ## Branches (R68, R69) -/

/-- Field a of `bloop` and `bcall` written at issue (R67, R68). -/
def Group.writeField (g : Group) (a : Reg) (v : Scalar) : Group :=
  match a with
  | .s k => g.writeNow k.val v
  | .cm => { g.bumpGen 2048 with cm := widthMask g.width v }
  | .v _ | .nul | .lane | .plane | .xm | .gix | .grx | .clk => g

/-- A branch (R69): `taken` as the condition says; `f` writes field a.  A taken branch out of range traps first. -/
def State.branch (s : State) (c : Issue) (g : Group) (taken : Bool) (off : BitVec 17) (f : Group → Group) : State :=
  let target : Int := g.off + off.toInt
  if taken && (decide (target < 0) || decide ((2 : Int) ^ 20 ≤ target)) then
    s.trapWord c g 15 0 (BitVec.ofInt 64 target) 0
  else
    let s := s.setGroup c.gid (f g)
    if taken then s.fate (.goto target.toNat) else s

/-- `BRA` (R69). -/
def execBra (off : BitVec 17) (s : State) : Host.Outcome State Fault Refusal :=
  word (.bra off) s fun c g => s.branch c g true off id

/-- `BZ` (R69). -/
def execBz (a : Reg) (off : BitVec 17) (s : State) : Host.Outcome State Fault Refusal :=
  word (.bz a off) s fun c g => s.branch c g (g.srcS .a a == 0) off id

/-- `BNZ` (R69). -/
def execBnz (a : Reg) (off : BitVec 17) (s : State) : Host.Outcome State Fault Refusal :=
  word (.bnz a off) s fun c g => s.branch c g (g.srcS .a a != 0) off id

/-- `BNEG` (R69). -/
def execBneg (a : Reg) (off : BitVec 17) (s : State) : Host.Outcome State Fault Refusal :=
  word (.bneg a off) s fun c g => s.branch c g ((g.srcS .a a).getLsbD 63) off id

/-- `BNN` (R69). -/
def execBnn (a : Reg) (off : BitVec 17) (s : State) : Host.Outcome State Fault Refusal :=
  word (.bnn a off) s fun c g => s.branch c g (!(g.srcS .a a).getLsbD 63) off id

/-- `BLOOP` (R69). -/
def execBloop (a : Reg) (off : BitVec 17) (s : State) : Host.Outcome State Fault Refusal :=
  word (.bloop a off) s fun c g => s.branch c g (g.srcS .a a - 1 != 0) off fun x => x.writeField a (g.srcS .a a - 1)

/-- `BCALL` (R69). -/
def execBcall (a : Reg) (off : BitVec 17) (s : State) : Host.Outcome State Fault Refusal :=
  word (.bcall a off) s fun c g => s.branch c g true off fun x => x.writeField a (BitVec.ofNat 64 (g.off + 1))

/-- `BANY` (R69). -/
def execBany (off : BitVec 17) (s : State) : Host.Outcome State Fault Refusal :=
  word (.bany off) s fun c g => s.branch c g (g.xm &&& g.cm != 0) off id

/-! ## Indirect transfers (R70) -/

/-- A transfer to the offset in a scalar. -/
def State.jumpTo (s : State) (c : Issue) (g : Group) (v : Scalar) : State :=
  if 2 ^ 20 ≤ v.toNat then s.trapWord c g 15 0 v 0 else s.fate (.goto v.toNat)

/-- `JMP` (R70). -/
def execJmp (a : Reg) (s : State) : Host.Outcome State Fault Refusal :=
  word (.jmp a) s fun c g => s.jumpTo c g (g.srcS .a a)

/-- `RET` (R70). -/
def execRet (a : Reg) (s : State) : Host.Outcome State Fault Refusal :=
  word (.ret a) s fun c g => s.jumpTo c g (g.srcS .a a)

/-! ## nop, park and exit (R72 to R74) -/

/-- `NOP` (R72). -/
def execNop (s : State) : Host.Outcome State Fault Refusal :=
  word .nop s fun _ _ => s

/-- `PARK` (R73). -/
def execPark (s : State) : Host.Outcome State Fault Refusal :=
  word .park s fun _ _ => s.endRun

/-- The word waits until nothing is outstanding and every matrix instruction has completed, and a redundant copy has
passed its compare; then `k` (R74, R257, R309). -/
def State.whenQuiet (s : State) (c : Issue) (g : Group) (k : State → State) : State :=
  if g.results ≠ [] ∨ !g.matrixDone then s.hold c.gid g .quiet
  else if s.redundant g ∧ g.wait ≠ .compared then s.hold c.gid g .compare
  else k s

/-- `EXIT` (R74).  An eviction or restore group ends once every write it issued has been performed (R326). -/
def execExit (s : State) : Host.Outcome State Fault Refusal :=
  word .exit s fun c g => match g.role with
    | .kernel => s.whenQuiet c g fun s => (s.endGroup c.gid).fate .left
    | .evict | .restore => s.whenQuiet c g fun s => s.afterFence c g fun s _ => (s.endGroup c.gid).fate .left

/-! ## The window (R75, R76) -/

/-- `WBASE` (R75): the literal counts 16 registers each. -/
def execWbase (l : BitVec 7) (s : State) : Host.Outcome State Fault Refusal :=
  word (.wbase l) s fun c g => s.setGroup c.gid { g with winb := l.toNat * 16 }

/-- `WGET` (R76). -/
def execWget (d : Reg) (s : State) : Host.Outcome State Fault Refusal :=
  word (.wget d) s fun c g => s.scalResult c g d [BitVec.ofNat 64 g.winb] 0

end Sys2Proof.Machine
end

