-- ==== Sys2Proof/Machine/Float.lean ====
section
/-! DEFINITION. The number formats and the arithmetic on them: values, rounding, FTZ and flags (R89 to R98), LX8
(R100 to R102), the conversions (R103), and the functions of R125 and R126.  Every operation computes an exact value
and rounds it once; a value that is no dyadic fraction carries a last bit that only says it is not exact. -/

namespace Sys2Proof.Machine

/-! ## Formats and values -/

/-- An IEEE-shaped format: exponent and fraction bits (R89). -/
structure Fmt where
  eb : Nat
  fb : Nat
  deriving DecidableEq, Repr

def fp32 : Fmt := { eb := 8, fb := 23 }
def fp16 : Fmt := { eb := 5, fb := 10 }
def bf16 : Fmt := { eb := 8, fb := 7 }
def e4m3 : Fmt := { eb := 4, fb := 3 }
def e5m2 : Fmt := { eb := 5, fb := 2 }

/-- The exponent of the smallest positive subnormal: 1 − bias − fraction bits. -/
def Fmt.low (f : Fmt) : Int := 2 - 2 ^ (f.eb - 1) - f.fb

/-- The exponent of the smallest normal magnitude. -/
def Fmt.emin (f : Fmt) : Int := 2 - 2 ^ (f.eb - 1)

/-- Code of infinity without its sign, of the canonical NaN (R90), and of the sign. -/
def Fmt.infCode (f : Fmt) : Nat := (2 ^ f.eb - 1) * 2 ^ f.fb
def Fmt.nanCode (f : Fmt) : Nat := f.infCode + 2 ^ (f.fb - 1)
def Fmt.signBit (f : Fmt) : Nat := 2 ^ (f.eb + f.fb)

/-- A value: NaN (signalling or not), infinity, or (−1)^neg × m × 2^e. -/
inductive Val
  | nan (signalling : Bool)
  | inf (neg : Bool)
  | fin (neg : Bool) (m : Nat) (e : Int)
  deriving DecidableEq, Repr, Inhabited

/-- A code read as a value; with `ftz` a subnormal reads as a zero of its sign (R96). -/
def Fmt.read (f : Fmt) (ftz : Bool) (c : Nat) : Val :=
  let neg := decide (f.signBit ≤ c)
  let e := c / 2 ^ f.fb % 2 ^ f.eb
  let m := c % 2 ^ f.fb
  if e = 2 ^ f.eb - 1 then (if m = 0 then .inf neg else .nan (decide (m < 2 ^ (f.fb - 1))))
  else if e = 0 then .fin neg (if ftz then 0 else m) f.low
  else .fin neg (2 ^ f.fb + m) (f.low + (e - 1 : Nat))

/-- A signalling NaN raises NV when it is read (R91). -/
def Val.signals : Val → BitVec 5
  | .nan true => flagNV
  | .nan false | .inf _ | .fin _ _ _ => 0

def Val.isNan : Val → Bool
  | .nan _ => true
  | .inf _ | .fin _ _ _ => false

/-! ## Rounding (R93, R94, R96, R97) -/

/-- Rounding modes (R42): 0 RNE, 1 RZ, 2 RU, 3 RD. -/
def rne : BitVec 2 := 0

/-- m × 2^e to a multiple of 2^q: the multiple, and whether bits were lost. -/
def roundAt (rm : BitVec 2) (neg : Bool) (m : Nat) (e q : Int) : Nat × Bool :=
  if q ≤ e then (m * 2 ^ (e - q).toNat, false)
  else
    let d := (q - e).toNat
    let n := m / 2 ^ d
    let r := m % 2 ^ d
    let up :=
      if rm = 0 then decide (2 ^ d < 2 * r) || (decide (2 * r = 2 ^ d) && decide (n % 2 = 1))
      else if rm = 1 then false
      else decide (r ≠ 0) && (if rm = 2 then !neg else neg)
    (if up then n + 1 else n, decide (r ≠ 0))

/-- The code of an overflowing result (R94). -/
def Fmt.overflow (f : Fmt) (rm : BitVec 2) (neg : Bool) : Nat :=
  (if rm = 0 ∨ (rm = 2 ∧ !neg) ∨ (rm = 3 ∧ neg) then f.infCode else f.infCode - 1)

/-- A nonzero magnitude rounded to a format: the code without its sign, and the flags. -/
def Fmt.round (f : Fmt) (rm : BitVec 2) (ftz neg : Bool) (m : Nat) (e : Int) : Nat × BitVec 5 :=
  let x : Int := (Nat.log2 m : Nat) + e
  let (u, _) := roundAt rm neg m e (x - f.fb)
  let tiny := decide ((if u = 2 ^ (f.fb + 1) then x + 1 else x) < f.emin)
  let q : Int := max (x - f.fb) f.low
  let (n, lost) := roundAt rm neg m e q
  let code := (q - f.low).toNat * 2 ^ f.fb + n
  if f.infCode ≤ code then (f.overflow rm neg, flagOF ||| flagNX)
  else if ftz ∧ code < 2 ^ f.fb then (0, flagUF ||| flagNX)
  else (code, flagIf lost flagNX ||| flagIf (tiny && lost) flagUF)

/-- A value as a code of a format, with the flags of its rounding. -/
def Fmt.write (f : Fmt) (rm : BitVec 2) (ftz : Bool) : Val → Nat × BitVec 5
  | .nan _ => (f.nanCode, 0)
  | .inf neg => ((if neg then f.signBit else 0) + f.infCode, 0)
  | .fin neg m e =>
    let s := if neg then f.signBit else 0
    if m = 0 then (s, 0)
    else
      let (c, fl) := f.round rm ftz neg m e
      (s + c, fl)

/-! ## Exact sums and products (R93, R95) -/

/-- The exact sum; a zero sum of operands of opposite sign is +0, in RD −0 (R95). -/
def Val.add (rm : BitVec 2) (x y : Val) : Val × BitVec 5 :=
  match x, y with
  | .nan _, _ | _, .nan _ => (.nan false, x.signals ||| y.signals)
  | .inf a, .inf b => if a = b then (.inf a, 0) else (.nan false, flagNV)
  | .inf a, .fin _ _ _ | .fin _ _ _, .inf a => (.inf a, 0)
  | .fin a m e, .fin b n f =>
    let q := min e f
    let term (neg : Bool) (k : Nat) (g : Int) : Int := let v : Int := (k * 2 ^ (g - q).toNat : Nat); if neg then -v else v
    let t := term a m e + term b n f
    if t = 0 then (.fin (if a = b then a else rm == 3) 0 q, 0)
    else (.fin (decide (t < 0)) t.natAbs q, 0)

/-- The value with its sign inverted. -/
def Val.neg : Val → Val
  | .nan s => .nan s
  | .inf a => .inf !a
  | .fin a m e => .fin (!a) m e

/-- The exact product. -/
def Val.mul (x y : Val) : Val × BitVec 5 :=
  match x, y with
  | .nan _, _ | _, .nan _ => (.nan false, x.signals ||| y.signals)
  | .inf a, .inf b => (.inf (a != b), 0)
  | .inf a, .fin b n _ | .fin b n _, .inf a => if n = 0 then (.nan false, flagNV) else (.inf (a != b), 0)
  | .fin a m e, .fin b n f => (.fin (a != b) (m * n) (e + f), 0)

/-- The exact product plus the addend: 0 × ∞ is invalid even with a NaN addend (R121). -/
def Val.fma (rm : BitVec 2) (x y z : Val) : Val × BitVec 5 :=
  let (p, fl) := x.mul y
  let (r, fl') := p.add rm z
  (r, fl ||| fl')

/-- How GCTL has a group round (R42). -/
structure Rounding where
  rm : BitVec 2
  ftz : Bool

/-- An operation on codes of a format: operands read, the exact result rounded once, the flags of both. -/
def Fmt.op (f : Fmt) (r : Rounding) (v : Val × BitVec 5) : Nat × BitVec 5 :=
  let (c, fl) := f.write r.rm r.ftz v.1
  (c, v.2 ||| fl)

def Fmt.addc (f : Fmt) (r : Rounding) (a b : Nat) : Nat × BitVec 5 :=
  f.op r ((f.read r.ftz a).add r.rm (f.read r.ftz b))
def Fmt.subc (f : Fmt) (r : Rounding) (a b : Nat) : Nat × BitVec 5 :=
  f.op r ((f.read r.ftz a).add r.rm (f.read r.ftz b).neg)
def Fmt.mulc (f : Fmt) (r : Rounding) (a b : Nat) : Nat × BitVec 5 :=
  f.op r ((f.read r.ftz a).mul (f.read r.ftz b))
def Fmt.fmac (f : Fmt) (r : Rounding) (a b d : Nat) : Nat × BitVec 5 :=
  f.op r ((f.read r.ftz a).fma r.rm (f.read r.ftz b) (f.read r.ftz d))

/-! ## Minimum, maximum and compares (R122, R124) -/

/-- A code as a number that orders finite values and infinities, −0 below +0. -/
def Fmt.orderKey (f : Fmt) (c : Nat) : Int := if f.signBit ≤ c then -((c - f.signBit : Nat) : Int) - 1 else c

/-- A code with a subnormal turned into the zero of its sign, when `ftz` (R96). -/
def Fmt.flush (f : Fmt) (ftz : Bool) (c : Nat) : Nat :=
  if ftz ∧ c % f.signBit < 2 ^ f.fb then c / f.signBit * f.signBit else c

/-- The lesser or greater operand unrounded: a NaN yields the other operand. -/
def Fmt.minMax (f : Fmt) (ftz greater : Bool) (a b : Nat) : Nat × BitVec 5 :=
  let x := f.read ftz a
  let y := f.read ftz b
  let fl := x.signals ||| y.signals
  let a := f.flush ftz a
  let b := f.flush ftz b
  if x.isNan ∧ y.isNan then (f.nanCode, fl)
  else if x.isNan then (b, fl)
  else if y.isNan then (a, fl)
  else if decide (f.orderKey a < f.orderKey b) != greater then (a, fl) else (b, fl)

/-- Relations of `vfcmp` (R124). -/
inductive Rel
  | eq | lt | le | un
  deriving DecidableEq, Repr

/-- A code as a number that orders values, the zeros equal. -/
def Fmt.valueKey (f : Fmt) (c : Nat) : Int := if f.signBit ≤ c then -((c - f.signBit : Nat) : Int) else c

/-- A compare: its truth and its flag. -/
def Fmt.relate (f : Fmt) (ftz : Bool) (r : Rel) (a b : Nat) : Bool × BitVec 5 :=
  let x := f.read ftz a
  let y := f.read ftz b
  let p := f.valueKey (f.flush ftz a)
  let q := f.valueKey (f.flush ftz b)
  let quiet := x.signals ||| y.signals
  if x.isNan ∨ y.isNan then
    match r with
    | .eq => (false, quiet)
    | .un => (true, quiet)
    | .lt | .le => (false, flagNV)
  else match r with
    | .eq => (decide (p = q), 0)
    | .un => (false, 0)
    | .lt => (decide (p < q), 0)
    | .le => (decide (p ≤ q), 0)

/-! ## Reciprocal and roots (R125, R126) -/

/-- The integer square root of a number of at most 2 n bits. -/
def isqrt (v : Nat) : Nat → Nat → Nat
  | 0, r => r
  | n + 1, r => isqrt v n (if (r + 2 ^ n) * (r + 2 ^ n) ≤ v then r + 2 ^ n else r)

/-- A magnitude q × 2^e, below the next multiple when it is not exact: one more bit says so. -/
def withRest (neg : Bool) (q : Nat) (e : Int) (exact_ : Bool) : Val := .fin neg (2 * q + if exact_ then 0 else 1) (e - 1)

/-- 1 / a. -/
def Val.recip : Val → Val × BitVec 5
  | .nan s => (.nan false, flagIf s flagNV)
  | .inf a => (.fin a 0 0, 0)
  | .fin a m e =>
    if m = 0 then (.inf a, flagDZ)
    else (withRest a (2 ^ 64 / m) (-64 - e) (decide (2 ^ 64 % m = 0)), 0)

/-- m × 2^e with an even exponent. -/
def evenExp (m : Nat) (e : Int) : Nat × Int := if e % 2 = 0 then (m, e) else (2 * m, e - 1)

/-- √a. -/
def Val.sqrt : Val → Val × BitVec 5
  | .nan s => (.nan false, flagIf s flagNV)
  | .inf a => if a then (.nan false, flagNV) else (.inf false, 0)
  | .fin a m e =>
    if m = 0 then (.fin a 0 0, 0)
    else if a then (.nan false, flagNV)
    else
      let (m, e) := evenExp m e
      let v := m * 2 ^ 64
      let r := isqrt v 48 0
      (withRest false r (e / 2 - 32) (decide (r * r = v)), 0)

/-- 1 / √a. -/
def Val.rsqrt : Val → Val × BitVec 5
  | .nan s => (.nan false, flagIf s flagNV)
  | .inf a => if a then (.nan false, flagNV) else (.fin false 0 0, 0)
  | .fin a m e =>
    if m = 0 then (.inf a, flagDZ)
    else if a then (.nan false, flagNV)
    else
      let (m, e) := evenExp m e
      let v := 2 ^ 192 / m
      let r := isqrt v 97 0
      (withRest false r (-96 - e / 2) (decide (r * r * m = 2 ^ 192)), 0)

/-! ## Exponential, logarithm and hyperbolic tangent, in fixed point of 224 bits below the point -/

def fixOne : Nat := 2 ^ 224

/-- Sum of the first `n` terms of a series: `t` is the next term, `next k t` the one after term k. -/
def series (next : Nat → Nat → Nat) : (n k t acc : Nat) → Nat
  | 0, _, _, acc => acc
  | n + 1, k, t, acc => series next n (k + 1) (next k t) (acc + t)

/-- e^y for 0 ≤ y < 18, by its power series. -/
def fixExp (y : Nat) : Nat := series (fun k t => t * y / (fixOne * (k + 1))) 160 0 fixOne 0

/-- Σ z^(2k+1) / (2k+1) for 0 ≤ z ≤ 1/3. -/
def fixAtanh (z : Nat) : Nat :=
  ((List.range 80).foldl (fun (p : Nat × Nat) k => (p.1 + p.2 / (2 * k + 1), p.2 * z / fixOne * z / fixOne)) (0, z)).1

/-- ln 2, as 2 artanh (1/3). -/
def fixLn2 : Nat := 2 * fixAtanh (fixOne / 3)

/-- 2^(n + x) for a fraction x that is not zero. -/
def fixExp2 (n : Int) (x : Nat) : Val := withRest false (fixExp (x * fixLn2 / fixOne)) (n - 224) false

/-- A signed dyadic number as a multiple of 2^−224. -/
def toFix (neg : Bool) (m : Nat) (e : Int) : Int :=
  let v : Int := (m * 2 ^ (e + 224).toNat / 2 ^ (-(e + 224)).toNat : Nat)
  if neg then -v else v

/-- 2^a with the operands that R126 lists. -/
def Val.exp2 : Val → Val × BitVec 5
  | .nan s => (.nan false, flagIf s flagNV)
  | .inf a => if a then (.fin false 0 0, 0) else (.inf false, 0)
  | .fin a m e =>
    if m = 0 then (.fin false 1 0, 0)
    else
      let x := toFix a m e
      let n := x / (fixOne : Int)
      let r := (x % (fixOne : Int)).toNat
      if 128 ≤ n then (.inf false, flagOF ||| flagNX)
      else if x ≤ -150 * (fixOne : Int) then (.fin false 0 0, flagUF ||| flagNX)
      else if r = 0 then (.fin false 1 n, 0)
      else (fixExp2 n r, 0)

/-- log2 a with the operands that R126 lists. -/
def Val.log2 : Val → Val × BitVec 5
  | .nan s => (.nan false, flagIf s flagNV)
  | .inf a => if a then (.nan false, flagNV) else (.inf false, 0)
  | .fin a m e =>
    if m = 0 then (.inf true, flagDZ)
    else if a then (.nan false, flagNV)
    else
      let k := Nat.log2 m
      let n : Int := e + (k : Nat)
      if m = 2 ^ k then (.fin (decide (n < 0)) n.natAbs 0, 0)
      else
        let z := (m - 2 ^ k) * fixOne / (m + 2 ^ k)
        let t := n * (fixOne : Int) + ((2 * fixAtanh z * fixOne / fixLn2 : Nat) : Int)
        (withRest (decide (t < 0)) t.natAbs (-224) false, 0)

/-- tanh a with the operands that R126 lists. -/
def Val.tanh : Val → Val × BitVec 5
  | .nan s => (.nan false, flagIf s flagNV)
  | .inf a => (.fin a 1 0, 0)
  | .fin a m e =>
    if m = 0 then (.fin a 0 0, 0)
    else if 9 * (fixOne : Int) ≤ toFix false m e then (.fin a 1 0, flagNX)
    else if toFix false m e < 2 ^ 212 then
      (.fin a m e, flagNX ||| flagIf (decide ((Nat.log2 m : Int) + e < -126)) flagUF)
    else
      let ex := fixExp (2 * (toFix false m e).toNat)
      (withRest a ((ex - fixOne) * fixOne / (ex + fixOne)) (-224) false, 0)

/-! ## Conversions (R103) -/

/-- An INT32 as a value. -/
def intVal (v : Lane) : Val := .fin (decide (v.toInt < 0)) v.toInt.natAbs 0

/-- A value as an INT32, per RMODE: a NaN or a number out of range is invalid. -/
def Val.toInt32 (rm : BitVec 2) : Val → Lane × BitVec 5
  | .nan _ => (0, flagNV)
  | .inf a => (if a then 0x80000000 else 0x7FFFFFFF, flagNV)
  | .fin a m e =>
    let (n, lost) := roundAt rm a m e 0
    let v : Int := if a then -(n : Int) else n
    if 2 ^ 31 - 1 < v then (0x7FFFFFFF, flagNV)
    else if v < -(2 ^ 31) then (0x80000000, flagNV)
    else (BitVec.ofInt 32 v, flagIf lost flagNX)

/-- A value into another format; a signalling NaN raises NV. -/
def Fmt.convert (f : Fmt) (r : Rounding) (v : Val) : Nat × BitVec 5 := f.op r (v, v.signals)

/-- FP32 into E4M3 or E5M2: RNE, saturating at the largest finite code; FTZ has no effect.  `top` is that code, and
`inf` what an infinity becomes. -/
def Fmt.saturate (f : Fmt) (top inf nan : Nat) (v : Val) : Nat × BitVec 5 :=
  match v with
  | .nan _ => (nan, v.signals)
  | .inf a => ((if a then 0x80 else 0) + inf, if inf = top then flagOF ||| flagNX else 0)
  | .fin a m e =>
    let s := if a then 0x80 else 0
    if m = 0 then (s, 0)
    else
      let q : Int := max ((Nat.log2 m : Int) + e - f.fb) f.low
      let (n, lost) := roundAt rne a m e q
      let code := (q - f.low).toNat * 2 ^ f.fb + n
      let above := decide (top < code) || (decide (top = code) && lost && decide ((n : Int) * 2 ^ (q - min q e).toNat < (m : Int) * 2 ^ (e - min q e).toNat))
      if above then (s + top, flagOF ||| flagNX)
      else (s + code, flagIf lost flagNX ||| flagIf (lost && decide ((Nat.log2 m : Int) + e < f.emin)) flagUF)

/-- E4M3: no infinity, and one NaN code for each sign (R89). -/
def e4m3Read (c : Nat) : Val :=
  if c % 128 = 0x7F then .nan false
  else if c / 8 % 16 = 15 then .fin (decide (128 ≤ c)) (8 + c % 8) 5
  else e4m3.read false c

/-- E5M2: its NaNs carry no signalling distinction (R91). -/
def e5m2Read (c : Nat) : Val :=
  match e5m2.read false c with
  | .nan _ => .nan false
  | v => v

/-- FP32 to E4M3 and E5M2 (R103). -/
def toE4m3 (v : Val) : Nat × BitVec 5 := e4m3.saturate 0x7E 0x7E 0x7F v
def toE5m2 (v : Val) : Nat × BitVec 5 := e5m2.saturate 0x7B 0x7C 0x7E v

/-! ## LX8 (R100 to R102) -/

/-- Width row k (R100): w, fw and the exponents in order. -/
def lx8Row : Nat → Nat × List Int
  | 0 => (5, [-1, 0])
  | 1 => (3, [-3, -2, 1, 2])
  | 2 => (1, [-7, -6, -5, -4, 3, 4, 5, 6])
  | 3 => (0, [-11, -10, -9, -8, 7, 8, 9, 10])
  | 4 => (0, [-13, -12, 11, 12])
  | 5 => (0, [-14, 13])
  | _ => (0, [-15])

/-- The value of an LX8 code. -/
def lx8Read (c : Nat) : Val :=
  if c = 0 then .fin false 0 0
  else if c = 0x80 then .nan false
  else
    let m := c % 128
    let k := 6 - Nat.log2 m
    let t := m % 2 ^ (6 - k)
    let (fw, es) := lx8Row k
    .fin (decide (128 ≤ c)) (2 ^ fw + t % 2 ^ fw) (es.getD (t / 2 ^ fw) 0 - fw)

/-- A positive LX8 magnitude in units of 2^−15. -/
def lx8Units (c : Nat) : Nat :=
  match lx8Read c with
  | .fin _ m e => m * 2 ^ (e + 15).toNat / 2 ^ (-(e + 15)).toNat
  | .nan _ | .inf _ => 0

/-- The neighbours of a magnitude among the positive codes and zero: code and units of the greatest not above it, and
of the least not below it; `x` and the units are in steps of 2^−s units. -/
def lx8Below (x s : Nat) : Nat × Nat :=
  (List.range 128).foldl (fun (b : Nat × Nat) c => if lx8Units c * 2 ^ s ≤ x ∧ b.2 < lx8Units c then (c, lx8Units c) else b) (0, 0)
def lx8Above (x s : Nat) : Nat × Nat :=
  (List.range 128).foldl (fun (b : Nat × Nat) c =>
    if x ≤ lx8Units c * 2 ^ s ∧ (lx8Units c < b.2) then (c, lx8Units c) else b) (3, lx8Units 3)

/-- FP32 to LX8 (R102). -/
def toLx8 (v : Val) : Nat × BitVec 5 :=
  match v with
  | .nan _ => (0x80, v.signals)
  | .inf a => (if a then 0x83 else 0x03, flagOF ||| flagNX)
  | .fin a m e =>
    if m = 0 then (0, 0)
    else
      let s := (-(e + 15)).toNat
      let x := m * 2 ^ (e + 15).toNat
      if lx8Units 3 * 2 ^ s < x then (if a then 0x83 else 0x03, flagOF ||| flagNX)
      else
        let (c, u) := lx8Below x s
        let (d, w) := lx8Above x s
        let down := x - u * 2 ^ s
        let up := w * 2 ^ s - x
        let k := if down < up then c else if up < down then d
          else if c % 2 = 0 then c else if d % 2 = 0 then d else c
        let lost := decide (down ≠ 0) && decide (up ≠ 0)
        (if k = 0 then 0 else if a then k + 128 else k,
          flagIf lost flagNX ||| flagIf (lost && decide (x < 2 ^ s)) flagUF)

/-! ## Reductions (R106) -/

/-- One level of the tree: the lower half combined with the upper half; an absent lane takes no part. -/
def halve {α : Type} (combine : α → α → α) (l : List (Option α)) : List (Option α) :=
  let h := l.length / 2
  (l.take h).zipWith (fun x y => match x, y with
    | none, y => y
    | some x, none => some x
    | some x, some y => some (combine x y)) (l.drop h)

/-- The tree over the lanes of a group: 2^n of them. -/
def tree {α : Type} (combine : α → α → α) : Nat → List (Option α) → Option α
  | 0, l => l.headD none
  | n + 1, l => if l.length ≤ 1 then l.headD none else tree combine n (halve combine l)

end Sys2Proof.Machine
end

