-- ==== Sys2Proof/Machine/VecInt.lean ====
section
/-! DEFINITION. The lane integer words: VINT and VIMM (R116 to R120). -/

namespace Sys2Proof.Machine

/-! ## Lane values (R116 to R118) -/

/-- High words of the product, signed and unsigned. -/
def vmulhValue (a b : Lane) : Lane := BitVec.ofInt 32 (a.toInt * b.toInt / 2 ^ 32)
def vmulhnValue (a b : Lane) : Lane := BitVec.ofNat 32 (a.toNat * b.toNat / 2 ^ 32)

/-- A lane shift count: bits [5:0] (R117). -/
def laneCount (b : Lane) : Nat := b.toNat % 64

/-- Bit k moved to bit 31 − k. -/
def bitReverse (a : Lane) : Lane := (List.range 32).foldl (fun (r : Lane) k => r ||| (if a.getLsbD k then BitVec.ofNat 32 (2 ^ (31 - k)) else 0)) 0

/-- Byte k of a lane (R92). -/
def laneByte (a : Lane) (k : Nat) : Byte := (a >>> (8 * k)).setWidth 8

/-- The accumulator plus four byte products (R118), signed and unsigned. -/
def dp4 (acc a b : Lane) : Lane :=
  (List.range 4).foldl (fun (r : Lane) k => r + (laneByte a k).signExtend 32 * (laneByte b k).signExtend 32) acc
def dp4n (acc a b : Lane) : Lane :=
  (List.range 4).foldl (fun (r : Lane) k => r + (laneByte a k).zeroExtend 32 * (laneByte b k).zeroExtend 32) acc

/-- A lane immediate: imm10 sign-extended to 32 bits (R120). -/
def lane10 (imm : BitVec 10) : Lane := imm.signExtend 32

/-- The condition mask with the issuing lanes set as `p` says, at issue; inactive lanes keep their bits (R119).  With no issuing
lane nothing is written (R171). -/
def State.compare (s : State) (c : Issue) (g : Group) (flags : BitVec 5) (p : Nat → Bool) : State :=
  let set := maskOf ((lanesOf g.width c.mask).filter p)
  if c.mask = 0 then s
  else
    let g := { g with cm := (g.cm &&& ~~~c.mask) ||| set }
    s.setGroup c.gid ((g.bumpGen 2048).mergeFlags flags)

/-! ## Register forms, major 1 (R116) -/

/-- `VADD` (R116). -/
def execVadd (d a b : Reg) (s : State) : Host.Outcome State Fault Refusal :=
  word (.vadd d a b) s fun c g => s.vecResult c g d 1 0 fun _ i => (g.srcV .a a i) + (g.srcV .b b i)

/-- `VSUB` (R116). -/
def execVsub (d a b : Reg) (s : State) : Host.Outcome State Fault Refusal :=
  word (.vsub d a b) s fun c g => s.vecResult c g d 1 0 fun _ i => (g.srcV .a a i) - (g.srcV .b b i)

/-- `VMUL` (R116). -/
def execVmul (d a b : Reg) (s : State) : Host.Outcome State Fault Refusal :=
  word (.vmul d a b) s fun c g => s.vecResult c g d 1 0 fun _ i => (g.srcV .a a i) * (g.srcV .b b i)

/-- `VMULH_I` (R116). -/
def execVmulhI (d a b : Reg) (s : State) : Host.Outcome State Fault Refusal :=
  word (.vmulhI d a b) s fun c g => s.vecResult c g d 1 0 fun _ i => vmulhValue (g.srcV .a a i) (g.srcV .b b i)

/-- `VMULH_N` (R116). -/
def execVmulhN (d a b : Reg) (s : State) : Host.Outcome State Fault Refusal :=
  word (.vmulhN d a b) s fun c g => s.vecResult c g d 1 0 fun _ i => vmulhnValue (g.srcV .a a i) (g.srcV .b b i)

/-- `VMAD` (R116). -/
def execVmad (d a b : Reg) (s : State) : Host.Outcome State Fault Refusal :=
  word (.vmad d a b) s fun c g => s.vecResult c g d 1 0 fun _ i => (g.srcV .a a i) * (g.srcV .b b i) + (g.srcV .d d i)

/-- `VMIN_I` (R116). -/
def execVminI (d a b : Reg) (s : State) : Host.Outcome State Fault Refusal :=
  word (.vminI d a b) s fun c g => s.vecResult c g d 1 0 fun _ i => if (g.srcV .a a i).slt (g.srcV .b b i) then (g.srcV .a a i) else (g.srcV .b b i)

/-- `VMIN_N` (R116). -/
def execVminN (d a b : Reg) (s : State) : Host.Outcome State Fault Refusal :=
  word (.vminN d a b) s fun c g => s.vecResult c g d 1 0 fun _ i => if (g.srcV .a a i) < (g.srcV .b b i) then (g.srcV .a a i) else (g.srcV .b b i)

/-- `VMAX_I` (R116). -/
def execVmaxI (d a b : Reg) (s : State) : Host.Outcome State Fault Refusal :=
  word (.vmaxI d a b) s fun c g => s.vecResult c g d 1 0 fun _ i => if (g.srcV .a a i).slt (g.srcV .b b i) then (g.srcV .b b i) else (g.srcV .a a i)

/-- `VMAX_N` (R116). -/
def execVmaxN (d a b : Reg) (s : State) : Host.Outcome State Fault Refusal :=
  word (.vmaxN d a b) s fun c g => s.vecResult c g d 1 0 fun _ i => if (g.srcV .a a i) < (g.srcV .b b i) then (g.srcV .b b i) else (g.srcV .a a i)

/-- `VAND` (R116). -/
def execVand (d a b : Reg) (s : State) : Host.Outcome State Fault Refusal :=
  word (.vand d a b) s fun c g => s.vecResult c g d 1 0 fun _ i => (g.srcV .a a i) &&& (g.srcV .b b i)

/-- `VOR` (R116). -/
def execVor (d a b : Reg) (s : State) : Host.Outcome State Fault Refusal :=
  word (.vor d a b) s fun c g => s.vecResult c g d 1 0 fun _ i => (g.srcV .a a i) ||| (g.srcV .b b i)

/-- `VXOR` (R116). -/
def execVxor (d a b : Reg) (s : State) : Host.Outcome State Fault Refusal :=
  word (.vxor d a b) s fun c g => s.vecResult c g d 1 0 fun _ i => (g.srcV .a a i) ^^^ (g.srcV .b b i)

/-- `VANDN` (R116). -/
def execVandn (d a b : Reg) (s : State) : Host.Outcome State Fault Refusal :=
  word (.vandn d a b) s fun c g => s.vecResult c g d 1 0 fun _ i => (g.srcV .a a i) &&& ~~~(g.srcV .b b i)

/-- `VSHL` (R117). -/
def execVshl (d a b : Reg) (s : State) : Host.Outcome State Fault Refusal :=
  word (.vshl d a b) s fun c g => s.vecResult c g d 1 0 fun _ i => (g.srcV .a a i) <<< laneCount (g.srcV .b b i)

/-- `VSHR` (R117). -/
def execVshr (d a b : Reg) (s : State) : Host.Outcome State Fault Refusal :=
  word (.vshr d a b) s fun c g => s.vecResult c g d 1 0 fun _ i => (g.srcV .a a i) >>> laneCount (g.srcV .b b i)

/-- `VSRA` (R117). -/
def execVsra (d a b : Reg) (s : State) : Host.Outcome State Fault Refusal :=
  word (.vsra d a b) s fun c g => s.vecResult c g d 1 0 fun _ i => (g.srcV .a a i).sshiftRight (laneCount (g.srcV .b b i))

/-- `VSEL` (R117). -/
def execVsel (d a b : Reg) (s : State) : Host.Outcome State Fault Refusal :=
  word (.vsel d a b) s fun c g => s.vecResult c g d 1 0 fun _ i => if g.cm.getLsbD i then (g.srcV .a a i) else (g.srcV .b b i)

/-- `VDP4_I` (R118). -/
def execVdp4I (d a b : Reg) (s : State) : Host.Outcome State Fault Refusal :=
  word (.vdp4I d a b) s fun c g => s.vecResult c g d 1 0 fun _ i => dp4 (g.srcV .d d i) (g.srcV .a a i) (g.srcV .b b i)

/-- `VDP4_N` (R118). -/
def execVdp4N (d a b : Reg) (s : State) : Host.Outcome State Fault Refusal :=
  word (.vdp4N d a b) s fun c g => s.vecResult c g d 1 0 fun _ i => dp4n (g.srcV .d d i) (g.srcV .a a i) (g.srcV .b b i)

/-- `VABS` (R116). -/
def execVabs (d a : Reg) (s : State) : Host.Outcome State Fault Refusal :=
  word (.vabs d a) s fun c g => s.vecResult c g d 1 0 fun _ i => if (g.srcV .a a i).slt 0 then 0 - g.srcV .a a i else g.srcV .a a i

/-- `VCLZ` (R116). -/
def execVclz (d a : Reg) (s : State) : Host.Outcome State Fault Refusal :=
  word (.vclz d a) s fun c g => s.vecResult c g d 1 0 fun _ i => BitVec.ofNat 32 (leadingZeros 32 (g.srcV .a a i).toNat)

/-- `VPOP` (R116). -/
def execVpop (d a : Reg) (s : State) : Host.Outcome State Fault Refusal :=
  word (.vpop d a) s fun c g => s.vecResult c g d 1 0 fun _ i => BitVec.ofNat 32 (oneBits 32 (g.srcV .a a i).toNat)

/-- `VBREV` (R116). -/
def execVbrev (d a : Reg) (s : State) : Host.Outcome State Fault Refusal :=
  word (.vbrev d a) s fun c g => s.vecResult c g d 1 0 fun _ i => bitReverse (g.srcV .a a i)

/-- `VCMP_EQ` (R119). -/
def execVcmpEq (a b : Reg) (s : State) : Host.Outcome State Fault Refusal :=
  word (.vcmpEq a b) s fun c g => s.compare c g 0 fun i => (g.srcV .a a i) == (g.srcV .b b i)

/-- `VCMP_NE` (R119). -/
def execVcmpNe (a b : Reg) (s : State) : Host.Outcome State Fault Refusal :=
  word (.vcmpNe a b) s fun c g => s.compare c g 0 fun i => (g.srcV .a a i) != (g.srcV .b b i)

/-- `VCMP_LT_I` (R119). -/
def execVcmpLtI (a b : Reg) (s : State) : Host.Outcome State Fault Refusal :=
  word (.vcmpLtI a b) s fun c g => s.compare c g 0 fun i => (g.srcV .a a i).slt (g.srcV .b b i)

/-- `VCMP_LT_N` (R119). -/
def execVcmpLtN (a b : Reg) (s : State) : Host.Outcome State Fault Refusal :=
  word (.vcmpLtN a b) s fun c g => s.compare c g 0 fun i => (g.srcV .a a i).ult (g.srcV .b b i)

/-- `VCMP_LE_I` (R119). -/
def execVcmpLeI (a b : Reg) (s : State) : Host.Outcome State Fault Refusal :=
  word (.vcmpLeI a b) s fun c g => s.compare c g 0 fun i => (g.srcV .a a i).sle (g.srcV .b b i)

/-- `VCMP_LE_N` (R119). -/
def execVcmpLeN (a b : Reg) (s : State) : Host.Outcome State Fault Refusal :=
  word (.vcmpLeN a b) s fun c g => s.compare c g 0 fun i => (g.srcV .a a i).ule (g.srcV .b b i)

/-! ## Immediate forms, major 9 (R120) -/

/-- `VADDI` (R120). -/
def execVaddi (d a : Reg) (imm : BitVec 10) (s : State) : Host.Outcome State Fault Refusal :=
  word (.vaddi d a imm) s fun c g => s.vecResult c g d 1 0 fun _ i => g.srcV .a a i + lane10 imm

/-- `VANDI` (R120). -/
def execVandi (d a : Reg) (imm : BitVec 10) (s : State) : Host.Outcome State Fault Refusal :=
  word (.vandi d a imm) s fun c g => s.vecResult c g d 1 0 fun _ i => g.srcV .a a i &&& lane10 imm

/-- `VORI` (R120). -/
def execVori (d a : Reg) (imm : BitVec 10) (s : State) : Host.Outcome State Fault Refusal :=
  word (.vori d a imm) s fun c g => s.vecResult c g d 1 0 fun _ i => g.srcV .a a i ||| lane10 imm

/-- `VXORI` (R120). -/
def execVxori (d a : Reg) (imm : BitVec 10) (s : State) : Host.Outcome State Fault Refusal :=
  word (.vxori d a imm) s fun c g => s.vecResult c g d 1 0 fun _ i => g.srcV .a a i ^^^ lane10 imm

/-- `VSHLI` (R120). -/
def execVshli (d a : Reg) (n : BitVec 6) (s : State) : Host.Outcome State Fault Refusal :=
  word (.vshli d a n) s fun c g => s.vecResult c g d 1 0 fun _ i => g.srcV .a a i <<< n.toNat

/-- `VSHRI` (R120). -/
def execVshri (d a : Reg) (n : BitVec 6) (s : State) : Host.Outcome State Fault Refusal :=
  word (.vshri d a n) s fun c g => s.vecResult c g d 1 0 fun _ i => g.srcV .a a i >>> n.toNat

/-- `VSRAI` (R120). -/
def execVsrai (d a : Reg) (n : BitVec 6) (s : State) : Host.Outcome State Fault Refusal :=
  word (.vsrai d a n) s fun c g => s.vecResult c g d 1 0 fun _ i => (g.srcV .a a i).sshiftRight n.toNat

/-- `vmovi` (R120). -/
def execVmovi (d : Reg) (imm : BitVec 10) (s : State) : Host.Outcome State Fault Refusal :=
  word (.vmovi d imm) s fun c g => s.vecResult c g d 1 0 fun _ _ => lane10 imm

end Sys2Proof.Machine
end

