-- ==== Sys2Proof/Machine/VecFloat.lean ====
section
/-! DEFINITION. The lane float words: VFLT (R121 to R127). -/

namespace Sys2Proof.Machine

/-- How the group rounds: GCTL at issue (R93, R96). -/
def Group.rounding (g : Group) : Rounding := { rm := g.rmode, ftz := g.ftz }

/-- A float result: lane i of member k gets the code `(f k i).1`; the flags of every active lane merge (R97, R98). -/
def State.floatResult (s : State) (c : Issue) (g : Group) (d : Reg) (n : Nat) (f : Nat → Nat → Nat × BitVec 5) : State :=
  let flags := ((List.range n).map fun k => (lanesOf g.width c.mask).map fun i => (f k i).2).flatten
  s.vecResult c g d n (joinFlags flags) fun k i => BitVec.ofNat 32 (f k i).1

/-- FP32 words of lane i. -/
def Group.srcF (g : Group) (f : Src) (r : Reg) (i : Nat) : Nat := (g.srcV f r i).toNat

/-- Element k of the 16-bit pair in a lane (R92). -/
def half (v : Lane) (k : Nat) : Nat := v.toNat / 2 ^ (16 * k) % 2 ^ 16

/-- The two elements of a pair form, packed, with the flags of both (R127). -/
def pairOf (f : Nat → Nat × BitVec 5) : Nat × BitVec 5 :=
  ((f 0).1 + 2 ^ 16 * (f 1).1, (f 0).2 ||| (f 1).2)

/-- A function of R125 on a lane: correctly rounded in RMODE, or to nearest whatever RMODE holds. -/
def fpFunction (r : Rounding) (f : Val → Val × BitVec 5) (a : Nat) : Nat × BitVec 5 := fp32.op r (f (fp32.read r.ftz a))
def fpNearest (r : Rounding) (f : Val → Val × BitVec 5) (a : Nat) : Nat × BitVec 5 := fpFunction { r with rm := rne } f a

/-- `VFADD` (R121). -/
def execVfadd (d a b : Reg) (s : State) : Host.Outcome State Fault Refusal :=
  word (.vfadd d a b) s fun c g => s.floatResult c g d 1 fun _ i => fp32.addc g.rounding (g.srcF .a a i) (g.srcF .b b i)

/-- `VFSUB` (R121). -/
def execVfsub (d a b : Reg) (s : State) : Host.Outcome State Fault Refusal :=
  word (.vfsub d a b) s fun c g => s.floatResult c g d 1 fun _ i => fp32.subc g.rounding (g.srcF .a a i) (g.srcF .b b i)

/-- `VFMUL` (R121). -/
def execVfmul (d a b : Reg) (s : State) : Host.Outcome State Fault Refusal :=
  word (.vfmul d a b) s fun c g => s.floatResult c g d 1 fun _ i => fp32.mulc g.rounding (g.srcF .a a i) (g.srcF .b b i)

/-- `VFFMA` (R121). -/
def execVffma (d a b : Reg) (s : State) : Host.Outcome State Fault Refusal :=
  word (.vffma d a b) s fun c g => s.floatResult c g d 1 fun _ i => fp32.fmac g.rounding (g.srcF .a a i) (g.srcF .b b i) (g.srcF .d d i)

/-- `VFMIN` (R122). -/
def execVfmin (d a b : Reg) (s : State) : Host.Outcome State Fault Refusal :=
  word (.vfmin d a b) s fun c g => s.floatResult c g d 1 fun _ i => fp32.minMax g.ftz false (g.srcF .a a i) (g.srcF .b b i)

/-- `VFMAX` (R122). -/
def execVfmax (d a b : Reg) (s : State) : Host.Outcome State Fault Refusal :=
  word (.vfmax d a b) s fun c g => s.floatResult c g d 1 fun _ i => fp32.minMax g.ftz true (g.srcF .a a i) (g.srcF .b b i)

/-- `VFABS` (R123). -/
def execVfabs (d a : Reg) (s : State) : Host.Outcome State Fault Refusal :=
  word (.vfabs d a) s fun c g => s.vecResult c g d 1 0 fun _ i => g.srcV .a a i &&& 0x7FFFFFFF

/-- `VFNEG` (R123). -/
def execVfneg (d a : Reg) (s : State) : Host.Outcome State Fault Refusal :=
  word (.vfneg d a) s fun c g => s.vecResult c g d 1 0 fun _ i => g.srcV .a a i ^^^ 0x80000000

/-- A float compare: the flags of every active lane merge, the condition mask is set at issue (R124). -/
def State.floatCompare (s : State) (c : Issue) (g : Group) (r : Rel) (a b : Reg) : State :=
  let f (i : Nat) : Bool × BitVec 5 := fp32.relate g.ftz r (g.srcF .a a i) (g.srcF .b b i)
  s.compare c g (joinFlags ((lanesOf g.width c.mask).map fun i => (f i).2)) fun i => (f i).1

/-- `VFCMP_EQ` (R124). -/
def execVfcmpEq (a b : Reg) (s : State) : Host.Outcome State Fault Refusal :=
  word (.vfcmpEq a b) s fun c g => s.floatCompare c g .eq a b

/-- `VFCMP_LT` (R124). -/
def execVfcmpLt (a b : Reg) (s : State) : Host.Outcome State Fault Refusal :=
  word (.vfcmpLt a b) s fun c g => s.floatCompare c g .lt a b

/-- `VFCMP_LE` (R124). -/
def execVfcmpLe (a b : Reg) (s : State) : Host.Outcome State Fault Refusal :=
  word (.vfcmpLe a b) s fun c g => s.floatCompare c g .le a b

/-- `VFCMP_UN` (R124). -/
def execVfcmpUn (a b : Reg) (s : State) : Host.Outcome State Fault Refusal :=
  word (.vfcmpUn a b) s fun c g => s.floatCompare c g .un a b

/-- `VFRCP` (R125, R126). -/
def execVfrcp (d a : Reg) (s : State) : Host.Outcome State Fault Refusal :=
  word (.vfrcp d a) s fun c g => s.floatResult c g d 1 fun _ i => fpFunction g.rounding Val.recip (g.srcF .a a i)

/-- `VFRSQ` (R125, R126). -/
def execVfrsq (d a : Reg) (s : State) : Host.Outcome State Fault Refusal :=
  word (.vfrsq d a) s fun c g => s.floatResult c g d 1 fun _ i => fpNearest g.rounding Val.rsqrt (g.srcF .a a i)

/-- `VFSQRT` (R125, R126). -/
def execVfsqrt (d a : Reg) (s : State) : Host.Outcome State Fault Refusal :=
  word (.vfsqrt d a) s fun c g => s.floatResult c g d 1 fun _ i => fpFunction g.rounding Val.sqrt (g.srcF .a a i)

/-- `VFEXP2` (R125, R126). -/
def execVfexp2 (d a : Reg) (s : State) : Host.Outcome State Fault Refusal :=
  word (.vfexp2 d a) s fun c g => s.floatResult c g d 1 fun _ i => fpNearest g.rounding Val.exp2 (g.srcF .a a i)

/-- `VFLOG2` (R125, R126). -/
def execVflog2 (d a : Reg) (s : State) : Host.Outcome State Fault Refusal :=
  word (.vflog2 d a) s fun c g => s.floatResult c g d 1 fun _ i => fpNearest g.rounding Val.log2 (g.srcF .a a i)

/-- `VFTANH` (R125, R126). -/
def execVftanh (d a : Reg) (s : State) : Host.Outcome State Fault Refusal :=
  word (.vftanh d a) s fun c g => s.floatResult c g d 1 fun _ i => fpNearest g.rounding Val.tanh (g.srcF .a a i)

/-- `VHADD` (R127). -/
def execVhadd (d a b : Reg) (s : State) : Host.Outcome State Fault Refusal :=
  word (.vhadd d a b) s fun c g => s.floatResult c g d 1 fun _ i =>
    pairOf fun k => fp16.addc g.rounding (half (g.srcV .a a i) k) (half (g.srcV .b b i) k)

/-- `VHMUL` (R127). -/
def execVhmul (d a b : Reg) (s : State) : Host.Outcome State Fault Refusal :=
  word (.vhmul d a b) s fun c g => s.floatResult c g d 1 fun _ i =>
    pairOf fun k => fp16.mulc g.rounding (half (g.srcV .a a i) k) (half (g.srcV .b b i) k)

/-- `VHFMA` (R127). -/
def execVhfma (d a b : Reg) (s : State) : Host.Outcome State Fault Refusal :=
  word (.vhfma d a b) s fun c g => s.floatResult c g d 1 fun _ i =>
    pairOf fun k => fp16.fmac g.rounding (half (g.srcV .a a i) k) (half (g.srcV .b b i) k) (half (g.srcV .d d i) k)

/-- `VBADD` (R127). -/
def execVbadd (d a b : Reg) (s : State) : Host.Outcome State Fault Refusal :=
  word (.vbadd d a b) s fun c g => s.floatResult c g d 1 fun _ i =>
    pairOf fun k => bf16.addc g.rounding (half (g.srcV .a a i) k) (half (g.srcV .b b i) k)

/-- `VBMUL` (R127). -/
def execVbmul (d a b : Reg) (s : State) : Host.Outcome State Fault Refusal :=
  word (.vbmul d a b) s fun c g => s.floatResult c g d 1 fun _ i =>
    pairOf fun k => bf16.mulc g.rounding (half (g.srcV .a a i) k) (half (g.srcV .b b i) k)

/-- `VBFMA` (R127). -/
def execVbfma (d a b : Reg) (s : State) : Host.Outcome State Fault Refusal :=
  word (.vbfma d a b) s fun c g => s.floatResult c g d 1 fun _ i =>
    pairOf fun k => bf16.fmac g.rounding (half (g.srcV .a a i) k) (half (g.srcV .b b i) k) (half (g.srcV .d d i) k)

end Sys2Proof.Machine
end

