-- ==== Sys2Proof/Machine/Convert.lean ====
section
/-! DEFINITION. The conversions (R102 to R104, R128). -/

namespace Sys2Proof.Machine

/-- Four bytes packed into a lane, with the flags of all four (R104). -/
def quadOf (f : Nat → Nat × BitVec 5) : Nat × BitVec 5 :=
  ((List.range 4).foldl (fun n k => n + 2 ^ (8 * k) * (f k).1) 0, joinFlags ((List.range 4).map fun k => (f k).2))

/-- A value that is exact in FP32, as its code. -/
def exactFp32 (v : Val) : Nat × BitVec 5 := ((fp32.write rne false v).1, 0)

/-- `VCVT.F.I` (R103). -/
def execVcvtFI (d a : Reg) (s : State) : Host.Outcome State Fault Refusal :=
  word (.vcvtFI d a) s fun c g => s.floatResult c g d 1 fun _ i => fp32.op g.rounding (intVal (g.srcV .a a i), 0)

/-- `VCVT.I.F` (R103). -/
def execVcvtIF (d a : Reg) (s : State) : Host.Outcome State Fault Refusal :=
  word (.vcvtIF d a) s fun c g => s.floatResult c g d 1 fun _ i =>
    let r := (fp32.read g.ftz (g.srcF .a a i)).toInt32 g.rmode
    (r.1.toNat, r.2)

/-- `VCVT_F_H` (R103): element k goes to register k of the pair. -/
def execVcvtFH (d a : Reg) (s : State) : Host.Outcome State Fault Refusal :=
  word (.vcvtFH d a) s fun c g => s.floatResult c g d 2 fun k i =>
    fp32.convert g.rounding (fp16.read g.ftz (half (g.srcV .a a i) k))

/-- `VCVT_F_B` (R103): element k goes to register k of the pair. -/
def execVcvtFB (d a : Reg) (s : State) : Host.Outcome State Fault Refusal :=
  word (.vcvtFB d a) s fun c g => s.floatResult c g d 2 fun k i =>
    fp32.convert g.rounding (bf16.read g.ftz (half (g.srcV .a a i) k))

/-- `VCVT_H_F` (R103): register k of the pair gives element k. -/
def execVcvtHF (d a : Reg) (s : State) : Host.Outcome State Fault Refusal :=
  word (.vcvtHF d a) s fun c g => s.floatResult c g d 1 fun _ i =>
    pairOf fun k => fp16.convert g.rounding (fp32.read g.ftz (g.srcVk .a a k i).toNat)

/-- `VCVT_B_F` (R103): register k of the pair gives element k. -/
def execVcvtBF (d a : Reg) (s : State) : Host.Outcome State Fault Refusal :=
  word (.vcvtBF d a) s fun c g => s.floatResult c g d 1 fun _ i =>
    pairOf fun k => bf16.convert g.rounding (fp32.read g.ftz (g.srcVk .a a k i).toNat)

/-- `VPACK_E4` (R103): register k of the quad gives byte k. -/
def execVpackE4 (d a : Reg) (s : State) : Host.Outcome State Fault Refusal :=
  word (.vpackE4 d a) s fun c g => s.floatResult c g d 1 fun _ i =>
    quadOf fun k => toE4m3 (fp32.read false (g.srcVk .a a k i).toNat)

/-- `VPACK_E5` (R103): register k of the quad gives byte k. -/
def execVpackE5 (d a : Reg) (s : State) : Host.Outcome State Fault Refusal :=
  word (.vpackE5 d a) s fun c g => s.floatResult c g d 1 fun _ i =>
    quadOf fun k => toE5m2 (fp32.read false (g.srcVk .a a k i).toNat)

/-- `VPACK_LX` (R102): register k of the quad gives byte k. -/
def execVpackLx (d a : Reg) (s : State) : Host.Outcome State Fault Refusal :=
  word (.vpackLx d a) s fun c g => s.floatResult c g d 1 fun _ i =>
    quadOf fun k => toLx8 (fp32.read false (g.srcVk .a a k i).toNat)

/-- `VUNPK_E4` (R103): byte k goes to register k of the quad. -/
def execVunpkE4 (d a : Reg) (s : State) : Host.Outcome State Fault Refusal :=
  word (.vunpkE4 d a) s fun c g => s.floatResult c g d 4 fun k i => exactFp32 (e4m3Read (laneByte (g.srcV .a a i) k).toNat)

/-- `VUNPK_E5` (R103): byte k goes to register k of the quad. -/
def execVunpkE5 (d a : Reg) (s : State) : Host.Outcome State Fault Refusal :=
  word (.vunpkE5 d a) s fun c g => s.floatResult c g d 4 fun k i => exactFp32 (e5m2Read (laneByte (g.srcV .a a i) k).toNat)

/-- `VUNPK_LX` (R100): byte k goes to register k of the quad. -/
def execVunpkLx (d a : Reg) (s : State) : Host.Outcome State Fault Refusal :=
  word (.vunpkLx d a) s fun c g => s.floatResult c g d 4 fun k i => exactFp32 (lx8Read (laneByte (g.srcV .a a i) k).toNat)

end Sys2Proof.Machine
end

