-- ==== Sys2Proof/Machine/Copy.lean ====
section
/-! DEFINITION. The copy channels (R266 to R284, R382): submission of copies, `xfence`, `cwp` and `cwait`, tensor
handles, and the delivery of a copy unit by unit. -/

namespace Sys2Proof.Machine

/-! ## Operands and checks (R268, R269) -/

/-- The channel that a context-local number names. -/
def State.channelOf (s : State) (ctx num : Nat) : Option Nat :=
  (s.channels.find? fun e => e.2.owner == some (ctx, num)).map (·.1)

/-- CODE, DETAIL and TADDR of a failed check of a copy word. -/
abbrev CopyTrap := Nat × Nat × Scalar

/-- Step 2 of R269 on operand S[b]: the channel, or the trap. -/
def State.copyChannel (s : State) (ctx : Nat) (b : Scalar) (bad : Bool) : Except CopyTrap Nat :=
  if bad then .error (10, 0x10, b)
  else match s.channelOf ctx (bitsOf b.toNat 39 32) with
    | none => .error (10, 0x11, b)
    | some k => if (s.channelAt k).fault then .error (10, 0x12, b) else .ok k

/-- The first byte of a range that lies outside one global extent and outside one vault extent (R269, step 4). -/
def extentFault (a : Scalar) (len : Nat) : Option Scalar :=
  let space := a.toNat / 2 ^ 48
  let o := a.toNat % 2 ^ 48
  let limit := if space = 0 then some (2 ^ 48) else if space = 0xFFF4 ∧ o / 2 ^ 23 < 72 then some ((o / 2 ^ 23 + 1) * 2 ^ 23) else none
  match limit with
  | none => some a
  | some e => if len ≠ 0 ∧ e < o + len then some (BitVec.ofNat 64 (space * 2 ^ 48 + e)) else none

/-- A flag address is not global. -/
def flagFault (f : Scalar) : Option Scalar := if f.toNat / 2 ^ 48 = 0 then none else some f

/-- The first trap of a list of checks. -/
def firstTrap : List (Option CopyTrap) → Option CopyTrap
  | [] => none
  | some t :: _ => some t
  | none :: rest => firstTrap rest

/-- An alignment check (R269, step 3). -/
def alignTrap (a : Scalar) (n : Nat) : Option CopyTrap := if a.toNat % n = 0 then none else some (6, 0, a)

/-- The checks of R269 for `cpy` and `cpyq`: the channel, or the trap. -/
def State.copyCheck (s : State) (ctx : Nat) (dst src b : Scalar) (flag : Option Scalar) : Except CopyTrap Nat :=
  let len := bitsOf b.toNat 31 0
  match s.copyChannel ctx b (decide (bitsOf b.toNat 63 40 ≠ 0) || decide (len % 16 ≠ 0)) with
  | .error t => .error t
  | .ok k =>
    match firstTrap [alignTrap dst 16, alignTrap src 16, flag.bind fun f => alignTrap f 8,
        (extentFault src len).map fun a => (15, 0, a), (extentFault dst len).map fun a => (15, 0, a),
        (flag.bind flagFault).map fun a => (15, 0, a)] with
    | some t => .error t
    | none => .ok k

/-! ## Acceptance (R270, R275, R277) -/

/-- The copy, whose stamp is CLK at its issue, raised and held as `xfence` says (R270, R277). -/
def Copy.stamped (x : Copy) (g : Group) : Copy := { x with stamp := max x.stamp g.markAck, holds := g.marked }

/-- A copy accepted by channel `ch`: SP rises, the copy joins the queue with its stamp, and the group, with its wait `w`, has
counted it (R270, R275); after a `cpyq` the group cannot restart at its entry (R298). -/
def State.accept (s : State) (gid : Nat) (g : Group) (ch : Nat) (x : Copy) (w : Wait) : State :=
  let k := s.channelAt ch
  let s := s.setChannel ch { k with sp := k.sp + BitVec.ofNat 64 x.len, queue := k.queue ++ [x.stamped g] }
  if x.flag.isSome then (s.setGroup gid { g with wait := w }).spoilRestart gid
  else s.setGroup gid { g with wait := w, cpyCount := g.cpyCount + 1, cpyDone := g.cpyDone + 1 }

/-- A copy submitted to channel `ch`: a wait for room while 64 are queued, else its acceptance (R270). -/
def State.submit (s : State) (c : Issue) (g : Group) (ch : Nat) (x : Copy) : State :=
  if 64 ≤ (s.channelAt ch).queue.length then s.hold c.gid g (.room ch x) else s.accept c.gid g ch x .none

/-- A copy word that was parked for room: accepted meanwhile (`over`), it has completed, and ends its run (R45, log 33); turned away by a channel fault
(`faulted`), it takes the handle fault of R274; else `k`. -/
def State.afterRoom (s : State) (c : Issue) (g : Group) (b : Scalar) (k : State) : State :=
  match g.wait with
  | .over => (s.setGroup c.gid { g with wait := .none }).endRun
  | .faulted | .room _ _ => s.trapWord c { g with wait := .none } 10 0x12 b 0
  | _ => k

/-- The groups that are parked for room in a channel, each with its copy. -/
def State.parkedOn (s : State) (ch : Nat) : List (Nat × Group × Copy) :=
  s.groups.filterMap fun e => match e.2.wait with
    | .room k x => if k = ch then some (e.1, e.2, x) else none
    | _ => none

/-- A place of a channel's queue that has become free goes at once to a copy that is parked for it; which of several groups
comes first is a free value (R270, log 83). -/
def State.acceptParked (s : State) (ch : Nat) : State :=
  if 64 ≤ (s.channelAt ch).queue.length then s
  else match s.parkedOn ch with
    | [] => s
    | [(gid, g, x)] => s.accept gid g ch x .over
    | l => match l[(Config.unstated s.draws).toNat % l.length]? with
      | some (gid, g, x) => s.draw.accept gid g ch x .over
      | none => s

/-- The copy that a `cpy` or `cpyq` describes. -/
def Group.plainCopy (g : Group) (gid : Nat) (dst src b : Scalar) (flag : Option Scalar) : Copy :=
  { launch := g.launch, gid := gid, dst := dst.toNat, src := src.toNat, len := bitsOf b.toNat 31 0, done := 0, stamp := g.clk,
    holds := [], flag := flag.map (·.toNat), tensor := none }

/-- A replayed `cpy` or `cpyt` that is skipped and counted (R275), else `k`. -/
def State.unlessSkipped (s : State) (c : Issue) (g : Group) (k : State) : State :=
  if g.cpyCount < g.cpySkip then s.setGroup c.gid { g with cpyCount := g.cpyCount + 1 } else k

/-- `CPY` (R270). -/
def execCpy (d a b : Reg) (s : State) : Host.Outcome State Fault Refusal :=
  word (.cpy d a b) s fun c g =>
    s.afterRoom c g (g.srcS .b b) <| s.unlessSkipped c g <|
      match s.copyCheck g.ctx (g.srcS .d d) (g.srcS .a a) (g.srcS .b b) none with
      | .error (code, detail, ad) => s.trapWord c g code detail ad 0
      | .ok ch => s.submit c g ch (g.plainCopy c.gid (g.srcS .d d) (g.srcS .a a) (g.srcS .b b) none)

/-- `CPYQ` (R284, R298): the checks, the waits of a fence, and the acceptance.  The checks of R269 are made again when the waits are
over, on the operands and the channel as they stand then (log 12). -/
def execCpyq (d a b : Reg) (s : State) : Host.Outcome State Fault Refusal :=
  word (.cpyq d a b) s fun c g =>
    s.afterRoom c g (g.srcS .b b) <|
      match s.copyCheck g.ctx (g.srcS .d d) (g.srcS .a a) (g.srcS .b b) (some (g.srcSk .d d 1)) with
      | .error (code, detail, ad) => s.trapWord c { g with wait := .none } code detail ad 0
      | .ok ch => s.afterFence c g fun s g =>
        s.submit c g ch (g.plainCopy c.gid (g.srcS .d d) (g.srcS .a a) (g.srcS .b b) (some (g.srcSk .d d 1)))

/-- Issue numbers of the group's stores, atomics and reductions not yet acknowledged (R277). -/
def State.unacknowledged (s : State) (gid : Nat) : List Nat :=
  (s.entries.filter fun e => decide (e.gid = gid)).map (·.seq) ++
  (s.atoms.filter fun a => decide (a.gid = gid)).map (·.seq) ++
  (s.locals.filter fun x => decide (x.gid = gid)).map (·.seq)

/-- `XFENCE` (R277). -/
def execXfence (s : State) : Host.Outcome State Fault Refusal :=
  word .xfence s fun c g =>
    (s.drainGroup c.gid).setGroup c.gid
      { g with marked := (g.marked ++ s.unacknowledged c.gid).dedup, markAck := g.acks.foldl max g.markAck }

/-- A marked access of the copy has still to be performed and acknowledged. -/
def State.held (s : State) (x : Copy) : Bool := x.holds.any s.accessLeft

/-! ## `cwp` and `cwait` (R278, R279) -/

/-- SEL of a channel operand, and a reserved bit or SEL 3 in it. -/
def selOf (v : Scalar) : Nat := bitsOf v.toNat 9 8
def badSel (v : Scalar) : Bool := decide (bitsOf v.toNat 63 10 ≠ 0) || decide (selOf v = 3)

/-- What `cwp` reads of a channel. -/
def Channel.query (k : Channel) (sel : Nat) : Scalar :=
  match sel with
  | 0 => k.wp
  | 1 => k.sp
  | _ => BitVec.ofNat 64 ((if k.fault then 2 ^ 8 else 0) + k.queue.length)

/-- `CWP` (R278): its traps name no TADDR and TLANE. -/
def execCwp (d a : Reg) (s : State) : Host.Outcome State Fault Refusal :=
  word (.cwp d a) s fun c g =>
    let v := g.srcS .a a
    if badSel v then s.openHandleFault c g 0x10
    else match s.channelOf g.ctx (bitsOf v.toNat 7 0) with
      | none => s.openHandleFault c g 0x11
      | some k => s.scalResult c g d [(s.channelAt k).query (selOf v)] 0

/-- `CWAIT` (R279): its operands are read and checked when it issues; when the wait ends CLK rises to CC, so that the deliveries it covers
happen before what follows (R226), or the fault of the channel is taken, whatever has become of the channel since.  The traps for a
reserved bit above SEL and for a channel that is not assigned name no TADDR and TLANE (log 14). -/
def execCwait (a b : Reg) (s : State) : Host.Outcome State Fault Refusal :=
  word (.cwait a b) s fun c g =>
    let v := g.srcS .a a
    let n := g.srcS .b b
    match g.wait with
    | .reached cc => (s.setGroup c.gid { g with clk := max g.clk cc, wait := .none }).endRun
    | .faulted => s.addrHandleFault c { g with wait := .none } 0x12 v
    | _ =>
      if selOf v ≠ 0 then s.addrHandleFault c g 0x10 v
      else if badSel v then s.openHandleFault c g 0x10
      else match s.channelOf g.ctx (bitsOf v.toNat 7 0) with
        | none => s.openHandleFault c g 0x11
        | some k =>
          let ch := s.channelAt k
          if n ≤ ch.wp then (s.setGroup c.gid { g with clk := max g.clk ch.cc }).endRun
          else if ch.fault then s.addrHandleFault c g 0x12 v
          else s.hold c.gid g (.channel k n)

/-! ## Shape records and `cpyt` (R280 to R283) -/

/-- The fields of a shape record (R281); the lists go by axis. -/
structure Shape where
  base : Nat
  ext : List Nat
  rank : Nat
  esize : Nat
  edge : Nat
  gen : Nat
  stride : List Nat
  fill : Nat
  dpitch : Nat
  pat : List Nat
  reserved : Bool
  deriving DecidableEq, Repr

/-- The 64 bytes of a record read. -/
def shapeOf (r : List Byte) : Shape :=
  let q := fieldOf r 0x10 8
  let p := fieldOf r 0x38 8
  { base := fieldOf r 0 8, ext := (List.range 5).map (fun k => fieldOf r (8 + 2 * k) 2), rank := bitsOf q 18 16,
    esize := 2 ^ bitsOf q 21 20, edge := bitsOf q 23 22, gen := bitsOf q 43 32,
    stride := 0 :: (List.range 4).map (fun k => fieldOf r (0x18 + 4 * k) 4), fill := fieldOf r 0x28 8, dpitch := fieldOf r 0x30 4,
    pat := bitsOf p 15 0 :: (List.range 4).map (fun k => bitsOf p (27 + 12 * k) (16 + 12 * k)),
    reserved := decide (bitsOf q 19 19 ≠ 0) || decide (bitsOf q 31 24 ≠ 0) || decide (bitsOf q 63 44 ≠ 0) ||
      decide (fieldOf r 0x34 4 ≠ 0) }

/-- Entry k of a field that goes by axis. -/
def axis (l : List Nat) (k : Nat) : Nat := l.getD k 0

/-- Bytes of a patch row, of its pitch in the dense buffer, and of the whole dense buffer (R281). -/
def Shape.row (x : Shape) : Nat := (axis x.pat 0 + 1) * x.esize
def Shape.pitch (x : Shape) : Nat := if x.dpitch = 0 then x.row else x.dpitch
def Shape.dense (x : Shape) : Nat := x.pitch * (x.pat.drop 1).foldl (fun n p => n * (p + 1)) 1

/-- The record is ill-formed (R281). -/
def Shape.bad (x : Shape) : Bool :=
  x.reserved || decide (x.rank = 0) || decide (5 < x.rank) || decide (x.edge = 3) || decide (x.base % 16 ≠ 0) ||
  ((List.range 5).any fun k => decide (x.rank ≤ k) &&
    (decide (axis x.ext k ≠ 0) || decide (axis x.pat k ≠ 0) || decide (axis x.stride k ≠ 0))) ||
  decide (x.row % 16 ≠ 0) || decide (x.dpitch ≠ 0 ∧ (x.dpitch % 16 ≠ 0 ∨ x.dpitch < x.row)) || decide (0xFFFFFFF0 < x.dense)

/-- The origins of a patch: o0 to o3 from S[a], o4 from S[b] (R281). -/
def originsOf (a b : Scalar) : List Int :=
  ((List.range 4).map fun k => signed (a.toNat / 2 ^ (16 * k)) 16) ++ [signed (b.toNat / 2 ^ 48) 16]

/-- The operand checks of a `cpyt` (R269, R282, step 1). -/
def State.tensorChannel (s : State) (ctx : Nat) (v : Scalar) : Except CopyTrap Nat :=
  s.copyChannel ctx v (decide (bitsOf v.toNat 47 41 ≠ 0))

/-- Steps 4 and 5 of R282 on the record of a `cpyt`, and its acceptance: `g0` is the group before the read, `g` the group after it,
whose clock the read may have raised; a trap leaves no effect.  The channel is checked again if the word has waited for its read, and
S[d] comes before BASE, as step 5 names them (log 15). -/
def State.submitTensor (s : State) (c : Issue) (g0 g : Group) (dst a v : Scalar) (bytes : List Byte) : State :=
  let rec_ : Scalar := BitVec.ofNat 64 ((s.contextAt g.ctx).cfg.ttbase + 64 * bitsOf v.toNat 19 0)
  let sh := shapeOf bytes
  match s.tensorChannel g.ctx v with
  | .error (code, detail, ad) => s.trapWord c g0 code detail ad 0
  | .ok ch =>
    if sh.gen ≠ bitsOf v.toNat 31 20 ∨ sh.gen = 0 then s.addrHandleFault c g0 0x13 rec_
    else if sh.bad then s.addrHandleFault c g0 0x14 rec_
    else match firstTrap [alignTrap dst 16, (extentFault dst sh.dense).map fun e => (15, 0, e),
        (extentFault (BitVec.ofNat 64 sh.base) 0).map fun e => (15, 0, e)] with
      | some (code, detail, ad) => s.trapWord c g0 code detail ad 0
      | none => s.submit c g ch
          { launch := g.launch, gid := c.gid, dst := dst.toNat, src := dst.toNat, len := sh.dense, done := 0, stamp := g.clk,
            holds := [], flag := none, tensor := some (bytes, v.getLsbD 40, originsOf a v) }

/-- `CPYT` (R282).  A record that does not lie in global memory takes CODE 15 with the record's address, as a load of it would
(log 91). -/
def execCpyt (d a b : Reg) (s : State) : Host.Outcome State Fault Refusal :=
  word (.cpyt d a b) s fun c g =>
    let v := g.srcS .b b
    s.ownRead c g (fun s g0 g vs => s.submitTensor c g0 g (g.srcS .d d) (g.srcS .a a) v (blockBytes 32 vs)) fun go =>
      s.afterRoom c g v <| s.unlessSkipped c g <|
        match s.tensorChannel g.ctx v with
        | .error (code, detail, ad) => s.trapWord c g code detail ad 0
        | .ok _ =>
          let x := s.contextAt g.ctx
          let slot := bitsOf v.toNat 19 0
          let rec_ : Scalar := BitVec.ofNat 64 (x.cfg.ttbase + 64 * slot)
          if x.cfg.ttslots ≤ slot then s.openHandleFault c g 0x15
          else if rec_.toNat / 2 ^ 48 ≠ 0 then s.trapWord c g 15 0 rec_ 0
          else s.access c g true false false 64 [(0, rec_)] fun s g good =>
            go s g (s.newLoad c g 32 .qword (blockAt 2 rec_ ((good.head?.map fun e : Located => e.2.2).getD default)))

/-! ## Units (R271, R283) -/

/-- Where one byte of a unit comes from. -/
inductive UnitByte
  | from_ (addr : Nat)
  | value (b : Byte)
  deriving DecidableEq, Repr

/-- One destination unit: its first destination address; for each byte its source, and whether it is written; and what WP
gains with it. -/
structure CopyUnit where
  dst : Nat
  bytes : List (UnitByte × Bool)
  gain : Nat
  deriving DecidableEq, Repr

/-- Coordinates of the patch element that lies at dense row `r`, element `x0` (R283). -/
def Shape.coords (sh : Shape) (os : List Int) (r x0 : Nat) : List Int :=
  let n (k : Nat) : Nat := axis sh.pat k + 1
  let xs := [x0, r % n 1, r / n 1 % n 2, r / (n 1 * n 2) % n 3, r / (n 1 * n 2 * n 3)]
  xs.zipIdx.map fun (x, k) => os.getD k 0 + (x : Int)

/-- The element lies inside the array on every axis below RANK. -/
def Shape.inside (sh : Shape) (q : List Int) : Bool :=
  (List.range sh.rank).all fun k => decide (0 ≤ q.getD k 0) && decide (q.getD k 0 ≤ (axis sh.ext k : Int))

/-- The coordinates clamped to the array. -/
def Shape.clamp (sh : Shape) (q : List Int) : List Int :=
  q.zipIdx.map fun (v, k) => max 0 (min v (axis sh.ext k : Int))

/-- The address of an element; one that would be negative wraps and lies in no extent. -/
def Shape.addr (sh : Shape) (q : List Int) : Nat :=
  wrap ((sh.base : Int) + q.getD 0 0 * sh.esize +
    (List.range 4).foldl (fun n k => n + q.getD (k + 1) 0 * (axis sh.stride (k + 1) : Int) * 16) 0) 64

/-- Byte `o` of dense row `r`: its element's coordinates and its byte number in the element. -/
def Shape.element (sh : Shape) (os : List Int) (r o : Nat) : List Int × Nat := (sh.coords os r (o / sh.esize), o % sh.esize)

/-- What a byte of the patch delivers with DIR 0 (R283). -/
def Shape.gather (sh : Shape) (os : List Int) (r o : Nat) : UnitByte :=
  let (q, k) := sh.element os r o
  if sh.inside q then .from_ (sh.addr q + k)
  else match sh.edge with
    | 0 => .value 0
    | 1 => .from_ (sh.addr (sh.clamp q) + k)
    | _ => .value (BitVec.ofNat 8 (sh.fill / 256 ^ k))

/-- WP's gain for a unit of `n` bytes that starts at byte `o` of a row: with the row's last unit its padding too. -/
def Shape.gain (sh : Shape) (o n : Nat) : Nat := if o + n = sh.row then sh.pitch - o else n

/-- The next unit of a copy (R271, R283). -/
def Copy.nextUnit (x : Copy) : CopyUnit :=
  match x.tensor with
  | none =>
    let dst := x.dst + x.done
    let n := min (32 - dst % 32) (x.len - x.done)
    { dst := dst, bytes := (List.range n).map fun i => (.from_ (x.src + x.done + i), true), gain := n }
  | some (bytes, toTensor, os) =>
    let sh := shapeOf bytes
    let p := sh.pitch
    let o := x.done % p
    if toTensor then
      let (q, _) := sh.element os (x.done / p) 0
      let dst := wrap ((sh.addr q : Int) + o) 64
      let n := min (32 - dst % 32) (sh.row - o)
      { dst := dst, gain := sh.gain o n,
        bytes := (List.range n).map fun i => (.from_ (x.src + x.done + i), sh.inside (sh.element os (x.done / p) (o + i)).1) }
    else
      let dst := x.dst + x.done
      let n := min (32 - dst % 32) (if p = sh.row then x.len - x.done else sh.row - o)
      { dst := dst, bytes := (List.range n).map fun i => (sh.gather os ((x.done + i) / p) ((x.done + i) % p), true),
        gain := if p = sh.row then n else sh.gain o n }

/-! ## Delivery (R271, R274, R382) -/

/-- An address of a channel whose engine lies on a die (R199, R274). -/
def State.reach (s : State) (ctx die a : Nat) (write : Bool) : Reach :=
  let o := a % 2 ^ 48
  if a / 2 ^ 48 = 0 then
    match s.translateAt ctx o write false with
    | .ok (.place p) => .at_ p
    | .ok (.peer l ad) => if (s.linkAt l).up then .peer l ad else .broken false
    | .error (code, d) => if replayable code d then .stall d else .broken (decide (code = 7 ∧ d = 3))
  else if a / 2 ^ 48 = 0xFFF4 ∧ o / 2 ^ 23 < 72 then
    if s.vaultAllotted ctx die (o / 2 ^ 23) then .at_ (.vault die (o / 2 ^ 23) (o % 2 ^ 23)) else .broken false
  else .broken false

/-- An inside element's address must lie in the extent of BASE (R283). -/
def Copy.outOfBase (x : Copy) (a : Nat) : Bool :=
  match x.tensor with
  | none => false
  | some (bytes, _, _) =>
    let base := (shapeOf bytes).base
    decide (a / 2 ^ 48 ≠ base / 2 ^ 48) || (decide (base / 2 ^ 48 = 0xFFF4) && decide (a / 2 ^ 23 ≠ base / 2 ^ 23))

/-- The tensor side of the copy is its source. -/
def Copy.gathers (x : Copy) : Bool :=
  match x.tensor with
  | some (_, toTensor, _) => !toTensor
  | none => false

/-- The addresses of a unit with what they reach: each source, then each byte written. -/
def State.unitReach (s : State) (ctx die : Nat) (x : Copy) (u : CopyUnit) : List (Nat × Reach) :=
  (u.bytes.filterMap fun e => match e.1 with
    | .from_ a => some (a, if x.gathers && x.outOfBase a then .broken false else s.reach ctx die a false)
    | .value _ => none) ++
  (u.bytes.zipIdx.filterMap fun (e, i) =>
    if e.2 then some (u.dst + i, if x.tensor.isSome && !x.gathers && x.outOfBase (u.dst + i) then .broken false else s.reach ctx die (u.dst + i) true)
    else none)

/-- A group of the channel's context that is parked on a channel that takes a fault: a copy word that waits for room, and a `cwait`,
are to take their handle fault (R274, R279). -/
def Group.turnedAway (g : Group) (ctx ch : Nat) : Group :=
  match g.wait with
  | .room k _ | .channel k _ => if k = ch ∧ g.ctx = ctx then { g with wait := .faulted } else g
  | _ => g

/-- The wait of a group of the channel's context for a threshold that the channel's WP has reached (R279). -/
def Group.reaches (g : Group) (ctx ch : Nat) (k : Channel) : Group :=
  match g.wait with
  | .channel j n => if j = ch ∧ g.ctx = ctx ∧ n ≤ k.wp then { g with wait := .reached k.cc } else g
  | _ => g

/-- The channel after its WP has risen: the waits for a threshold that it has reached are over (R279). -/
def State.passWp (s : State) (ch ctx : Nat) (k : Channel) : State :=
  { s.setChannel ch k with groups := s.groups.mapVals fun g : Group => g.reaches ctx ch k }

/-- An unrecoverable delivery fault (R274): FAULT, the queue withdrawn, the groups parked on the channel turned away, and class 7
logged. -/
def State.channelFault (s : State) (ch addr : Nat) (illFormed : Bool) : State :=
  let k := s.channelAt ch
  let ctx := (k.owner.map (·.1)).getD 0
  let s := s.setChannel ch { k with fault := true, queue := [], stalled := none, flight := none, cut := [] }
  let s := { s with
    launches := s.launches.map fun e : Nat × Launch =>
      if (k.queue.any fun x => decide (x.launch = e.1)) then (e.1, { e.2 with withdrawn := true }) else e,
    groups := s.groups.mapVals fun g : Group => g.turnedAway ctx ch }
  let s := if illFormed then s.error 9 4 ctx (BitVec.ofNat 64 addr) 0 else s
  s.error 7 4 ctx (BitVec.ofNat 64 addr) 0

/-- A stall of a channel (R274): a notice to the guardian; an orphan suspends (R346). -/
def State.channelStall (s : State) (ch addr detail : Nat) : State :=
  let k := s.channelAt ch
  match k.owner with
  | none => s
  | some (ctx, num) =>
    let s := s.setChannel ch { k with stalled := some (s.contextAt ctx).nextNotice }
    (s.raise ctx { (default : Notice) with
      type := 4, tcause := tcauseWord 7 detail, taddr := BitVec.ofNat 64 addr, args := [BitVec.ofNat 64 num],
      channel := some ch }).orphanTrigger ctx

/-- The fault or stall that an address list decides, the first address that has one. -/
def firstTrouble : List (Nat × Reach) → Option (Nat × Reach)
  | [] => none
  | (a, r) :: rest => match r with
    | .at_ _ | .peer _ _ => firstTrouble rest
    | .stall _ | .broken _ => some (a, r)

/-- The addresses of a unit split: those of its sources, and those of its written bytes. -/
def CopyUnit.split (u : CopyUnit) (rs : List (Nat × Reach)) : List (Nat × Reach) × List (Nat × Reach) :=
  rs.splitAt (rs.length - (u.bytes.filter (·.2)).length)

/-- The places among addresses that lie in this package. -/
def placesAmong (rs : List (Nat × Reach)) : List Place :=
  rs.filterMap fun e => match e.2 with
    | .at_ p => some p
    | .peer _ _ | .stall _ | .broken _ => none

/-- The links that addresses lead across. -/
def linksAmong (rs : List (Nat × Reach)) : List Nat :=
  rs.filterMap fun e => match e.2 with
    | .peer l _ => some l
    | .at_ _ | .stall _ | .broken _ => none

/-- Every home that a unit needs can serve it (R239, R242). -/
def State.unitHomes (s : State) (ctx : Nat) (src dst : List (Nat × Reach)) : Bool :=
  (placesAmong src).all (s.lineReady ctx false) && (placesAmong dst).all (s.lineReady ctx true)

/-- Global source lines renewed in the order their bytes come (R271): the state and the channel clock. -/
def State.readLines (s : State) (ctx : Nat) : List Place → Nat → State × Nat
  | [], cc => (s, cc)
  | p :: ps, cc =>
    let tau := max cc (s.lineOf p).w
    let (s, w, _) := s.renewAtHome ctx p tau
    s.readLines ctx ps (max cc w)

/-- A flit of a glade waits at a device link: outward in direction 0, inward in direction 1 (R361). -/
def State.queueFlit (s : State) (glade link dir : Nat) : State :=
  let l := s.linkAt link
  let key := 16 * dir + glade
  s.setLink link { l with flits := l.flits.put key ((l.flits.at? key).getD 0 + 1) }

/-- A flit of a glade that goes outward with the link's data poison indication (R382). -/
def State.poisonFlit (s : State) (glade link : Nat) : State :=
  let l := s.linkAt link
  s.setLink link { l with poisoned := l.poisoned.put glade ((l.poisoned.at? glade).getD 0 + 1) }

/-- The flits of a unit: a request and its answer for a source across a link; one outward, poisoned if `bad`, for a destination. -/
def State.unitFlits (s : State) (glade : Nat) (src dst : List (Nat × Reach)) (bad : Bool) : State :=
  let s := match linksAmong src with
    | l :: _ => (s.queueFlit glade l 0).queueFlit glade l 1
    | [] => s
  match linksAmong dst with
  | l :: _ => if bad then (s.queueFlit glade l 0).poisonFlit glade l else s.queueFlit glade l 0
  | [] => s

/-- The bytes of a unit written at their destination home at the channel's clock (R271), with the mark of those that are
poisoned (R382): the state and the clock. -/
def State.writeUnit (s : State) (ctx cc : Nat) (dst : List (Place × Byte × Bool)) : State × Nat :=
  let mark (s : State) : State := dst.foldl (fun (s : State) e => if e.2.2 then s.markBad e.1 else s) s
  match dst with
  | [] => (s, cc)
  | (p, _) :: _ =>
    if p.isGlobal then
      let t := max cc ((s.lineOf p).l + 1)
      let s := s.setLine p (s.dirtied p { s.lineOf p with w := t, l := t })
      (mark ((dst.foldl (fun (s : State) e => s.putByte (s.keyOf ctx) e.1 e.2.1) s).holdLine ctx p), t)
    else (mark (dst.foldl (fun (s : State) e => s.putByte 0 e.1 e.2.1) s), cc)

/-- What each byte of a unit delivers, and whether it is poisoned: `src` is where its source bytes lie, in order; `peer` and `bad`
are what a peer answered for those across a link. -/
def State.unitBytes (s : State) (key : Nat) (bad : Bool) : List (UnitByte × Bool) → List Reach → List Byte → List (Byte × Bool)
  | [], _, _ => []
  | (.value b, _) :: us, src, peer => (b, false) :: s.unitBytes key bad us src peer
  | (.from_ _, _) :: us, .at_ p :: src, peer => (s.byteAt key p, s.badByte p) :: s.unitBytes key bad us src peer
  | (.from_ _, _) :: us, _ :: src, peer => (peer.headD 0, bad) :: s.unitBytes key bad us src (peer.drop 1)
  | (.from_ _, _) :: _, [], _ => []

/-- The channel's clock and pointers after a unit, with the copy's end when it was the last and no flag follows. -/
def Channel.advance (k : Channel) (cc gain : Nat) : Channel :=
  let k := { k with cc := cc, wp := k.wp + BitVec.ofNat 64 gain, flight := none, cut := [] }
  match k.queue with
  | [] => k
  | x :: rest =>
    let x := { x with done := x.done + gain }
    { k with queue := if x.done = x.len ∧ x.flag = none then rest else x :: rest }

/-- The error source of a unit with poisoned source bytes (R311, R382): that of the first of them. -/
def State.unitPoison (s : State) (src : List (Nat × Reach)) (peerBad : Bool) : Option Nat :=
  match (placesAmong src).find? s.badByte with
  | some p => some (s.sourceOf p)
  | none => if peerBad && !(linksAmong src).isEmpty then some 7 else none

/-- One unit delivered, its addresses all reachable (R271, R382), at the channel's clock.  `peer` is what a peer answered, if a
source byte lies across a link, and whether it is poisoned. -/
def State.deliverUnit (s : State) (ch ctx : Nat) (x : Copy) (u : CopyUnit) (src dst : List (Nat × Reach)) (peer : List Byte × Bool) : State :=
  let cc := (s.channelAt ch).cc
  let bad := s.unitPoison src peer.2
  let lines := (((placesAmong src).filter (·.isGlobal)).map (·.line)).dedup
  let (s, cc) := s.readLines ctx lines cc
  let values := s.unitBytes (s.keyOf ctx) peer.2 u.bytes (src.map (·.2)) peer.1
  let written := ((u.bytes.zip values).filter (·.1.2)).map (·.2)
  let homes := (placesAmong dst).zip written
  let s := s.unitFlits (s.contextAt ctx).glade src dst (written.any (·.2))
  let (s, t) := s.writeUnit ctx cc homes
  let s := (s.passWp ch ctx ((s.channelAt ch).advance t u.gain)).noteCopy x.launch t ((placesAmong dst).headD default)
  match bad with
  | some source => s.error 2 source ctx (BitVec.ofNat 64 ((src.head?.map (·.1)).getD u.dst)) 0
  | none => s

/-- A unit, or the flag of a copy, that is not performed: WP advances over a unit, a flag's copy ends, and the event is logged at
source 6 (R345, R357). -/
def State.skipUnit (s : State) (ch ctx cls addr gain : Nat) (flag : Bool) : State :=
  let k := s.channelAt ch
  (if flag then s.setChannel ch { k with queue := k.queue.drop 1, flight := none, cut := [] } else s.passWp ch ctx (k.advance k.cc gain)).error
    cls 6 ctx (BitVec.ofNat 64 addr) 0

/-- The addresses of the unit at hand, translated once: a unit in flight keeps them (R345). -/
def State.inFlightOr (s : State) (ch : Nat) (rs : List (Nat × Reach)) : List (Nat × Reach) := (s.channelAt ch).flight.getD rs

/-- The unit at hand waits for its homes, which are asked; it is in flight meanwhile (R239, R242, R345). -/
def State.fly (s : State) (ch ctx : Nat) (src dst : List (Nat × Reach)) : State :=
  let ask (s : State) (rs : List (Nat × Reach)) (own : Bool) : State := s.askAll ctx ((placesAmong rs).filter fun p => !s.blocked ctx p) own
  ask (ask (s.setChannel ch { s.channelAt ch with flight := some (src ++ dst) }) src false) dst true

/-- The first address of a unit at a line that its severed port has not answered for in time (R345). -/
def State.unitLate (s : State) (ch : Nat) (rs : List (Nat × Reach)) : Option Nat :=
  let late := (s.channelAt ch).cut.filter s.expired
  (rs.find? fun e => (placesAmong [e]).any fun p => late.any fun k => decide (k.line = p.line)).map (·.1)

/-- The first address of a unit whose host request is not issued (R357). -/
def State.unitBarred (s : State) (ctx : Nat) (src dst : List (Nat × Reach)) : Option Nat :=
  ((src.find? fun e => (placesAmong [e]).any (s.barred ctx false)) <|>
    (dst.find? fun e => (placesAmong [e]).any (s.barred ctx true))).map (·.1)

/-- The next unit of a copy, at the channel's clock (R271, R274). -/
def State.nextUnit (s : State) (ch ctx : Nat) (x : Copy) (peer : Option (List Byte × Bool)) : State :=
  let u := x.nextUnit
  let rs := s.inFlightOr ch (s.unitReach ctx (ch / 16 / 8) x u)
  let (src, dst) := u.split rs
  let first := (src.head?.map (·.1)).getD u.dst
  match s.unitLate ch rs with
  | some a => s.skipUnit ch ctx 2 a u.gain false
  | none => match firstTrouble rs with
    | some (a, .stall d) => s.channelStall ch a d
    | some (a, .broken b) => s.channelFault ch a b
    | _ => match s.unitBarred ctx src dst with
      | some a => s.skipUnit ch ctx 8 a u.gain false
      | none =>
      if !s.unitHomes ctx src dst then s.fly ch ctx src dst
      else match linksAmong src, peer with
        | _ :: _, none => s.channelFault ch ((src.find? fun e => !(linksAmong [e]).isEmpty).map (·.1) |>.getD first) false
        | _, _ => s.deliverUnit ch ctx x u src dst (peer.getD ([], false))

/-- The flag of a `cpyq` written after its last unit (R284). -/
def State.deliverFlag (s : State) (ch ctx : Nat) (x : Copy) (flag : Nat) : State :=
  let k := s.channelAt ch
  let done (k : Channel) : Channel := { k with queue := k.queue.drop 1, flight := none, cut := [] }
  let rs := s.inFlightOr ch [(flag, s.reach ctx 0 flag true)]
  if (s.unitLate ch rs).isSome then s.skipUnit ch ctx 2 flag 0 true
  else match rs with
    | [(_, .stall d)] => s.channelStall ch flag d
    | [(_, .broken b)] => s.channelFault ch flag b
    | [(_, .peer l _)] => (s.queueFlit (s.contextAt ctx).glade l 0).setChannel ch (done k)
    | [(_, .at_ p)] =>
      if s.barred ctx true p then s.skipUnit ch ctx 8 flag 0 true
      else if s.homeOwns ctx p then
        let (s, t) := s.storeAtHome ctx p (toBytes k.wp.toNat 8) k.cc
        (s.setChannel ch (done { k with cc := t })).noteCopy x.launch t p
      else s.fly ch ctx [] rs
    | _ => s

/-- The channel's clock rises to the stamp of the copy that it takes up (R271). -/
def State.takeUp (s : State) (ch : Nat) (x : Copy) : State :=
  s.setChannel ch { s.channelAt ch with cc := max (s.channelAt ch).cc x.stamp }

/-- The copy's next unit, the flag that follows its units, or its end. -/
def State.advanceCopy (s : State) (ch ctx : Nat) (x : Copy) (peer : Option (List Byte × Bool)) : State :=
  if x.done < x.len then s.nextUnit ch ctx x peer
  else match x.flag with
    | some f => s.deliverFlag ch ctx x f
    | none => s.setChannel ch { s.channelAt ch with queue := (s.channelAt ch).queue.drop 1 }

/-- `COPY_UNIT_DELIVERY` (R271): the next unit of the channel's oldest copy, or the flag that follows its units; a copy that
ends makes room for one that is parked (R270).  A unit with a source across a link is delivered with the bytes that the peer
answers; without an answer it takes the error completion of R362. -/
def execCopyUnitDelivery (ch : Nat) (peer : Option (List Byte × Bool)) (s : State) : Host.Outcome State Fault Refusal :=
  .next <|
    let k := s.channelAt ch
    match k.queue, k.owner with
    | [], _ | _, none => s
    | x :: _, some (ctx, _) =>
      if k.fault || k.stalled.isSome || s.held x then s
      else ((s.takeUp ch x).advanceCopy ch ctx x peer).acceptParked ch

end Sys2Proof.Machine
end

