-- ==== Sys2Proof/Machine/CrossLane.lean ====
section
/-! DEFINITION. The cross-lane words and the moves between lanes and scalars (R129 to R134). -/

namespace Sys2Proof.Machine

/-- Source lane j: a lane at or above the width supplies zero (R129). -/
def Group.laneAt (g : Group) (a : Reg) (j : Nat) : Lane := if j < g.width then g.srcV .a a j else 0

/-- `VSHFL` (R130). -/
def execVshfl (d a b : Reg) (s : State) : Host.Outcome State Fault Refusal :=
  word (.vshfl d a b) s fun c g => s.vecResult c g d 1 0 fun _ i => g.laneAt a (g.srcV .b b i).toNat

/-- `VROT` (R130). -/
def execVrot (d a b : Reg) (s : State) : Host.Outcome State Fault Refusal :=
  word (.vrot d a b) s fun c g => s.vecResult c g d 1 0 fun _ i => g.laneAt a ((i + (g.srcS .b b).toNat) % g.width)

/-- `VBCAST` (R130). -/
def execVbcast (d a b : Reg) (s : State) : Host.Outcome State Fault Refusal :=
  word (.vbcast d a b) s fun c g => s.vecResult c g d 1 0 fun _ _ => g.laneAt a (g.srcS .b b).toNat

/-- The lanes of a register in the issue mask, absent elsewhere, each with its flags so far. -/
def Group.leaves (g : Group) (m : Mask) (a : Reg) : List (Option (Lane × BitVec 5)) :=
  (List.range g.width).map fun i => if m.getLsbD i then some (g.srcV .a a i, 0) else none

/-- A reduction over the issue mask by the fixed tree (R106, R131). -/
def Group.reduce (g : Group) (m : Mask) (a : Reg) (empty : Lane) (combine : Lane → Lane → Lane × BitVec 5) : Lane × BitVec 5 :=
  (tree (fun (x y : Lane × BitVec 5) =>
    let (r, f) := combine x.1 y.1
    (r, x.2 ||| y.2 ||| f)) 6 (g.leaves m a)).getD (empty, 0)

/-- The result of a reduction, written zero-extended to a scalar. -/
def State.reduction (s : State) (c : Issue) (g : Group) (d a : Reg) (empty : Lane)
    (combine : Lane → Lane → Lane × BitVec 5) : State :=
  let (v, f) := g.reduce c.mask a empty combine
  s.scalResult c g d [v.zeroExtend 64] f

/-- A float operation on lanes. -/
def onLanes (f : Nat → Nat → Nat × BitVec 5) (x y : Lane) : Lane × BitVec 5 :=
  let (r, fl) := f x.toNat y.toNat
  (BitVec.ofNat 32 r, fl)

/-- `VRED.ADD.I` (R106, R131). -/
def execVredAddI (d a : Reg) (s : State) : Host.Outcome State Fault Refusal :=
  word (.vredAddI d a) s fun c g => s.reduction c g d a 0 fun x y => (x + y, 0)

/-- `VRED.ADD.F` (R106, R131). -/
def execVredAddF (d a : Reg) (s : State) : Host.Outcome State Fault Refusal :=
  word (.vredAddF d a) s fun c g => s.reduction c g d a 0 (onLanes (fp32.addc g.rounding))

/-- `VRED.MIN.I` (R106, R131). -/
def execVredMinI (d a : Reg) (s : State) : Host.Outcome State Fault Refusal :=
  word (.vredMinI d a) s fun c g => s.reduction c g d a 0x7FFFFFFF fun x y => (if x.slt y then x else y, 0)

/-- `VRED.MAX.I` (R106, R131). -/
def execVredMaxI (d a : Reg) (s : State) : Host.Outcome State Fault Refusal :=
  word (.vredMaxI d a) s fun c g => s.reduction c g d a 0x80000000 fun x y => (if x.slt y then y else x, 0)

/-- `VRED.MAX.F` (R106, R131). -/
def execVredMaxF (d a : Reg) (s : State) : Host.Outcome State Fault Refusal :=
  word (.vredMaxF d a) s fun c g => s.reduction c g d a 0xFF800000 (onLanes (fp32.minMax g.ftz true))

/-- Sum of the lanes of the mask up to lane i. -/
def Group.prefixSum (g : Group) (m : Mask) (a : Reg) (i : Nat) : Lane :=
  ((lanesOf (i + 1) m).map (g.srcV .a a)).foldl (· + ·) 0

/-- `VSCAN.ADD.I` (R132). -/
def execVscanAddI (d a : Reg) (s : State) : Host.Outcome State Fault Refusal :=
  word (.vscanAddI d a) s fun c g => s.vecResult c g d 1 0 fun _ i => g.prefixSum c.mask a i

/-- `VBALLOT` (R133). -/
def execVballot (d a : Reg) (s : State) : Host.Outcome State Fault Refusal :=
  word (.vballot d a) s fun c g =>
    s.scalResult c g d [maskOf ((lanesOf g.width c.mask).filter fun i => g.srcV .a a i != 0)] 0

/-- `VMOVS` (R134). -/
def execVmovs (d a : Reg) (s : State) : Host.Outcome State Fault Refusal :=
  word (.vmovs d a) s fun c g => s.vecResult c g d 1 0 fun _ _ => (g.srcS .a a).setWidth 32

/-- `SMOVV` (R134). -/
def execSmovv (d a b : Reg) (s : State) : Host.Outcome State Fault Refusal :=
  word (.smovv d a b) s fun c g => s.scalResult c g d [(g.laneAt a (g.srcS .b b).toNat).zeroExtend 64] 0

end Sys2Proof.Machine
end

