-- ==== Sys2Proof/Machine/Fence.lean ====
section
/-! DEFINITION. Fences, `tick` and `spin` (R221, R223, R224). -/

namespace Sys2Proof.Machine

/-- `FENCE.G` (R223). -/
def execFenceG (s : State) : Host.Outcome State Fault Refusal :=
  word .fenceG s fun c g => s.afterFence c g fun s _ => s

/-- `FENCE.C` (R223). -/
def execFenceC (s : State) : Host.Outcome State Fault Refusal :=
  word .fenceC s fun c g => s.afterFence c g fun s _ => s

/-- `FENCE.D` (R223). -/
def execFenceD (s : State) : Host.Outcome State Fault Refusal :=
  word .fenceD s fun c g => s.afterFence c g fun s _ => s

/-- `FENCE.P` (R223). -/
def execFenceP (s : State) : Host.Outcome State Fault Refusal :=
  word .fenceP s fun c g => s.afterFence c g fun s _ => s

/-- `FENCE.S` (R223, R224). -/
def execFenceS (s : State) : Host.Outcome State Fault Refusal :=
  word .fenceS s fun c g => s.afterFence c g fun s g => (s.writeBack g.hostWrote).setGroup c.gid { g with hostWrote := [] }

/-- `TICK` (R221). -/
def execTick (a : Reg) (s : State) : Host.Outcome State Fault Refusal :=
  word (.tick a) s fun c g => s.setGroup c.gid { g with clk := g.clk + min (g.srcS .a a).toNat 65535 }

/-- `SPIN` (R221, R160). -/
def execSpin (s : State) : Host.Outcome State Fault Refusal :=
  word .spin s fun c g =>
    s.setGroup c.gid { g with clk := g.clk + g.lease.toNat + 1, demoted := some ((s.coreAt g.core).clock + 64) }

end Sys2Proof.Machine
end

