-- ==== Sys2Proof/Machine/Region.lean ====
section
/-! DEFINITION. Regions: the checkpoint slot (R296), `region` (R297), and the restart from a slot (R300, R303). -/

namespace Sys2Proof.Machine

/-! ## Clocks (R237, R238) -/

/-- The group is resident: it has not ended, holds its place on a core, and does not wait for a restart (log 90). -/
def State.resident (s : State) (g : Group) : Bool :=
  decide (g.role ≠ .kernel) || ((s.groveAt g.grove).placed && decide (g.wait ≠ .discarded))

/-- The low-water mark: the smallest CLK among the resident groups, 0 if there is none (R238). -/
def State.lowWater (s : State) : Nat :=
  match (s.groups.filter fun e => s.resident e.2).map (·.2.clk) with
  | [] => 0
  | c :: cs => cs.foldl min c

/-- A clock saved at an epoch, as it is restored (R238). -/
def State.savedClock (s : State) (clk epoch : Nat) : Nat := if epoch = s.epoch then clk else s.lowWater

/-! ## The slot (R296) -/

/-- GCTL's writable fields and its fixed ones as a number (R42). -/
def widthCode (w : Nat) : Nat := if w = 16 then 0 else if w = 32 then 1 else 2
def planeCode (p : Nat) : Nat := if p = 1 then 0 else if p = 2 then 1 else 2
def Group.gctl (g : Group) : Nat :=
  widthCode g.width * 2 ^ 6 + planeCode g.planes * 2 ^ 4 + (if g.ftz then 4 else 0) + g.rmode.toNat

/-- The first 1,024 bytes of the slot of a `region` with fields a and b whose entry is `entry`. -/
def Group.slotHead (g : Group) (epoch entry a b wdog : Nat) : List Byte :=
  toBytes g.xm.toNat 8 ++ toBytes g.cm.toNat 8 ++ toBytes g.clk 8 ++ toBytes epoch 4 ++ toBytes entry 4 ++
  toBytes g.winb 2 ++ toBytes g.stack.length 1 ++ toBytes a 1 ++ toBytes b 1 ++ toBytes g.mlast.toNat 1 ++
  toBytes wdog 1 ++ toBytes 1 1 ++ toBytes 0 4 ++ toBytes 0 4 ++ toBytes g.clk 8 ++ toBytes epoch 4 ++ toBytes 0 4 ++
  toBytes g.gctl 8 ++ toBytes g.lease.toNat 1 ++ toBytes g.atick.toNat 1 ++ toBytes 0 6 ++ toBytes g.flags.toNat 8 ++
  toBytes 0 40 ++
  ((List.range 8).map fun k => toBytes ((g.stack.getD k 0).toNat) 8).flatten ++
  toBytes ((List.range g.width).foldl (fun n i => n + g.planeOf i * 4 ^ i) 0) 16 ++ toBytes 0 48 ++
  ((List.range 24).map fun k => toBytes (g.scalar k).toNat 8).flatten ++
  ((List.range 22).map fun k => toBytes (g.issued k).toNat 4).flatten ++ toBytes 0 488

/-- The bytes of window fields a to b in all lanes. -/
def Group.fieldBytes (g : Group) (a b : Nat) : List Byte :=
  ((List.range (b + 1 - a)).map fun k =>
    ((List.range g.width).map fun i => toBytes (g.vlane (g.winb + a + k) i).toNat 4).flatten).flatten

/-- The window field that a register names. -/
def windowField : Reg → Nat
  | .v n => n.val
  | .s _ | .nul | .lane | .plane | .xm | .cm | .gix | .grx | .clk => 0

/-! ## `region` (R297, R257) -/

/-- The open batch closed as the next number; the number is returned by `mbatch` (R261). -/
def Group.closeBatch (g : Group) : Group :=
  let n := g.mlast + 1
  { g with batches := g.batches ++ [{ k := g.closed, number := n, ops := g.openOps }], closed := g.closed + 1,
           mlast := n, openOps := [] }

/-- WDOG of the restart point at an entry: kept when the entry is that of the point in force (R303). -/
def Group.wdogAt (g : Group) (entry : Nat) : Nat := if g.based ∧ g.rgnoff.toNat = entry then g.wdog else 0

/-- The checkpoint has been written: the restart point is the next word; a preemption that waited for it discards the group.  A region that
begins at the entry of the last one keeps WDOG, and only WDOG (log 67). -/
def State.checkpointed (s : State) (c : Issue) (g : Group) : State :=
  match s.groupAt c.gid with
  | none => s
  | some _ =>
    let entry := g.off + 1
    let s := s.setGroup c.gid { g with
      rgnoff := BitVec.ofNat 20 entry, rstate := 1, based := true, wdog := g.wdogAt entry, cpyCount := 0, cpyDone := 0, cpySkip := 0,
      gredCount := 0, gredSkip := 0, svcSeq := 0, sigBase := g.sigCount, wait := .none }
    if g.evictSince.isSome then (s.discard c.gid).fate .left else s

/-- The checkpoint written: every page of it is translated before any byte is written, and the word waits for the homes of its lines,
and for earlier writes of the slot (R239, R242, R345). -/
def State.checkpoint (s : State) (c : Issue) (g : Group) (a b : Nat) : State :=
  let slot := s.slotOf g
  let head := g.slotHead s.epoch (g.off + 1) a b (g.wdogAt (g.off + 1))
  let regs := if a ≤ b then g.fieldBytes a b else []
  let at_ := slot + 0x400 + a * g.width * 4
  let bad (code d va : Nat) : State :=
    (s.transFault c.gid { g with wait := .none, held := none } code d (BitVec.ofNat 64 va) 0 c.plane false).fate .left
  match s.placesOf g.ctx slot 0x400 true, s.placesOf g.ctx at_ regs.length true with
  | .error (va, code, d), _ => bad code d va
  | .ok _, .error (va, code, d) => bad code d va
  | .ok ps, .ok qs =>
    if !s.placesReady g.ctx (ps ++ qs) true || s.slotLeft c.gid then
      ((s.takeOff g.ctx c.gid slot ps (some head)).takeOff g.ctx c.gid at_ qs (some regs)).hold c.gid g .writing
    else (((s.writePlaces g.ctx slot ps head g.clk).1).writePlaces g.ctx at_ qs regs g.clk).1.checkpointed c g

/-- `REGION` (R297). -/
def execRegion (a b : Reg) (s : State) : Host.Outcome State Fault Refusal :=
  word (.region a b) s fun c g =>
    if g.wait = .writing then (s.landWrites c.gid g.clk).checkpointed c g
    else if s.slotOf g = 0 then s.openHandleFault c g 0x20
    else if g.openOps ≠ [] then
      if g.batches.length < 4 then s.hold c.gid g.closeBatch .quiet else s.hold c.gid g .batchRoom
    else s.whenQuiet c g fun s => s.checkpoint c { g with wait := .none } (windowField a) (windowField b)

/-! ## Restart (R300, R303) -/

/-- A group at its start (R28): its registers, masks and control state; of a vector file beyond the window R28 says nothing, and it is
zero too (log 5).  MBAT.LAST stays, as at a restart (R256).  A restart skips the copies and reductions that the group's words before it
have made (R275, R299). -/
def Group.atStart (g : Group) (param : Nat) : Group :=
  { g with vregs := [], winb := 0, sregs := if param = 0 then [] else [(0, BitVec.ofNat 64 param)],
           xm := BitVec.ofNat 64 (2 ^ g.width - 1), cm := 0, pl := [], stack := [], off := 0, mode := .user, ftz := false,
           rmode := 0, lease := 16, atick := 32, hits := 0, tickDue := false, rgnoff := 0, tcause := 0, taddr := 0, tlane := 0,
           toff := 0, tdone := 0, tplane := 0, tocc := 0, flags := 0, batches := [], openOps := [], frame := [],
           results := [], occ := none, doneP := 0, offGens := [], mark := false, holding := false, early := [], replay := none, laneTrap := false,
           trapMark := false, trapOwn := false, held := none, barN := [], cpyCount := 0, gredCount := 0, svcSeq := 0, rstate := 0,
           cpySkip := g.cpyDone, gredSkip := max g.gredCount g.gredSkip, based := false }

/-- The registers and control state that a slot's bytes restore.  The slot holds no count of lease hits: the count starts anew
(log 67). -/
def Group.fromSlot (g : Group) (h regs : List Byte) : Group :=
  let first := fieldOf h 0x23 1
  let mask (o : Nat) : Mask := widthMask g.width (BitVec.ofNat 64 (fieldOf h o 8))
  let stack := (List.range (fieldOf h 0x22 1)).map fun k => BitVec.ofNat 64 (fieldOf h (0x80 + 8 * k) 8)
  let winb := fieldOf h 0x20 2
  let lanes := (List.range (regs.length / 4)).map fun n =>
    (64 * (winb + first + n / g.width) + n % g.width, BitVec.ofNat 32 (fieldOf regs (4 * n) 4))
  { g with
    xm := mask 0, cm := mask 8, winb := winb, stack := stack,
    pl := (List.range g.width).filterMap fun i => match fieldOf h 0xC0 16 / 4 ^ i % 4 with
      | 0 => none
      | p + 1 => some (i, p + 1),
    sregs := (List.range 24).map fun k => (k, BitVec.ofNat 64 (fieldOf h (0x100 + 8 * k) 8)),
    vregs := lanes, ftz := (BitVec.ofNat 8 (fieldOf h 0x40 1)).getLsbD 2, rmode := BitVec.ofNat 2 (fieldOf h 0x40 1),
    lease := BitVec.ofNat 8 (fieldOf h 0x48 1), atick := BitVec.ofNat 8 (fieldOf h 0x49 1),
    flags := BitVec.ofNat 5 (fieldOf h 0x50 1), mlast := BitVec.ofNat 4 (fieldOf h 0x25 1),
    barN := (List.range 22).map fun k => (k, BitVec.ofNat 32 (fieldOf h (0x1C0 + 4 * k) 4)),
    off := fieldOf h 0x1C 4 % 2 ^ 20, rgnoff := BitVec.ofNat 20 (fieldOf h 0x1C 4), mode := .user, hits := 0, tickDue := false,
    batches := [], openOps := [], results := [], occ := none, doneP := 0, offGens := [], mark := false, holding := false, early := [], replay := none,
    laneTrap := false, trapMark := false, trapOwn := false, held := none, cpyCount := 0, cpySkip := fieldOf h 0x28 4,
    cpyDone := fieldOf h 0x28 4, gredCount := 0, gredSkip := fieldOf h 0x2C 4,
    svcSeq := 0, wdog := fieldOf h 0x26 1 }

/-- The signature of a redundant copy as it stood at the entry. -/
def Group.resign (g : Group) : Group :=
  { g with sigCount := g.sigBase, sig := (g.sigLog.at? g.sigBase).getD 0 }

/-- The restart of a discarded group (R300): at its start when it has never taken a checkpoint, else from its slot, which
holds its STATE too, once the homes of its bytes can serve them (R239, R242); a slot that faults or is poisoned kills the context
(R302, R317).  A restart after consumed errors or mismatches that makes WDOG
8 or more takes the watchdog trap before the entry offset (R303). -/
def State.restartGroup (s : State) (gid : Nat) : State :=
  match s.groupAt gid with
  | none => s
  | some g =>
    let x := s.launchAt g.launch
    let dclk := g.acks.foldl max g.clk
    let dog (n : Nat) : Option (BitVec 8) := if g.errorRestart ∧ 8 ≤ n then some 1 else none
    if !g.based then
      s.setGroup gid { (g.atStart x.rcd.param).resign with
        clk := dclk, acks := [], unfolded := [], wait := .none, errorRestart := false, heldTrap := dog g.wdog }
    else
      let slot := s.slotOf g
      let lost (a code d : Nat) : State :=
        (s.logIllFormed g.ctx (BitVec.ofNat 64 a) code d).errorAtLeast 3 1 0 g.ctx (BitVec.ofNat 64 slot) 0
      match s.fetchFor g.ctx gid slot 0x400 with
      | .fault a code d => lost a code d
      | .waits t => t
      | .got h bad _ =>
        let first := fieldOf h 0x23 1
        let last := fieldOf h 0x24 1
        let n := if first ≤ last then (last + 1 - first) * g.width * 4 else 0
        match s.fetchFor g.ctx gid (slot + 0x400 + first * g.width * 4) n with
        | .fault a code d => lost a code d
        | .waits t => t
        | .got regs bad' _ =>
          match bad <|> bad' with
          | some source => (s.land gid).errorAtLeast 3 1 source g.ctx (BitVec.ofNat 64 slot) 0
          | none =>
            let clk := max (s.savedClock (fieldOf h 0x10 6) (fieldOf h 0x18 4)) (s.savedClock (fieldOf h 0x30 6) (fieldOf h 0x38 4))
            let r := (g.fromSlot h regs).resign
            (s.land gid).setGroup gid { r with
              clk := clk, acks := [], unfolded := [], rstate := fieldOf h 0x27 1, wait := .none, errorRestart := false, heldTrap := dog r.wdog }

end Sys2Proof.Machine
end

