-- ==== Sys2Proof/Machine/Launch.lean ====
section
/-! DEFINITION. Launch records and their checks (R142 to R147), the placement of groves, copses and cooperative launches
(R138 to R141, R368, R379), the submission of records (R149, R150, R285), queues and dependences (R152, R153, R155),
completion (R156, R157), task graphs (R158, R159), and the words `launch` and `lquery` (R285 to R287). -/

namespace Sys2Proof.Machine

/-! ## Records (R142 to R146) -/

/-- A range dword (R145): its granules. -/
def rangeOf (q : Nat) : Range := { base := bitsOf q 47 8, count := bitsOf q 63 48 * 2 ^ bitsOf q 3 0 }

/-- The dword at an offset of a record. -/
def qword (r : List Byte) (o : Nat) : Nat := fieldOf r o 8

/-- The 128 bytes of a record read (R142 to R145). -/
def recordFrom (r : List Byte) : Record :=
  let sh := qword r 8
  let l := qword r 0x10
  { entry := qword r 0, pstride := bitsOf sh 51 32, scratch := bitsOf sh 27 17, copse := bitsOf sh 16 14, groups := bitsOf sh 13 9,
    regs := bitsOf sh 7 4, width := bitsOf sh 3 2, pcnt := bitsOf sh 1 0, doneval := BitVec.ofNat 32 (bitsOf l 63 32),
    kind := bitsOf l 29 28, prio := bitsOf l 26 25, redund := decide (bitsOf l 24 24 = 1), coop := decide (bitsOf l 23 23 = 1),
    queue := bitsOf l 22 20, groves := bitsOf l 19 0, param := qword r 0x18, ckpt := qword r 0x20, done := qword r 0x28,
    reads := (List.range 4).map fun k => rangeOf (qword r (0x30 + 8 * k)),
    writes := (List.range 4).map fun k => rangeOf (qword r (0x50 + 8 * k)) }

/-- The lanes of a group, for a WIDTH code. -/
def widthOf (code : Nat) : Nat := 16 * 2 ^ code

/-- Planes of a group, for a PCNT code. -/
def planesOfCode (code : Nat) : Nat := 2 ^ code

/-- The eight range dwords. -/
def rangeWords (r : List Byte) : List Nat := (List.range 8).map fun k => qword r (0x30 + 8 * k)

/-- A record is malformed (R146); CTRL is not looked at. -/
def malformed (r : List Byte) : Bool :=
  let x := recordFrom r
  let sh := qword r 8
  let l := qword r 0x10
  decide (bitsOf sh 63 52 ≠ 0) || decide (bitsOf sh 31 28 ≠ 0) || decide (bitsOf sh 8 8 ≠ 0) || decide (bitsOf l 31 30 ≠ 0) ||
  decide (bitsOf l 27 27 ≠ 0) || ((r.drop 0x70).take 15).any (fun b : Byte => b != 0) ||
  (rangeWords r).any (fun q => decide (bitsOf q 7 4 ≠ 0) || decide (bitsOf q 63 48 = 0 ∧ q ≠ 0) ||
    decide (2 ^ 48 < ((rangeOf q).base + (rangeOf q).count) * 256)) ||
  decide (x.pcnt = 3) || decide (x.width = 3) || decide (2 ≤ x.kind) || decide (1024 < x.scratch) ||
  decide (1024 < (x.groups + 1) * widthOf x.width) || decide (x.pcnt ≠ 0 ∧ x.pstride = 0) ||
  decide ((x.groves + 1) % (x.copse + 1) ≠ 0) || decide (x.entry % 256 ≠ 0) || decide (x.param % 8 ≠ 0) ||
  decide (x.ckpt % 256 ≠ 0) || decide (x.done % 4 ≠ 0) ||
  [x.entry, x.param, x.ckpt, x.done].any (fun a => decide (2 ^ 48 ≤ a)) ||
  (decide (x.kind = 1) && (decide (sh ≠ 0) || decide (x.param ≠ 0) || decide (x.ckpt ≠ 0) || (rangeWords r).any (fun q => decide (q ≠ 0)) ||
    decide (65535 < x.groves)))

/-! ## Room on cores (R138, R379) -/

/-- What a core holds: bytes of its local store, group slots, groves, and groves of the context that is being placed. -/
structure CoreUse where
  bytes : Nat
  groups : Nat
  groves : Nat
  mine : Nat
  deriving DecidableEq, Repr, Inhabited

/-- Uses of cores by package core number; an unlisted core is empty. -/
abbrev Usage := Table CoreUse

def Usage.at_ (u : Usage) (core : Nat) : CoreUse := (Table.at? u core).getD default

/-- The needs of a grove, and the capacity of a core of its context (R138). -/
structure Needs where
  groups : Nat
  group : Nat
  scratch : Nat
  cap : Nat
  deriving DecidableEq, Repr

/-- The needs of a record's groves. -/
def State.needs (s : State) (ctx : Nat) (x : Record) : Needs :=
  { groups := x.groups + 1, group := widthOf x.width * (32 * (x.regs + 1)) * 4, scratch := x.scratch * 256,
    cap := 524288 - 32768 * 2 ^ (s.contextAt ctx).cfg.l1 }

/-- The grove fits on one core (R138). -/
def Needs.single (n : Needs) : Bool := decide (n.groups * n.group + n.scratch ≤ n.cap)

/-- The core is not fused off (R378). -/
def State.enabledCore (s : State) (core : Nat) : Bool := (s.boot.fuses.getD (core / 24) 0).getLsbD (core % 24)

/-- A core has room for `k` groups and `bytes` of scratch. -/
def Usage.room (u : Usage) (n : Needs) (core k bytes : Nat) : Bool :=
  decide ((u.at_ core).bytes + k * n.group + bytes ≤ n.cap) && decide ((u.at_ core).groups + k ≤ 64)

/-- Where a grove goes: the core with its scratch, and for a pair the upper core and its first gix. -/
abbrev Spot := Nat × Option (Nat × Nat)

/-- The spot of a grove on a core. -/
def State.coreSpot (s : State) (u : Usage) (n : Needs) (core : Nat) : Option Spot :=
  if s.enabledCore core ∧ u.room n core n.groups n.scratch then some (core, none) else none

/-- The spot of a grove across a core pair (R138): the lower core takes as many groups as it has room for. -/
def State.pairSpot (s : State) (u : Usage) (n : Needs) (pair : Nat) : Option Spot :=
  let low := 2 * pair
  if s.enabledCore low ∧ s.enabledCore (low + 1) then
    match ((List.range (n.groups + 1)).reverse).find? fun k => u.room n low k n.scratch with
    | none => none
    | some k => if u.room n (low + 1) (n.groups - k) 0 then some (low, some (low + 1, k)) else none
  else none

/-- The spot of a grove on a pair: on its lower core, else on its upper core, or across it when it fits no single core;
`banned` cores hold a grove of the first copy (R141). -/
def State.spotOn (s : State) (u : Usage) (n : Needs) (banned : List Nat) (pair : Nat) : Option Spot :=
  let ok (c : Nat) : Bool := !banned.contains c
  if n.single then
    match (if ok (2 * pair) then s.coreSpot u n (2 * pair) else none) with
    | some x => some x
    | none => if ok (2 * pair + 1) then s.coreSpot u n (2 * pair + 1) else none
  else if ok (2 * pair) ∧ ok (2 * pair + 1) then s.pairSpot u n pair
  else none

/-- A grove put on its spot. -/
def Usage.take (u : Usage) (n : Needs) (x : Spot) : Usage :=
  let put (u : Usage) (core k bytes g : Nat) : Usage :=
    Table.put u core { bytes := (u.at_ core).bytes + k * n.group + bytes, groups := (u.at_ core).groups + k,
                       groves := (u.at_ core).groves + 1, mine := (u.at_ core).mine + g }
  match x with
  | (core, none) => put u core n.groups n.scratch 1
  | (core, some (up, k)) => put (put u core k n.scratch 1) up (n.groups - k) 0 0

/-- Groves of the placing context on a pair. -/
def Usage.onPair (u : Usage) (pair : Nat) : Nat := (u.at_ (2 * pair)).mine + (u.at_ (2 * pair + 1)).mine

/-- The spot of a grove in an allotment (R368): the pair with room that holds the fewest groves of the context, the lowest
of equals. -/
def State.groveSpot (s : State) (u : Usage) (n : Needs) (banned pairs : List Nat) : Option Spot :=
  let room := pairs.filter fun p => (s.spotOn u n banned p).isSome
  match room with
  | [] => none
  | p :: ps => s.spotOn u n banned (ps.foldl (fun b q => if u.onPair q < u.onPair b then q else b) p)

/-- One grove of a copse in a run of pairs (R139): the lowest core with room, or the lowest pair. -/
def State.runSpot (s : State) (u : Usage) (n : Needs) (run : List Nat) : Option Spot :=
  if n.single then (run.flatMap fun p => [2 * p, 2 * p + 1]).findSome? fun c => s.coreSpot u n c
  else run.findSome? fun p => s.pairSpot u n p

/-- `count` groves of a copse arranged in a run: their spots, in order. -/
def State.arrange (s : State) (n : Needs) (run : List Nat) : (count : Nat) → Usage → Option (Usage × List Spot)
  | 0, u => some (u, [])
  | k + 1, u =>
    match s.runSpot u n run with
    | none => none
    | some x =>
      match s.arrange n run k (u.take n x) with
      | none => none
      | some (u, l) => some (u, x :: l)

/-- The runs of adjacent pairs of an allotment that a copse may take: empty, of one slice, fewest pairs first. -/
def State.runs (s : State) (u : Usage) (pairs : List Nat) : List (List Nat) :=
  let empty (p : Nat) : Bool := decide ((u.at_ (2 * p)).groves = 0) && decide ((u.at_ (2 * p + 1)).groves = 0) &&
    (s.enabledCore (2 * p) || s.enabledCore (2 * p + 1))
  [1, 2, 3, 4].flatMap fun len => pairs.filterMap fun p =>
    let run := (List.range len).map (p + ·)
    if run.all fun q => pairs.contains q && decide (q / 12 = p / 12) && empty q then some run else none

/-- A copse placed (R139). -/
def State.copseSpots (s : State) (u : Usage) (n : Needs) (count : Nat) (pairs : List Nat) : Option (Usage × List Spot) :=
  (s.runs u pairs).findSome? fun run => s.arrange n run count u

/-- A grove, or a whole copse, placed: spots by grove. -/
def State.unitSpots (s : State) (u : Usage) (n : Needs) (copse : Nat) (banned pairs : List Nat) : Option (Usage × List Spot) :=
  if copse = 1 then (s.groveSpot u n banned pairs).map fun x => (u.take n x, [x])
  else s.copseSpots u n copse pairs

/-- The cores of a list of spots. -/
def coresOf (l : List Spot) : List Nat := l.flatMap fun x => match x.2 with
  | none => [x.1]
  | some (up, _) => [x.1, up]

/-- A grove placed: copy, grx, spot. -/
abbrev Placing := Nat × Nat × Spot

/-- One grove or copse in each of its copies (R141), the first grove being `grx`. -/
def State.unitPlacing (s : State) (u : Usage) (n : Needs) (x : Record) (pairs : List Nat) (grx : Nat) : Option (Usage × List Placing) :=
  match s.unitSpots u n (x.copse + 1) [] pairs with
  | none => none
  | some (u, l) =>
    let first : List Placing := l.zipIdx.map fun (sp, k) => (0, grx + k, sp)
    if x.redund then
      match s.unitSpots u n (x.copse + 1) (coresOf l) pairs with
      | none => none
      | some (u, m) => some (u, first ++ m.zipIdx.map fun (sp, k) => (1, grx + k, sp))
    else some (u, first)

/-- `count` groves or copses placed one after another. -/
def State.placings (s : State) (n : Needs) (x : Record) (pairs : List Nat) : (count : Nat) → Nat → Usage → Option (Usage × List Placing)
  | 0, _, u => some (u, [])
  | k + 1, grx, u =>
    match s.unitPlacing u n x pairs grx with
    | none => none
    | some (u, l) =>
      match s.placings n x pairs k (grx + x.copse + 1) u with
      | none => none
      | some (u, m) => some (u, l ++ m)

/-- The groves of a record's next unit: a grove or copse, or all of a cooperative launch (R155). -/
def Record.unitCount (x : Record) : Nat := if x.coop then (x.groves + 1) / (x.copse + 1) else 1

/-- A grove holds room on a core now: it is placed, or its copse keeps its scratch (R198), and its context is not
evicted. -/
def State.occupies (s : State) (v : Grove) : Bool := (v.placed || v.kept) && !(s.contextAt v.ctx).evicted

/-- The use of every core as a context's units are placed. -/
def State.usage (s : State) (ctx : Nat) : Usage :=
  let groves := s.groves.filter fun e => s.occupies e.2
  let add (u : Usage) (core bytes groups groves mine : Nat) : Usage :=
    let x := u.at_ core
    Table.put u core { bytes := x.bytes + bytes, groups := x.groups + groups, groves := x.groves + groves, mine := x.mine + mine }
  let u := groves.foldl (fun (u : Usage) e =>
    let v := e.2
    let m := if v.ctx = ctx then 1 else 0
    let u := add u v.core ((s.launchAt v.launch).rcd.scratch * 256) 0 1 m
    match v.upper with
    | none => u
    | some (up, _) => add u up 0 0 1 0) []
  s.groups.foldl (fun (u : Usage) e =>
    let g := e.2
    if g.role = .kernel ∧ s.occupies (s.groveAt g.grove) then add u g.core (g.width * g.nregs * 4) 1 0 0 else u) u

/-- A well-formed record can never be placed in the context's allotment (R147). -/
def State.unplaceable (s : State) (ctx : Nat) (x : Record) : Bool :=
  (s.placings (s.needs ctx x) x (s.allotment ctx) x.unitCount 0 []).isNone

/-! ## Acceptance (R146, R147, R286) -/

/-- Launches of a queue that are not complete, oldest first. -/
def Context.queue (x : Context) (q : Nat) : List Nat := (x.queues.at? q).getD []

/-- The status a record is answered with (R147). -/
def State.recordStatus (s : State) (ctx : Nat) (r : List Byte) : Nat :=
  if malformed r then 0x03
  else
    let x := recordFrom r
    if x.kind = 0 ∧ s.unplaceable ctx x then 0x04
    else if 64 ≤ ((s.contextAt ctx).queue x.queue).length then 0x02
    else 0x01

/-- The id after the last one taken (R286). -/
def lidAfter (last : Nat) : Nat := if last = 2 ^ 32 - 1 then 1 else last + 1

/-- A launch as it is accepted. -/
def Record.launch (x : Record) (ctx lid clk : Nat) (graph : Option Nat) : Launch :=
  let n := (x.groves + 1) * (x.groups + 1)
  let bar : Barrier := { (default : Barrier) with expd := BitVec.ofNat 32 n }
  { ctx := ctx, rcd := x, lid := lid, graph := graph, started := false, complete := false, gids := [], next := 0,
    alive := (x.groves + 1) * (if x.redund then 2 else 1), clk := clk, area := 0, ctxArea := false, withdrawn := false, last := 0,
    hostWrote := [], copseBars := [], launchBars := [(0, bar), (1, bar), (2, bar), (3, bar)] }

/-- A launch joined to a queue of its context (R150): the state and its key. -/
def State.enqueue (s : State) (ctx q : Nat) (x : Launch) : State × Nat :=
  let k := s.nextId
  let c := s.contextAt ctx
  ((s.fresh.setLaunch k x).setContext ctx { c with queues := c.queues.put q (c.queue q ++ [k]) }, k)

/-- A well-formed record accepted: the next launch id, and a launch in its queue or a graph that begins (R150, R286); groups of
either start with at least `clk` (R226, R285).  A graph is not counted among the 64 launches of its queue (log 92). -/
def State.acceptRecord (s : State) (ctx : Nat) (r : List Byte) (clk : Nat) : State × Nat :=
  let x := recordFrom r
  let c := s.contextAt ctx
  let lid := lidAfter c.nextLid
  let s := s.setContext ctx { c with nextLid := lid }
  if x.kind = 1 then
    let g : Graph := { ctx := ctx, rcd := x, lid := lid, node := 0, counts := [], submitted := [], entry := none, snap := none, clk := clk, failed := false }
    ({ s.fresh with graphs := s.graphs.put s.nextId g }, lid)
  else ((s.enqueue ctx x.queue (x.launch ctx lid clk none)).1, lid)

/-- A record of the launch window that is refused as malformed is logged (R311, class 5). -/
def State.refuseRecord (s : State) (ctx : Nat) (addr : Scalar) (status : Nat) : State :=
  if status = 0x03 then s.error 5 5 ctx addr 0 else s

/-- The context whose oldest waiting record lies in slot `slot` of the window that a page showed: the one the page is bound to, or
one that has lost its guardian since the page was written (R149, R366). -/
def State.submitter (s : State) (vf page slot : Nat) : Option Nat :=
  let waits (ctx : Nat) : Bool := (s.contextAt ctx).submits.head? == some slot
  let left : Option Nat := (s.contexts.find? fun e => waits e.1 && e.2.writer == some (vf, page)).map (·.1)
  match (s.pageAt vf page).bound with
  | none => left
  | some ctx => if waits ctx then some ctx else left

/-- `LAUNCH_SUBMIT` (R149): the dispatcher snapshots the slot that the oldest write with VALID set names, checks it, and
writes CTRL. -/
def execLaunchSubmit (vf page slot : Nat) (s : State) : Host.Outcome State Fault Refusal :=
  .next <| match s.submitter vf page slot with
  | none => s
  | some ctx =>
    let x := s.contextAt ctx
    let r := x.window.readN (128 * slot) 128
    let status := s.recordStatus ctx r
    let s := s.setContext ctx { x with submits := x.submits.drop 1, window := x.window.write (128 * slot + 127) (BitVec.ofNat 8 status) }
    if status = 0x01 then (s.acceptRecord ctx r 0).1
    else s.refuseRecord ctx 0 status

/-! ## Placement (R137, R140, R155) -/

/-- The slots in use on a core, of groups with a role that `p` picks. -/
def State.slotsOn (s : State) (core : Nat) (p : Group → Bool) : List Nat :=
  (s.groups.filter fun e => decide (e.2.core = core) && p e.2).map (·.2.slot)

/-- The partition with the fewest groups, the lowest of equals (R140), and its lowest free slot. -/
def freeSlot (used : List Nat) : Nat :=
  let count (q : Nat) : Nat := (used.filter fun k => decide (k / 4 = q)).length
  let q := (List.range 16).foldl (fun b q => if count q < count b then q else b) 0
  4 * q + (((List.range 4).find? fun k => !used.contains (4 * q + k)).getD 0)

/-- A group at its start (R28, R157). -/
def newGroup (ctx launch grove gix grx core slot : Nat) (x : Record) (clk : Nat) : Group :=
  let g : Group := { (default : Group) with
    ctx := ctx, launch := launch, grove := grove, gix := gix, grx := grx, role := .kernel, core := core, slot := slot,
    width := widthOf x.width, nregs := 32 * (x.regs + 1), planes := planesOfCode x.pcnt, clk := clk, mlast := 15, wait := .none }
  g.atStart x.param

/-- Groups gix to gix + n − 1 of a grove started on a core. -/
def State.startGroups (s : State) (lk grove grx core : Nat) : (n gix : Nat) → State
  | 0, _ => s
  | n + 1, gix =>
    let l := s.launchAt lk
    let slot := freeSlot (s.slotsOn core fun g => decide (g.role = .kernel) && s.occupies (s.groveAt g.grove))
    let g := newGroup l.ctx lk grove gix grx core slot l.rcd l.clk
    let id := s.nextId
    let s := (s.fresh.setGroup id g).setLaunch lk { l with gids := id :: l.gids }
    s.startGroups lk grove grx core n (gix + 1)

/-- One grove started on its spot: its scratch is zero, its barriers expect its groups (R184, R197). -/
def State.startGrove (s : State) (lk : Nat) (e : Placing) : State :=
  let (copy, grx, core, upper) := e
  let l := s.launchAt lk
  let n := l.rcd.groups + 1
  let bar : Barrier := { (default : Barrier) with expd := BitVec.ofNat 32 n }
  let k := s.nextId
  let s := s.fresh.setGrove k
    { ctx := l.ctx, launch := lk, grx := grx, copy := copy, core := core, upper := upper, scratch := [],
      bars := (List.range 16).map fun b => (b, bar), alive := n, placed := true, kept := false, ends := [] }
  match upper with
  | none => s.startGroups lk k grx core n 0
  | some (up, low) => (s.startGroups lk k grx core low 0).startGroups lk k grx up (n - low) low

/-- The barriers of a copse as it starts (R184). -/
def State.startCopseBars (s : State) (lk copy grx : Nat) : State :=
  let l := s.launchAt lk
  let size := l.rcd.copse + 1
  if grx % size ≠ 0 then s
  else
    let bar : Barrier := { (default : Barrier) with expd := BitVec.ofNat 32 (size * (l.rcd.groups + 1)) }
    let k := 4 * (2 * (grx / size) + copy)
    s.setLaunch lk { l with copseBars := (List.range 4).foldl (fun t b => t.put (k + b) bar) l.copseBars }

/-- Two ranges have a granule in common (R152). -/
def Range.meets (a b : Range) : Bool :=
  decide (a.count ≠ 0) && decide (b.count ≠ 0) && decide (a.base < b.base + b.count) && decide (b.base < a.base + a.count)

/-- Two launches conflict (R152). -/
def Record.conflicts (a b : Record) : Bool :=
  let used (l : List Range) : List Range := l.filter fun r => decide (r.count ≠ 0)
  let ra := used (a.reads ++ a.writes)
  let rb := used (b.reads ++ b.writes)
  decide (ra = []) || decide (rb = []) || a.writes.any (fun w => rb.any fun r => w.meets r) || b.writes.any (fun w => ra.any fun r => w.meets r)

/-- The launch uses ctl(CKPT), once it starts. -/
def State.usesCtxArea (s : State) (l : Launch) : Bool :=
  if l.started then l.ctxArea else decide (l.rcd.ckpt = 0) && decide ((s.contextAt l.ctx).ckpt ≠ 0)

/-- A launch that has not started may start (R152, R153, R295): no earlier launch of its queue that is not complete
conflicts with it, and none of its context that is not complete uses the checkpoint area it would use. -/
def State.mayStart (s : State) (lk : Nat) (earlier : List Nat) : Bool :=
  let l := s.launchAt lk
  l.started ||
  (earlier.all (fun k => !((s.launchAt k).rcd.conflicts l.rcd)) &&
   !(s.usesCtxArea l && s.launches.any fun e => decide (e.2.ctx = l.ctx) && decide (e.1 < lk) && !e.2.complete && s.usesCtxArea e.2))

/-- The launches of a queue with a unit to place that may start, among its sixteen oldest (R153). -/
def State.startable (s : State) (ctx q : Nat) : List Nat :=
  let l := ((s.contextAt ctx).queue q).take 16
  (l.zipIdx.filter fun (k, i) => decide ((s.launchAt k).next ≤ (s.launchAt k).rcd.groves) && s.mayStart k (l.take i)).map (·.1)

/-- The launch whose next unit comes first, with its queue (R155). -/
def State.firstUnit (s : State) (ctx : Nat) : Option (Nat × Nat) :=
  let order := (List.range 8).map fun k => ((s.contextAt ctx).lastQueue + 1 + k) % 8
  let all := order.flatMap fun q => (s.startable ctx q).map fun k => (q, k)
  let top := all.foldl (fun m e => max m (s.launchAt e.2).rcd.prio) 0
  all.find? fun e => decide ((s.launchAt e.2).rcd.prio = top)

/-- The greatest time of an effect of a launch that is complete: the launches ordered after it start no earlier (R157, R226). -/
def State.doneTimes (s : State) : Nat := s.launches.foldl (fun m e => if e.2.complete then max m e.2.last else m) s.doneTime

/-- A launch begins: its clock and its checkpoint area are fixed (R157, R295). -/
def State.beginLaunch (s : State) (lk : Nat) : State :=
  let l := s.launchAt lk
  if l.started then s
  else s.setLaunch lk { l with
    started := true, clk := max l.clk s.doneTimes, ctxArea := s.usesCtxArea l,
    area := if l.rcd.ckpt ≠ 0 then l.rcd.ckpt else (s.contextAt l.ctx).ckpt }

/-- A context may place units: it has a table root, and is neither suspended nor off its cores (R339, R346). -/
def State.mayPlace (s : State) (ctx : Nat) : Bool :=
  let x := s.contextAt ctx
  decide (x.cfg.root ≠ 0) && decide (x.state ≠ .suspended) && !x.evicted && !x.evicting && !x.restoring

/-- The context has a launch that could be placed, or one whose groves are off their cores, and is not suspended (R340). -/
def State.hasLaunch (s : State) (ctx : Nat) : Bool :=
  let x := s.contextAt ctx
  decide (x.cfg.root ≠ 0) && decide (x.state ≠ .suspended) &&
  ((s.firstUnit ctx).isSome || (x.evicted && s.launches.any fun e => decide (e.2.ctx = ctx) && !e.2.complete))

/-- Whether a context wants the shared cores: for a launch, or for a restore that its guardian has asked for (R304, R340). -/
def State.wantsTurn (s : State) (ctx : Nat) : Bool := s.hasLaunch ctx || (s.contextAt ctx).restoring

/-- The time-sliced context of a glade that comes next, in id order after the last that ran (R340). -/
def State.nextTurn (s : State) (glade after : Nat) : Option Nat :=
  let all := (s.contextsOf glade).filter fun c => s.timeSliced c && s.wantsTurn c
  match all.find? fun c => decide (after < c) with
  | some c => some c
  | none => all.head?

/-- The context's turn stands, or begins now, with the clocks of its cores as R165 has them then (R340): allotted contexts need none. -/
def State.takeTurn (s : State) (ctx : Nat) : Option State :=
  if !s.timeSliced ctx then some s
  else
    let k := (s.contextAt ctx).glade
    let g := s.gladeAt k
    let fresh : Option State :=
      if s.nextTurn k (g.turn.getD 1024) = some ctx then 
        some ((s.restoreSteps (s.allotment ctx)).setGlade k { g with turn := some ctx, turnFrom := s.time }) else none
    match g.turn with
    | none => fresh
    | some c => match s.contexts.at? c with
      | none => fresh
      | some x => if (x.evicted ∧ ¬ x.restoring) ∨ ¬ s.timeSliced c then fresh else if c = ctx then some s else none

/-- `UNIT_PLACEMENT` (R155): the first unit of the context is placed, if there is room for it. -/
def execUnitPlacement (ctx : Nat) (s : State) : Host.Outcome State Fault Refusal :=
  .next <|
    if s.mayPlace ctx then
      match s.firstUnit ctx with
      | none => s
      | some (q, lk) =>
        match s.takeTurn ctx with
        | none => s
        | some t =>
          let l := t.launchAt lk
          match t.placings (t.needs ctx l.rcd) l.rcd (t.allotment ctx) l.rcd.unitCount l.next (t.usage ctx) with
          | none => t
          | some (_, ps) =>
            let t := t.beginLaunch lk
            let t := ps.foldl (fun (t : State) e => (t.startCopseBars lk e.1 e.2.1).startGrove lk e) t
            let l := t.launchAt lk
            (t.setLaunch lk { l with next := l.next + l.rcd.unitCount * (l.rcd.copse + 1) }).setContext ctx
              { t.contextAt ctx with lastQueue := q }
    else s

/-! ## Completion (R156, R157) -/

/-- An effect of one of the launch's groups is still to be performed. -/
def State.effectsLeft (s : State) (lk : Nat) (l : Launch) : Bool :=
  let mine (g : Nat) : Bool := l.gids.contains g
  (s.entries.any fun e => mine e.gid) || (s.atoms.any fun a => mine a.gid) || (s.locals.any fun x => mine x.gid) ||
  (s.contribs.any fun x => mine x.gid) ||
  (s.slices.any fun e => e.2.streams.any fun t => t.2.isOpen && t.2.buf.any fun b => mine b.2.2.2) ||
  s.channels.any fun e => e.2.queue.any fun x => decide (x.launch = lk)

/-- DONEVAL stored at a place as a store of the context and a system-scope release, and the time of the store: none while its home
has no right to the line.  One that a VF in ERROR bars, or that its severed port has not answered, is dropped and logged (R345,
R357). -/
def State.putDone (s : State) (ctx : Nat) (p : Place) (cut : Bool) (done : Nat) (val : BitVec 32) (clk : Nat) : Option (State × Nat) :=
  if s.barred ctx true p then some (s.error 8 6 ctx (BitVec.ofNat 64 done) 0, clk)
  else if cut then some (s.error 2 6 ctx (BitVec.ofNat 64 done) 0, clk)
  else if s.homeOwns ctx p then
    let (s, t) := s.storeAtHome ctx p (toBytes val.toNat 4) clk
    some (match p with
      | .host _ _ _ => s.setLine p { s.lineOf p with dirty := false }
      | .dram _ _ | .scratch _ _ | .regs _ _ | .vault _ _ _ => s, t)
  else none

/-- DONEVAL stored at DONE for a launch or graph (R156): the time of the store, none while it waits for its home.  It is translated
once (R345); a translation that faults is logged as class 5, after class 9 for an ill-formed entry (R317). -/
def State.storeDone (s : State) (ctx who done : Nat) (val : BitVec 32) (clk : Nat) : State × Option Nat :=
  match s.flightOf who done with
  | some f => match f.pieces.head? with
    | some (p, _, _) => match s.putDone ctx p (s.unanswered f.seq p) done val clk with
      | some (t, w) => (t.land who, some w)
      | none => (s.askFlight f, none)
    | none => (s.land who, some clk)
  | none => match s.translateAt ctx done true true with
    | .ok (.place p) => match s.putDone ctx p false done val clk with
      | some (t, w) => (t, some w)
      | none => (s.takeOff ctx who done [(p, 0, 4)] (some (toBytes val.toNat 4)), none)
    | .ok (.peer _ _) => (s.error 5 5 ctx (BitVec.ofNat 64 done) 0, some clk)
    | .error (code, d) => ((s.logIllFormed ctx (BitVec.ofNat 64 done) code d).error 5 5 ctx (BitVec.ofNat 64 done) 0, some clk)

/-- A completed launch leaves its queue; an orphan with nothing left suspends (R346). -/
def State.retire (s : State) (ctx lk : Nat) : State :=
  let s := { s with
    launches := s.launches.alter lk fun l : Launch => { l with complete := true },
    contexts := s.contexts.alter ctx fun x : Context => { x with queues := x.queues.mapVals fun l => l.filter (· ≠ lk) } }
  if s.hasWork ctx then s else s.orphanTrigger ctx

/-- `LAUNCH_COMPLETE` (R156): once every group has exited and every effect is performed, DONEVAL is stored, unless a copy
was withdrawn, and the launch is complete.  Its effects are performed at system scope, whatever DONE is: the host-backed lines that
it wrote are written back, before the store (R224). -/
def execLaunchComplete (launch : Nat) (s : State) : Host.Outcome State Fault Refusal :=
  .next <| match s.launches.at? launch with
  | none => s
  | some l =>
    if l.complete || decide (l.next ≤ l.rcd.groves) || decide (l.alive ≠ 0) || s.effectsLeft launch l then s
    else
      let s := s.writeBack l.hostWrote
      if l.rcd.done = 0 ∨ l.withdrawn then s.retire l.ctx launch
      else match s.storeDone l.ctx launch l.rcd.done l.rcd.doneval l.last with
        | (t, none) => t
        | (t, some w) => (t.noteEffect launch w).retire l.ctx launch

/-! ## Task graphs (R158, R159) -/

/-- A node entry (R158). -/
structure Node where
  addr : Nat
  limit : Nat
  alt : Nat
  next : Nat
  type : Nat
  reserved : Nat
  deriving DecidableEq, Repr

def nodeOf (r : List Byte) : Node :=
  let q := qword r 8
  { addr := qword r 0, limit := bitsOf q 63 48, alt := bitsOf q 47 32, next := bitsOf q 31 16, type := bitsOf q 1 0,
    reserved := bitsOf q 15 2 }

/-- The node is ill-formed in a table of `n` entries (R158, R159).  Of the fields that a node's TYPE does not use, R158 says of ADDR
and LIMIT that they are zero, and nothing of NEXT and ALT: the model checks the first two only (log 84). -/
def Node.bad (x : Node) (n : Nat) : Bool :=
  decide (x.reserved ≠ 0) || decide (2 ^ 48 ≤ x.addr) || decide (x.type ≠ 3 ∧ x.limit ≠ 0) ||
  (match x.type with
    | 0 => decide (x.addr ≠ 0)
    | 1 => decide (x.addr % 128 ≠ 0) || decide (n ≤ x.next)
    | _ => decide (x.addr % 4 ≠ 0) || decide (n ≤ x.next) || decide (n ≤ x.alt))

/-- Every launch that the graph has submitted is complete. -/
def State.graphIdle (s : State) (g : Graph) : Bool := g.submitted.all fun k => (s.launchAt k).complete

def State.setGraph (s : State) (k : Nat) (g : Graph) : State := { s with graphs := s.graphs.put k g }

/-- The graph ends (R159); an orphan with nothing left suspends (R346). -/
def State.endGraph (s : State) (k : Nat) (ctx : Nat) : State :=
  let s := { s.land k with graphs := s.graphs.drop k }
  if s.hasWork ctx then s else s.orphanTrigger ctx

/-- A graph fault: nothing more is submitted, and class 5 is logged. -/
def State.graphFault (s : State) (k : Nat) (g : Graph) (addr : Nat) : State :=
  ((s.land k).setGraph k { g with failed := true }).error 5 5 g.ctx (BitVec.ofNat 64 addr) 0

/-- A read of the walker has met a fault of translation: an ill-formed entry is logged as class 9 (R317), and the fault is a graph
fault. -/
def State.graphReadFault (s : State) (k : Nat) (g : Graph) (addr a code detail : Nat) : State :=
  ((((s.land k).setGraph k { g with failed := true }).logIllFormed g.ctx (BitVec.ofNat 64 a) code detail).error 5 5 g.ctx
    (BitVec.ofNat 64 addr) 0)

/-- A launch node: its record is read and checked as the walker reaches the node, and appended to the graph's queue once there
is room. -/
def State.graphLaunch (s : State) (k : Nat) (g : Graph) (x : Node) : State :=
  let submit (s : State) (r : List Byte) : State :=
    let c := s.contextAt g.ctx
    if 64 ≤ (c.queue g.rcd.queue).length then s.setGraph k { g with snap := some r }
    else
      let lid := lidAfter c.nextLid
      let s := s.setContext g.ctx { c with nextLid := lid }
      let (s, lk) := s.enqueue g.ctx g.rcd.queue ((recordFrom r).launch g.ctx lid g.clk (some k))
      s.setGraph k { g with node := x.next, submitted := lk :: g.submitted, entry := none, snap := none }
  match g.snap with
  | some r => submit (s.land k) r
  | none => match s.fetchFor g.ctx k x.addr 128 with
    | .fault a code d => s.graphReadFault k g x.addr a code d
    | .waits t => t.setGraph k g
    | .got _ (some _) _ => s.graphFault k g x.addr
    | .got r none _ =>
        if malformed r ∨ s.unplaceable g.ctx (recordFrom r) ∨ (recordFrom r).kind ≠ 0 then s.graphFault k g x.addr else submit (s.land k) r

/-- A conditional or while node, once every launch submitted is complete.  Its read of the condition word is an acquire: the launches
that come after it start no earlier than the word's W (R225). -/
def State.graphBranch (s : State) (k : Nat) (g : Graph) (x : Node) : State :=
  match s.fetchFor g.ctx k x.addr 4 with
  | .fault a code d => s.graphReadFault k g x.addr a code d
  | .waits t => t.setGraph k g
  | .got _ (some _) _ => s.graphFault k g x.addr
  | .got r none w =>
    let n := (g.counts.at? g.node).getD 0
    let taken := decide (fromBytes r ≠ 0) && !(decide (x.type = 3) && decide (x.limit ≠ 0) && decide (n = x.limit))
    let counts := if x.type = 3 then g.counts.put g.node (if taken then n + 1 else 0) else g.counts
    (s.land k).setGraph k { g with node := if taken then x.next else x.alt, counts := counts, entry := none, clk := max g.clk w }

/-- An end node, once every launch submitted is complete: DONEVAL is stored, as a system-scope release of what they wrote.  The flag
of a launch with a withdrawn copy is withheld (R159); the graph's own is stored all the same, of which the manual says nothing
(log 87). -/
def State.graphEnd (s : State) (k : Nat) (g : Graph) : State :=
  let s := s.writeBack (g.submitted.flatMap fun l => (s.launchAt l).hostWrote)
  if g.rcd.done = 0 then s.endGraph k g.ctx
  else match s.storeDone g.ctx k g.rcd.done g.rcd.doneval s.doneTimes with
    | (t, none) => t.setGraph k g
    | (t, some w) => (g.submitted.foldl (fun (t : State) l => t.noteEffect l w) t).endGraph k g.ctx

/-- The node that the walker is at, by the entry it read as it reached the node (R159). -/
def State.graphNode (s : State) (k : Nat) (g : Graph) (r : List Byte) : State :=
  let n := nodeOf r
  if n.bad (g.rcd.groves + 1) then s.graphFault k g (g.rcd.entry + 16 * g.node)
  else
    let g := { g with entry := some r }
    if n.type = 1 then s.graphLaunch k g n
    else if s.graphIdle g then (if n.type = 0 then s.graphEnd k g else s.graphBranch k g n)
    else s.setGraph k g

/-- `GRAPH_WALKER_STEP` (R159): the walker reads its node's entry as it reaches it, and processes the node, if it may.  A fault of
translation, or poison, that its own reads meet is taken as a graph fault, of which the manual says nothing (log 84). -/
def execGraphWalkerStep (graph : Nat) (s : State) : Host.Outcome State Fault Refusal :=
  .next <| match s.graphs.at? graph with
  | none => s
  | some g =>
    let x := s.contextAt g.ctx
    let at_ := g.rcd.entry + 16 * g.node
    if g.failed then (if s.graphIdle g then s.endGraph graph g.ctx else s)
    else if x.cfg.root = 0 ∨ x.state = .suspended then s
    else match g.entry with
      | some r => s.graphNode graph g r
      | none =>
        match s.fetchFor g.ctx graph at_ 16 with
        | .fault a code d => s.graphReadFault graph g at_ a code d
        | .waits t => t
        | .got _ (some _) _ => s.graphFault graph g at_
        | .got r none _ => (s.land graph).graphNode graph g r

/-! ## `launch` and `lquery` (R285 to R287) -/

/-- A handle (R286). -/
def launchHandle (lid status : Nat) : Scalar := BitVec.ofNat 64 (lid * 2 ^ 8 + status)

/-- The record that a `launch` has read, taken up: an accepted one joins its queue, and the handle is returned (R285). -/
def State.launchRead (s : State) (c : Issue) (d : Reg) (g : Group) (r : List Byte) : State :=
  let status := s.recordStatus g.ctx r
  let (s, lid) := if status = 0x01 then s.acceptRecord g.ctx r g.clk else (s, 0)
  match s.groupAt c.gid with
  | none => s
  | some g => (s.scalResult c g d [launchHandle lid status] 0).spoilRestart c.gid

/-- `LAUNCH` (R285, R298): a refused record has no effect beyond the handle. -/
def execLaunch (d a : Reg) (s : State) : Host.Outcome State Fault Refusal :=
  word (.launch d a) s fun c g => s.ownRead c g (fun s _ g vs => s.launchRead c d g (blockBytes 32 vs)) fun go =>
    match s.addressTrap c g true false 128 [(0, g.srcS .a a)] with
    | some (code, ad, m) => s.trapWord c { g with wait := .none } code 0 ad m
    | none =>
      match s.mapAddr c.gid g (g.srcS .a a) with
      | some (.global _) => s.afterFence c g fun s g =>
        s.access c g true false false 128 [(0, g.srcS .a a)] fun s g good =>
          go s g (s.newLoad c g 32 .dword (blockAt 4 (g.srcS .a a) ((good.head?.map fun e : Located => e.2.2).getD default)))
      | _ => s.trapWord c { g with wait := .none } 15 0 (g.srcS .a a) 0

/-- What `lquery` returns for a handle of a context (R287). -/
def State.launchState (s : State) (ctx : Nat) (h : Scalar) : Nat :=
  let status := bitsOf h.toNat 6 0
  let lid := bitsOf h.toNat 39 8
  if status ≠ 0x01 ∨ lid = 0 then 0x04 + status
  else if (s.contextAt ctx).nextLid < lid then 0
  else match s.launches.find? fun e => decide (e.2.ctx = ctx) && decide (e.2.lid = lid) && !e.2.complete with
    | some (_, l) => if l.started then 2 else 1
    | none => if s.graphs.any fun e => decide (e.2.ctx = ctx) && decide (e.2.lid = lid) then 2 else 3

/-- `LQUERY` (R287). -/
def execLquery (d a : Reg) (s : State) : Host.Outcome State Fault Refusal :=
  word (.lquery d a) s fun c g => s.scalResult c g d [BitVec.ofNat 64 (s.launchState g.ctx (g.srcS .a a))] 0

end Sys2Proof.Machine
end

