-- ==== Sys2Proof/Machine/Sched.lean ====
section
/-! DEFINITION. Time slices, preemption, restart, eviction and restore (R300, R301, R304, R326, R327, R340), and the rebase
of every clock (R237).  An event that is not enabled changes nothing. -/

namespace Sys2Proof.Machine

/-! ## Turns and preemption -/

/-- `TIME_SLICE_END` (R340): the turn of the running context is over; it is evicted if another has a launch for the cores.  A context that
has been given core pairs of its own meanwhile has no turn to end. -/
def execTimeSliceEnd (glade : Nat) (s : State) : Host.Outcome State Fault Refusal :=
  .next <| match s.glades.at? glade with
  | none => s
  | some g => match g.turn with
    | none => s
    | some ctx => match s.contexts.at? ctx with
      | none => s
      | some x =>
        if x.evicted || x.evicting || !s.timeSliced ctx || decide (s.time < g.turnFrom + g.slicems * 1_000_000) then s
        else
          let s := (s.restoreSteps (s.allotment ctx)).setGlade glade { g with turnFrom := s.time }
          if (s.contextsOf glade).any fun c => decide (c ≠ ctx) && s.timeSliced c && s.hasLaunch c then s.startEviction ctx else s

/-- `PREEMPTION` (R301): of a context that is being evicted or is suspended. -/
def execPreemption (ctx : Nat) (s : State) : Host.Outcome State Fault Refusal :=
  .next <| match s.contexts.at? ctx with
  | none => s
  | some x => if x.evicting || decide (x.state = .suspended) then s.preempt ctx else s

/-- A discarded group may restart: its own accesses are performed, those of its slot too, and every write of the groups that
restored its context (R35, R50, R300, R326). -/
def State.restartReady (s : State) (gid : Nat) (g : Group) : Bool :=
  !s.storesLeft gid && !s.localsLeft gid && !s.slotLeft gid && !s.writesWhere g.ctx s.notKernel

/-- `GROUP_RESTART` (R300): a discarded group whose writes are all performed, of a context that runs. -/
def execGroupRestart (gid : Nat) (s : State) : Host.Outcome State Fault Refusal :=
  .next <| match s.groupAt gid with
  | none => s
  | some g =>
    let x := s.contextAt g.ctx
    if g.wait ≠ .discarded ∨ ¬ s.restartReady gid g ∨ x.evicted ∨ x.evicting ∨ x.state = .suspended ∨ ¬ (s.groveAt g.grove).placed then s
    else s.restartGroup gid

/-- `REGION_WATCHDOG` (R301): 2^20 clocks more of waiting for a group that has no restart point. -/
def execRegionWatchdog (gid : Nat) (s : State) : Host.Outcome State Fault Refusal :=
  .next <| match s.groupAt gid with
  | none => s
  | some g => match g.evictSince with
    | none => s
    | some t =>
      if g.rstate = 2 ∧ g.mode = .user ∧ t + 2 ^ 20 ≤ (s.coreAt g.core).clock then
        s.setGroup gid { g with evictSince := some (t + 2 ^ 20), heldTrap := some (g.heldTrap.getD 2) }
      else s

/-- `STEWARD_WAIT_TIMEOUT` (R301): 2^20 clocks of waiting for a handler. -/
def execStewardWaitTimeout (gid : Nat) (s : State) : Host.Outcome State Fault Refusal :=
  .next <| match s.groupAt gid with
  | none => s
  | some g => match g.evictSince with
    | none => s
    | some t =>
      if g.mode = .steward ∧ g.wait ≠ .stopped ∧ max t g.entered + 2 ^ 20 ≤ (s.coreAt g.core).clock then
        s.stewardFault gid
          (g.record 14 3 (BitVec.ofNat 64 ((s.recordOf g).entry + g.rgnoff.toNat * 4)) 0 g.off 0) 14
      else s

/-! ## Eviction and restore (R304, R326) -/

/-- A write that some group of the context issued, or its discard made, has still to be performed. -/
def State.writesLeft (s : State) (ctx : Nat) : Bool := s.writesWhere ctx fun _ => true

/-- Every group of the context has been discarded. -/
def State.allDiscarded (s : State) (ctx : Nat) : Bool :=
  s.groups.all fun e => decide (e.2.ctx ≠ ctx) || decide (e.2.wait = .discarded) || decide (e.2.wait = .stopped)

/-- An eviction or restore group for a grove (R304): s0 to s5 tell it what it serves. -/
def State.startServing (s : State) (role : Role) (off s3 : Nat) (key : Nat) : State :=
  let v := s.groveAt key
  let l := s.launchAt v.launch
  let slot := freeSlot (s.slotsOn v.core fun g => decide (g.role ≠ .kernel))
  let g := newGroup v.ctx v.launch key 0 v.grx v.core slot l.rcd s.highWater
  let args := [v.grx, l.rcd.groups + 1, l.rcd.scratch * 256, s3, v.copy, if v.alive = 0 then 1 else 0]
  s.fresh.setGroup s.nextId { g with
    role := role, mode := .steward, vec := (s.contextAt v.ctx).tvec, off := off, sregs := args.zipIdx.map fun (n, k) => (k, BitVec.ofNat 64 n) }

/-- The groves of a context, by key. -/
def State.grovesOf (s : State) (ctx : Nat) : List Nat := (s.groves.filter fun e => decide (e.2.ctx = ctx)).map (·.1)

/-- `EVICTION_GROUP_START` (R326): one group for each grove, once every write of the discard is performed. -/
def execEvictionGroupStart (ctx : Nat) (s : State) : Host.Outcome State Fault Refusal :=
  .next <| match s.contexts.at? ctx with
  | none => s
  | some x =>
    if !x.evicting || s.serving ctx || !s.allDiscarded ctx || s.writesLeft ctx then s
    else match s.grovesOf ctx with
      | [] => s.finishEviction ctx
      | ks => ks.foldl (fun s k => s.startServing .evict 64 (x.sealctr + 1) k) s

/-- The groves of a context in the order in which they are placed again: by launch and copse, the first copy before the
second. -/
def State.regroved (s : State) (ctx : Nat) : List (Nat × Nat × Nat × List Nat) :=
  let size (v : Grove) : Nat := (s.launchAt v.launch).rcd.copse + 1
  let unit (v : Grove) : Nat × Nat × Nat := (v.launch, v.grx / size v, v.copy)
  let all := s.groves.filter fun e => decide (e.2.ctx = ctx)
  let units := (all.map fun e => unit e.2).dedup
  let before (a b : Nat × Nat × Nat) : Bool :=
    decide (a.1 < b.1) || (decide (a.1 = b.1) && (decide (a.2.1 < b.2.1) || (decide (a.2.1 = b.2.1) && decide (a.2.2 ≤ b.2.2))))
  (units.mergeSort before).map fun u => (u.1, u.2.1, u.2.2, (all.filter fun e => decide (unit e.2 = u)).map (·.1))

/-- Spots for every unit, or none while one of them has no room (R304). -/
def State.respots (s : State) (ctx : Nat) : (units : List (Nat × Nat × Nat × List Nat)) → (last : Nat × Nat × List Nat) → Usage →
    Option (List (Nat × Spot))
  | [], _, _ => some []
  | (lk, cp, copy, keys) :: rest, (lk', cp', cores), u =>
    let r := (s.launchAt lk).rcd
    let banned := if copy = 1 ∧ lk = lk' ∧ cp = cp' then cores else []
    match s.unitSpots u (s.needs ctx r) (r.copse + 1) banned (s.allotment ctx) with
    | none => none
    | some (u, spots) =>
      match s.respots ctx rest (lk, cp, coresOf spots) u with
      | none => none
      | some l => some (keys.zip spots ++ l)

/-- One grove placed again: its scratch is zero, and its groups are on their cores (R304). -/
def State.replaceGrove (s : State) (e : Nat × Spot) : State :=
  let (k, core, upper) := e
  let s := { s with groves := s.groves.alter k fun v : Grove =>
    { v with core := core, upper := upper, scratch := [], placed := decide (v.alive ≠ 0) } }
  let mine := (s.groups.filter fun e => decide (e.2.grove = k) && decide (e.2.role = .kernel)).mergeSort fun a b => decide (a.2.gix ≤ b.2.gix)
  let s := { s with groups := s.groups.mapVals fun g : Group => if g.grove = k then { g with slot := 64 } else g }
  mine.foldl (fun (s : State) e =>
    let c := match upper with
      | some (up, low) => if low ≤ e.2.gix then up else core
      | none => core
    let slot := freeSlot (s.slotsOn c fun g => decide (g.role = .kernel) && (s.groveAt g.grove).placed)
    { s with groups := s.groups.alter e.1 fun g : Group => { g with core := c, slot := slot } }) s

/-- The context may be restored now: the guardian asked for it, or its turn has come (R304, R340). -/
def State.restoreTurn (s : State) (ctx : Nat) : Option State :=
  let x := s.contextAt ctx
  if x.restoring || (s.timeSliced ctx && decide (x.state ≠ .suspended)) then
    (s.takeTurn ctx).map fun t => { t with contexts := t.contexts.alter ctx fun x : Context => { x with restoring := true } }
  else none

/-- `RESTORE_PLACEMENT` (R304): every grove of an evicted context is placed again, once all have room, and its restore
groups start; what the groups of an abandoned restore have stored is performed before that (R327). -/
def execRestorePlacement (ctx : Nat) (s : State) : Host.Outcome State Fault Refusal :=
  .next <| match s.contexts.at? ctx with
  | none => s
  | some x =>
    if !x.evicted || x.evicting || s.serving ctx || s.writesLeft ctx then s
    else match s.restoreTurn ctx with
      | none => s
      | some t => match t.respots ctx (t.regroved ctx) (0, 0, []) (t.usage ctx) with
        | none => t
        | some l =>
          let t := l.foldl State.replaceGrove t
          match t.grovesOf ctx with
          | [] => t.finishRestore ctx
          | ks => ks.foldl (fun t k => t.startServing .restore 128 x.sealctr k) t

/-! ## Rebase (R237) -/

/-- A request of a home that its host is to answer: none for a context that is no more, and none that its severed port, or a VF in
ERROR, keeps from its host, which end with the accesses that wait for them (R345, R357, log 31). -/
def State.askLives (s : State) (a : Ask) : Bool :=
  decide (a.ctx = noTag) || match s.contexts.at? a.ctx with
    | none => false
    | some x => !x.sevp.getLsbD a.port && !s.blocked a.ctx a.line

/-- An access is in flight: all but those that wait for more than their home, the entries held for a compare and refused
contributions. -/
def State.inFlight (s : State) : Bool :=
  s.asks.any s.askLives || decide (s.slotWrites ≠ []) || decide (s.prefetches ≠ []) || s.groups.any (fun e => e.2.wait == Wait.writing) ||
  decide (s.loads ≠ []) || decide (s.atoms ≠ []) || decide (s.locals ≠ []) || s.entries.any (fun e => !e.held) ||
  s.contribs.any fun x => !x.refused

/-- A clock lowered. -/
def lower (t : Nat) : Nat := t - 2 ^ 46

/-- The stamp of a copy parked for room lowered, with the queued ones. -/
def Wait.lower (w : Wait) : Wait :=
  match w with
  | .room ch x => .room ch { x with stamp := Machine.lower x.stamp }
  | .reached cc => .reached (Machine.lower cc)
  | w => w

def Group.lower (g : Group) : Group :=
  { g with wait := g.wait.lower, clk := Machine.lower g.clk, acks := g.acks.map Machine.lower, markAck := Machine.lower g.markAck }

def Barrier.lower (x : Barrier) : Barrier := { x with t := Machine.lower x.t, open_ := Machine.lower x.open_ }

def Channel.lower (k : Channel) : Channel :=
  { k with cc := Machine.lower k.cc, queue := k.queue.map fun x : Copy => { x with stamp := Machine.lower x.stamp } }

def Slice.lower (x : Slice) : Slice :=
  { x with floor := Machine.lower x.floor, l2 := [], l2Bases := [], streams := x.streams.mapVals fun t : Stream =>
      { t with buf := t.buf.mapVals fun e => (e.1, Machine.lower e.2.1, e.2.2) } }

/-- Every clock and time of the package lowered by 2^46, every copy dropped. -/
def State.lowered (s : State) : State :=
  let s := { s with groups := s.groups.mapVals Group.lower, slices := s.slices.mapVals Slice.lower,
                    channels := s.channels.mapVals Channel.lower }
  let s := { s with lines := s.lines.mapVals (fun x : Line => { x with w := lower x.w, l := lower x.l }),
                    cores := s.cores.mapVals (fun c : Core => { c with l1 := [], l1Base := 0 }) }
  let s := { s with groves := s.groves.mapVals (fun v : Grove => { v with bars := v.bars.mapVals Barrier.lower }),
                    links := s.links.mapVals (fun l : Link => { l with clks := l.clks.mapVals lower }) }
  let s := { s with entries := s.entries.map (fun e : Entry => { e with clk := lower e.clk }),
                    contribs := s.contribs.map (fun x : Contribution => { x with clk := lower x.clk }) }
  { s with
    doneTime := lower s.doneTime, graphs := s.graphs.mapVals (fun g : Graph => { g with clk := lower g.clk }),
    launches := s.launches.mapVals fun l : Launch =>
      { l with clk := lower l.clk, last := lower l.last, copseBars := l.copseBars.mapVals Barrier.lower, launchBars := l.launchBars.mapVals Barrier.lower } }

/-- `REBASE` (R237). -/
def execRebase (s : State) : Host.Outcome State Fault Refusal :=
  .next <| if s.rebaseDue && !s.inFlight then { s.lowered with epoch := (s.epoch + 1) % 2 ^ 32 } else s

end Sys2Proof.Machine
end

