-- ==== Sys2Proof/Machine/Streams.lean ====
section
/-! DEFINITION. The sequenced streams (R230 to R235). -/

namespace Sys2Proof.Machine

/-! ## Handles and descriptors (R231) -/

def handleGen (h : Scalar) : Nat := bitsOf h.toNat 63 62
def handleSlot (h : Scalar) : Nat := bitsOf h.toNat 61 56
def handleSlice (h : Scalar) : Nat := bitsOf h.toNat 55 52
def handleCnt (h : Scalar) : Nat := bitsOf h.toNat 51 32
def handleBase (h : Scalar) : BitVec 32 := h.setWidth 32

/-- A handle from its fields. -/
def streamHandle (gen slot slice cntm1 : Nat) (base : BitVec 32) : Scalar :=
  BitVec.ofNat 64 (gen * 2 ^ 62 + slot * 2 ^ 56 + slice * 2 ^ 52 + cntm1 * 2 ^ 32 + base.toNat)

/-- A descriptor sets a reserved bit or an ill-formed OP. -/
def badStreamDescriptor (d : Scalar) : Bool := decide (bitsOf d.toNat 63 54 ≠ 0) || decide (2 ≤ bitsOf d.toNat 53 52)

/-- The slot k of a slice. -/
def Slice.streamAt (x : Slice) (k : Nat) : Stream := (x.streams.at? k).getD Stream.reset

/-- The stream that a handle of a context names, if the slot holds it (R233, R235). -/
def State.streamOf (s : State) (ctx : Nat) (h : Scalar) : Option Stream :=
  let x := (s.sliceAt (handleSlice h)).streamAt (handleSlot h)
  if x.isOpen ∧ x.gen = handleGen h ∧ x.base = handleBase h ∧ x.cntm1 = handleCnt h ∧ x.ctx = ctx then some x else none

def State.setStream (s : State) (h : Scalar) (x : Stream) : State :=
  let sl := s.sliceAt (handleSlice h)
  s.setSlice (handleSlice h) { sl with streams := sl.streams.put (handleSlot h) x }

/-- The stream has applied every index. -/
def Stream.finished (x : Stream) : Bool := decide (x.cntm1 < x.next)

/-! ## `sqopen` -/

/-- A stream opened on a target: the lowest free slot of the home slice, and its handle; 0 if there is none. -/
def State.openStream (s : State) (ctx va : Nat) (p : Place) (desc : Scalar) : State × Scalar :=
  let h := homeSlice p
  let sl := s.sliceAt h
  match (List.range 64).find? fun k => !(sl.streamAt k).isOpen with
  | none => (s, 0)
  | some k =>
    let x : Stream :=
      { gen := (sl.streamAt k).gen, isOpen := true, ctx := ctx, base := desc.setWidth 32, cntm1 := bitsOf desc.toNat 51 32,
        fp := decide (bitsOf desc.toNat 53 52 = 1), target := p, va := va, cut := [], next := 0, buf := [] }
    (s.setSlice h { sl with streams := sl.streams.put k x }, streamHandle x.gen k h x.cntm1 x.base)

/-- The target and the descriptor of `sqopen` checked (R78, R231): a trap, or `k`.  An ill-formed descriptor comes before a fault of
translation or protection of the target, of whose order the manual says nothing (log 80). -/
def State.openChecked (s : State) (c : Issue) (g : Group) (a b : Reg) (k : State) : State :=
  match s.addressTrap c g true false 4 [(0, g.srcS .a a)] with
  | some (code, ad, m) => s.trapWord c g code 0 ad m
  | none =>
    match s.mapAddr c.gid g (g.srcS .a a) with
    | some (.global _) => if badStreamDescriptor (g.srcS .b b) then s.openHandleFault c g 0x30 else k
    | _ => s.trapWord c g 15 0 (g.srcS .a a) 0

/-- `SQOPEN` (R231, R298). -/
def execSqopen (d a b : Reg) (s : State) : Host.Outcome State Fault Refusal :=
  word (.sqopen d a b) s fun c g => s.checkedFence c g (s.openChecked c g a b) fun s g =>
    s.openChecked c g a b <| s.access c g true true false 4 [(0, g.srcS .a a)] fun s g good =>
      let (s, h) := s.openStream g.ctx (g.srcS .a a).toNat ((good.head?.map fun e : Located => e.2.2).getD default) (g.srcS .b b)
      (s.scalResult c g d [h] 0).spoilRestart c.gid

/-! ## `sqred` -/

/-- The position of a lane's index in the stream: (index − BASE) mod 2^32 (R232). -/
def streamPos (h : Scalar) (index : Lane) : Nat := (index - handleBase h).toNat

/-- The checks of `sqred` at issue (R232): a handle fault, or `k`. -/
def State.handleChecked (s : State) (c : Issue) (g : Group) (a b : Reg) (k : State) : State :=
  let h := g.srcS .a a
  let bad := (lanesOf g.width c.mask).filter fun i => decide (handleCnt h < streamPos h (g.srcV .b b i))
  if handleGen h = 0 then s.trapWord c g 10 0x31 h c.mask
  else if bad ≠ [] then s.trapWord c g 10 0x32 h (maskOf bad)
  else k

/-- A sequenced reduction: the checks of R232, and one contribution of each issuing lane, ascending. -/
def State.sendContributions (s : State) (c : Issue) (g : Group) (d a b : Reg) : State :=
  let lanes := lanesOf g.width c.mask
  if lanes = [] then s
  else s.checkedFence c g (s.handleChecked c g a b) fun s g =>
    s.handleChecked c g a b <|
      let h := g.srcS .a a
      let s := lanes.foldl (fun (s : State) i => { s.fresh with contribs := s.contribs ++
        [{ seq := s.nextId, gid := c.gid, ctx := g.ctx, handle := h, j := streamPos h (g.srcV .b b i), data := g.srcV .d d i,
           clk := g.clk, refused := false }] }) s
      s.spoilRestart c.gid

/-- `SQRED.ADDF` (R232). -/
def execSqredAddf (d a b : Reg) (s : State) : Host.Outcome State Fault Refusal :=
  word (.sqredAddf d a b) s fun c g => s.sendContributions c g d a b

/-- `SQRED.ADD` (R232): the stream's OP decides the operation, whatever form sent the contribution. -/
def execSqredAdd (d a b : Reg) (s : State) : Host.Outcome State Fault Refusal :=
  word (.sqredAdd d a b) s fun c g => s.sendContributions c g d a b

/-! ## `sqclose` (R235) -/

/-- The stream closed: every group parked on it goes on with CLK at least W of the target, and the slot is free. -/
def State.closeStream (s : State) (h : Scalar) (x : Stream) : State :=
  let w := (s.lineOf x.target).w
  let s := { s with groups := s.groups.mapVals fun g : Group =>
    if g.wait = Wait.stream h ∧ g.ctx = x.ctx then { g with wait := .over, clk := max g.clk w } else g }
  s.setStream h x.close

/-- `SQCLOSE` (R235). -/
def execSqclose (a : Reg) (s : State) : Host.Outcome State Fault Refusal :=
  word (.sqclose a) s fun c g =>
    match g.wait with
    | .over => s.endRun
    | _ =>
      let h := g.srcS .a a
      if handleGen h = 0 then s.openHandleFault c g 0x31
      else match s.streamOf g.ctx h with
        | none => s
        | some x =>
          if x.finished then
            (s.setGroup c.gid { g with clk := max g.clk (s.lineOf x.target).w }).closeStream h x |>.endRun
          else s.hold c.gid g (.stream h)

/-! ## Contributions at the home (R233) -/

/-- FP32 addition at memory: RNE, subnormals kept (R228). -/
def addfAtMemory (x v : Lane) : Lane := BitVec.ofNat 32 (fp32.addc { rm := rne, ftz := false } x.toNat v.toNat).1

/-- One index of a stream applied at the target. -/
def State.applyIndex (s : State) (h : Scalar) (x : Stream) (data : Lane) (clk gid : Nat) : State × Stream :=
  let old : Lane := BitVec.ofNat 32 (fromBytes (s.bytesAt (s.keyOf x.ctx) x.target 4))
  let new := if x.fp then addfAtMemory old data else old + data
  let (s, t) := s.storeAtHome x.ctx x.target (toBytes new.toNat 4) clk
  let s := s.noteGroup gid t x.target
  let x := { x with next := x.next + 1, buf := x.buf.drop x.next }
  (s.setStream h x, x)

/-- The next expected indices applied while they are buffered. -/
def State.applyBuffered (h : Scalar) : (fuel : Nat) → State → Stream → State × Stream
  | 0, s, x => (s, x)
  | fuel + 1, s, x =>
    match x.buf.at? x.next with
    | none => (s, x)
    | some (data, clk, gid) =>
      let (s, x) := s.applyIndex h x data clk gid
      State.applyBuffered h fuel s x

end Sys2Proof.Machine
end

