-- ==== Sys2Proof/Machine/Guardian.lean ====
section
/-! DEFINITION. Guardianship: requests that are refused (R363, R364), leases and their loss (R341 to R346, R366), the
reap timer (R343), and the commands of a context page (R337 to R339, R347, R349 to R354).  A command names its page,
whose ARGS and settings block it reads; its status is left in the page's CMD. -/

namespace Sys2Proof.Machine

/-! ## Ports, pages and refused requests (R332, R363, R364) -/

/-- The port of a VF: VFs are numbered in port order (R332). -/
def State.vfPort (s : State) (vf : Nat) : Option Nat :=
  (List.range 4).find? fun p =>
    let first := (List.range p).foldl (fun n q => n + (s.portAt q).vfs) 0
    decide (first ≤ vf) && decide (vf < first + (s.portAt p).vfs)

/-- A request that performs nothing is logged as class 8, source 6: under the context that the page is bound to, else in
every glade that permits the port (R363, R364). -/
def State.violate (s : State) (port : Nat) (bound : Option Nat) (addr : Nat) : State :=
  match bound with
  | some c =>
    let s := { s with contexts := s.contexts.alter c fun x : Context => { x with eclass := some (6, 8) } }
    s.logIn (s.contextAt c).glade 8 6 c (BitVec.ofNat 64 addr)
  | none => s.glades.foldl (fun (s : State) e =>
      if e.2.ports.getLsbD port then s.logIn e.1 8 6 0xFFFF (BitVec.ofNat 64 addr) else s) s

/-- The package answers at its functions (R374). -/
def State.isReady (s : State) : Bool := s.boot.powered && decide (s.boot.state = .ready)

/-- The offset in a VF's BAR0 of a context page's byte (R334). -/
def pageOffset (page off : Nat) : Nat := 0x10000 * page + off

/-! ## Leases (R342) -/

/-- The orphan moment of a guardian: LAST, and its lease, and 2 ms. -/
def Context.orphanMoment (x : Context) (g : Guardian) : Nat := g.last + x.cfg.leasems * 1_000_000 + 2_000_000

/-- The guardian of a context that a page holds. -/
def Context.guardianOn (x : Context) (vf page : Nat) : Option Guardian :=
  x.guardians.find? fun g => decide (g.vf = vf) && decide (g.page = page)

/-- The context and guardian role of a page, while its lease stands. -/
def State.caller (s : State) (vf page : Nat) : Option (Nat × Guardian) :=
  match (s.pageAt vf page).bound with
  | none => none
  | some ctx => match (s.contextAt ctx).guardianOn vf page with
    | none => none
    | some g => if s.time < (s.contextAt ctx).orphanMoment g then some (ctx, g) else none

/-- LAST of a page's guardian becomes the device time. -/
def State.renewLease (s : State) (ctx vf page : Nat) : State :=
  { s with contexts := s.contexts.alter ctx fun x : Context =>
    { x with guardians := x.guardians.map fun g : Guardian => if g.vf = vf ∧ g.page = page then { g with last := s.time } else g } }

/-! ## The guardians of a context (R341, R343) -/

/-- A notice that waits for a guardian's reply. -/
def Notice.pending (n : Notice) : Bool := !n.answered && (decide (n.type = 1) || decide (n.type = 2) || decide (n.type = 4))

/-- The guardians without the one on a port: when the primary is the one removed, the lowest port of the rest is the new
primary. -/
def withoutPort (gs : List Guardian) (port : Nat) : List Guardian :=
  let rest := gs.filter fun g => decide (g.port ≠ port)
  if (gs.head?.map (·.port)) = some port then rest.mergeSort fun a b => decide (a.port ≤ b.port) else rest

/-- A guardian's role ends: its page is unbound, and SHARED with one guardian left is GUARDED. -/
def State.removeGuardian (s : State) (ctx : Nat) (g : Guardian) : State :=
  let s := s.setPage g.vf g.page (s.pageAt g.vf g.page).unbind
  { s with contexts := s.contexts.alter ctx fun x : Context =>
    let rest := withoutPort x.guardians g.port
    { x with guardians := rest, state := if x.state = .shared ∧ rest.length = 1 then .guarded else x.state } }

/-- A new NONCE is drawn (R341). -/
def State.drawNonce (s : State) (ctx : Nat) : State :=
  { s.draw with contexts := s.contexts.alter ctx fun x : Context => { x with nonce := Config.random s.draws } }

/-! ## Loss of a guardian (R344 to R346, R366) -/

/-- A place in the memory of a port's host that its home cannot serve before the port answers. -/
def State.awaits (s : State) (ctx port : Nat) (own : Bool) (p : Place) : Bool :=
  match p with
  | .host q _ _ => decide (q = port) && !s.homeRight ctx own p
  | .dram _ _ | .scratch _ _ | .regs _ _ | .vault _ _ _ => false

/-- A place in the memory of a port's host. -/
def Place.atPort (port : Nat) (p : Place) : Bool :=
  match p with
  | .host q _ _ => decide (q = port)
  | .dram _ _ | .scratch _ _ | .regs _ _ | .vault _ _ _ => false

/-- The lines of a context's accesses that are translated and not yet performed: issue number, place, and whether it is written (R345). -/
def State.inFlightOf (s : State) (ctx : Nat) : List (Nat × Place × Bool) :=
  ((s.loads.filter fun x => decide (s.ctxOf x.gid = ctx)).flatMap fun x =>
    (x.rest.filter fun l => !x.covered l).map fun l => (x.seq, l.place, false)) ++
  ((s.entries.filter fun e => decide (e.ctx = ctx)).map fun e => (e.seq, e.line, true)) ++
  ((s.atoms.filter fun a => decide (a.ctx = ctx)).flatMap fun a => a.lanes.map fun l => (a.seq, l.place, true)) ++
  ((s.contribs.filter fun x => decide (x.ctx = ctx)).flatMap fun x =>
    ((s.streamOf ctx x.handle).toList).map fun st => (x.seq, st.target, true)) ++
  ((s.slotWrites.filter fun w => decide (w.ctx = ctx)).map fun w => (w.seq, w.place, true)) ++
  ((s.flights.filter fun f => decide (f.ctx = ctx)).flatMap fun f => (linesOf f.pieces).map fun p => (f.seq, p, f.bytes.isSome))

/-- The lines at a severed port among those of accesses in flight, each with 50 ms to be answered for (R345). -/
def cutsAt (ctx port due : Nat) (l : List (Nat × Place × Bool)) : List Cut :=
  ((l.filter fun e => e.2.1.atPort port).map fun e =>
    { seq := e.1, ctx := ctx, line := e.2.1.line, own := e.2.2, due := due, late := false }).dedup

/-- The places of a channel's unit, or flag, in flight, and whether they are written. -/
def Channel.inFlight (k : Channel) : List (Nat × Place × Bool) :=
  match k.flight, k.queue with
  | some rs, x :: _ =>
    let (src, dst) := if x.done < x.len then x.nextUnit.split rs else ([], rs)
    (placesAmong src).map (fun p => (0, p, false)) ++ (placesAmong dst).map fun p => (0, p, true)
  | _, _ => []

/-- Severance at the loss of a guardian (R345): cached translations are dropped first; what is in flight to the port has 50 ms, and so
has the target of a stream, which no contribution translates again.  A prefetch that waits for the port has nothing to return, and is
given up. -/
def State.sever (s : State) (ctx : Nat) (g : Guardian) (primary : Bool) : State :=
  let s := s.dropXlates fun t => decide (t.ctx = ctx)
  let cuts := cutsAt ctx g.port (s.time + 50_000_000)
  { s with
    contexts := s.contexts.alter ctx (fun x : Context => { x with sevp := x.sevp ||| BitVec.ofNat 4 (2 ^ g.port), sevgb := x.sevgb || primary }),
    cuts := s.cuts ++ cuts (s.inFlightOf ctx),
    prefetches := s.prefetches.filter fun x : Prefetch => !(decide (x.ctx = ctx) && s.awaits ctx g.port false x.place),
    channels := s.channels.mapVals (fun k : Channel =>
      if (k.owner.any fun o : Nat × Nat => o.1 == ctx) then { k with cut := k.cut ++ cuts k.inFlight } else k),
    slices := s.slices.mapVals fun x : Slice => { x with streams := x.streams.mapVals fun t : Stream =>
      if t.isOpen ∧ t.ctx = ctx then { t with cut := t.cut ++ cuts [(0, t.target, true)] } else t } }

/-- No guardian is left: ORPHANED, or SUSPENDED again with the reap timer from its start (R343, R344). -/
def State.orphan (s : State) (ctx at_ : Nat) : State :=
  let s := s.drawNonce ctx
  { s with contexts := s.contexts.alter ctx fun x : Context =>
    { x with adepoch := x.adepoch + 1, lostAt := some at_,
             state := if x.state = .suspended then .suspended else .orphaned,
             reapFrom := if x.state = .suspended then some s.time else none } }

/-- The orphan suspends at once when a notice of types 1, 2 or 4 waits for a reply (R344), or when nothing of it is left
to run (R366). -/
def State.orphanAtOnce (s : State) (ctx : Nat) : State :=
  if (s.contextAt ctx).notices.any Notice.pending || !s.hasWork ctx then s.orphanTrigger ctx else s

/-- A guardian is lost, its orphan moment being `at_` (R344): severance, the end of its role, the orphaning if it was the
last; and a notice of type 5 tells of it. -/
def State.loseGuardian (s : State) (ctx : Nat) (g : Guardian) (at_ : Nat) : State :=
  let primary := decide ((s.contextAt ctx).guardians.head? = some g)
  let s := (s.sever ctx g primary).removeGuardian ctx g
  let s := if (s.contextAt ctx).guardians = [] then s.orphan ctx at_ else s
  (s.raise ctx { (default : Notice) with type := 5 }).orphanAtOnce ctx

/-- `GUARDIAN_LOSS` (R344): the guardian on the port, once its orphan moment has come. -/
def execGuardianLoss (ctx port : Nat) (s : State) : Host.Outcome State Fault Refusal :=
  .next <| match s.contexts.at? ctx with
  | none => s
  | some x => match x.guardians.find? fun g => decide (g.port = port) with
    | none => s
    | some g => if x.orphanMoment g ≤ s.time then s.loseGuardian ctx g (x.orphanMoment g) else s

/-- When the reap timer of a context ends: it is SUSPENDED and has no guardian (R343). -/
def Context.reapMoment (x : Context) : Option Nat :=
  if x.state = .suspended ∧ x.guardians = [] then x.reapFrom.map (· + x.cfg.reaps * 1_000_000_000) else none

/-- `REAP_TIMEOUT` (R343, R354): the context is destroyed at the first moment at or after the end of its timer. -/
def execReapTimeout (ctx : Nat) (s : State) : Host.Outcome State Fault Refusal :=
  .next <| match s.contexts.at? ctx with
  | none => s
  | some x => match x.reapMoment with
    | none => s
    | some t => if t ≤ s.time then s.destroy ctx else s

/-! ## The command register (R336) -/

/-- The outcome of a command: the state, and its STATUS. -/
abbrev Done := State × Nat

/-- The command that a page may not issue: nothing is performed, it is logged, and STATUS is 0x03 (R337, R363). -/
def State.notPermitted (s : State) (port vf page : Nat) : Done :=
  (s.violate port (s.pageAt vf page).bound (pageOffset page 0x1000), 0x03)

/-- A command written to a page's CMD with GO set.  Nothing reaches a package that is not READY, or a VF that no port
presents; a VF in ERROR discards the write, and it is logged (R357, R374). -/
def State.command (s : State) (vf page code : Nat) (arg0 : BitVec 32) (f : (port : Nat) → State → Done) : State :=
  if !s.isReady || decide (4 ≤ page) then s
  else match s.vfPort vf with
    | none => s
    | some port =>
      if (s.vfAt vf).tdisp = .error then s.violate port (s.pageAt vf page).bound (pageOffset page 0x1000)
      else
        let (t, status) := f port s
        t.setPage vf page { t.pageAt vf page with arg0 := arg0, code := BitVec.ofNat 8 code, status := BitVec.ofNat 8 status }

/-- A command that only the primary guardian may issue. -/
def State.asPrimary (s : State) (vf page port : Nat) (f : (ctx : Nat) → Context → Guardian → Done) : Done :=
  match s.caller vf page with
  | none => s.notPermitted port vf page
  | some (ctx, g) =>
    let x := s.contextAt ctx
    if x.guardians.head? = some g then f ctx x g else s.notPermitted port vf page

/-- A command that only an unbound page may issue. -/
def State.asUnbound (s : State) (vf page port : Nat) (f : Done) : Done :=
  if (s.pageAt vf page).bound = none then f else s.notPermitted port vf page

/-- `n` bytes of the page's ARGS from byte `o` on. -/
def CtxPage.argBytes (p : CtxPage) (o n : Nat) : List Byte := p.args.readN o n

/-- 32 bytes of ARGS as an identity or a nonce. -/
def CtxPage.arg256 (p : CtxPage) (o : Nat) : BitVec 256 := BitVec.ofNat 256 (fromBytes (p.argBytes o 32))

/-! ## BIND (R339) -/

/-- The glade that an id byte names, by its first slice (R329). -/
def State.gladeNamed (s : State) (id : Nat) : Option Nat :=
  match s.glades.at? (id % 16) with
  | none => none
  | some g => if g.len = (match id / 16 with
      | 0 => 1
      | 1 => 3
      | 2 => 6
      | _ => 12) ∧ id / 16 < 4 then some (id % 16) else none

/-- The lowest context id that is free. -/
def State.freeContext (s : State) : Option Nat := (List.range 1024).find? fun c => (s.contexts.at? c).isNone

/-- The default settings (R338). -/
def Settings.initial : Settings :=
  { root := 0, ttbase := 0, ttslots := 0, l1 := 0, leasems := 250, reaps := 600, cpairs := 0, vaults := 0, l2limit := 0, l3limit := 0 }

/-- A context as BIND creates it (R339, R341, R343). -/
def Context.initial (glade : Nat) (isProtected : Bool) (g : Guardian) (nonce : BitVec 256) : Context :=
  { glade := glade, isProtected := isProtected, cfg := .initial, ckpt := 0, tvec := 0, sealctr := 0, eclass := none, state := .guarded,
    guardians := [g], successors := [0, 0, 0], invited := 0, adepoch := 0, nonce := nonce, sevp := 0, sevgb := false,
    lostAt := none, reapFrom := none, nextNotice := 1, notices := [], nextLid := 0, queues := [], lastQueue := 7, evicted := false,
    evicting := false, restoring := false, asked := [], window := [], submits := [], writer := none }

/-- A page becomes a guardian of a context. -/
def State.bindPage (s : State) (vf page ctx : Nat) : State := s.setPage vf page ((s.pageAt vf page).rebind (some ctx))

/-- BIND: context, key slot, guardian and lease. -/
def State.bindCmd (s : State) (vf page port : Nat) (arg0 : BitVec 32) : Done :=
  match s.gladeNamed (arg0.toNat % 256) with
  | none => (s, 0x03)
  | some glade =>
    let td := (s.vfAt vf).tdisp
    let id := (s.portAt port).identity
    if !(s.gladeAt glade).ports.getLsbD port then (s, 0x03)
    else if td = .locked ∨ td = .error then (s, 0x02)
    else if td = .run ∧ id = none then (s, 0x03)
    else match s.freeContext with
      | none => (s, 0x08)
      | some ctx =>
        let g : Guardian := { port := port, vf := vf, page := page, identity := id.getD 0, last := s.time }
        let x := Context.initial glade (decide (td = .run)) g (Config.random (s.draws + 1))
        ((({ s.draw.draw with ctxKeys := s.ctxKeys.put ctx (s.draws + 1) } : State).setContext ctx x).bindPage vf page ctx, 0x01)

/-- `BIND`. -/
def execBind (vf page : Nat) (arg0 : BitVec 32) (s : State) : Host.Outcome State Fault Refusal :=
  .next <| s.command vf page 0x01 arg0 fun port s => s.asUnbound vf page port (s.bindCmd vf page port arg0)

/-! ## SET (R338) -/

/-- The settings block read: the new settings with CKPT, TVEC and SEVER, or none if a check that needs no other context
fails. -/
def State.parseSettings (s : State) (glade : Nat) (b : List Byte) : Option (Settings × Nat × Nat × Nat) :=
  let n := (s.gladeAt glade).len
  let c : Settings :=
    { root := fieldOf b 0 8, ttbase := fieldOf b 0x18 8, ttslots := fieldOf b 0x20 4, l1 := fieldOf b 0x24 1, leasems := fieldOf b 0x26 2,
      reaps := fieldOf b 0x28 4, cpairs := BitVec.ofNat 192 (fieldOf b 0x30 24), vaults := BitVec.ofNat 288 (fieldOf b 0x48 36),
      l2limit := fieldOf b 0x70 4, l3limit := fieldOf b 0x74 4 }
  let tvec := fieldOf b 8 8
  let ckpt := fieldOf b 0x10 8
  let sev := fieldOf b 0x7C 1
  let bad := decide (c.root % 4096 ≠ 0) || decide (c.root ≠ 0 ∧ gladeBytes n ≤ c.root) || decide (tvec % 256 ≠ 0) ||
    decide (ckpt % 256 ≠ 0) || decide (c.ttbase % 64 ≠ 0) || decide (2 ^ 20 < c.ttslots) || decide (2 < c.l1) ||
    decide (c.leasems < 10) || decide (10000 < c.leasems) || decide (c.reaps = 0) || decide (86400 < c.reaps) || decide (32 ≤ sev) ||
    decide (2 ^ (12 * n) ≤ c.cpairs.toNat) || decide (2 ^ (24 * n) ≤ c.vaults.toNat) ||
    [(0x25, 1), (0x2C, 4), (0x6C, 4), (0x78, 4), (0x7D, 131)].any fun e => decide (fieldOf b e.1 e.2 ≠ 0)
  if bad then none else some (c, ckpt, tvec, sev)

/-- A bit of CPAIRS or VAULTS that another context holds, or a core pair that offers no core (R338, R379). -/
def State.settingsClash (s : State) (ctx glade : Nat) (c : Settings) : Bool :=
  (s.contexts.any fun e => decide (e.1 ≠ ctx) && decide (e.2.glade = glade) &&
    (decide (e.2.cfg.cpairs &&& c.cpairs ≠ 0) || decide (e.2.cfg.vaults &&& c.vaults ≠ 0))) ||
  (List.range (12 * (s.gladeAt glade).len)).any fun k => c.cpairs.getLsbD k &&
    !s.enabledCore (2 * (12 * glade + k)) && !s.enabledCore (2 * (12 * glade + k) + 1)

/-- The vaults of a VAULTS field, as 72 d + v. -/
def vaultsOf (glade n : Nat) (v : BitVec 288) : List Nat :=
  ((List.range (24 * n)).filter fun k => v.getLsbD k).map fun k => 24 * glade + k

/-- Vaults allotted to a context: one that another context had last, or none, is zeroed first (R200).  What is on its way
to such a vault meets it as it was: a store comes before the zeros, and is gone with them; a load reads what stood there before them; a
copy's unit, whose addresses may name another place now, is reached again by a translation of its own (log 89). -/
def State.allotVaults (s : State) (ctx : Nat) (vs : List Nat) : State :=
  let fresh := vs.filter fun v => decide (s.vaultLast.at? v ≠ some ctx)
  let lost (p : Place) : Bool := match p with
    | .vault d v _ => fresh.contains (72 * d + v)
    | .dram _ _ | .host _ _ _ | .scratch _ _ | .regs _ _ => false
  let read (x : Load) : Load := (x.rest.filter fun l => lost l.place).foldl (fun y l => (s.performLane 0 0 y l).2) x
  let t := s.zeroVaults fun d v => fresh.contains (72 * d + v)
  { t with locals := s.locals.filter (fun x : LocalStore => !lost x.place), loads := s.loads.map read,
           channels := s.channels.mapVals (fun k : Channel => if (k.flight.any fun rs => (placesAmong rs).any lost) then { k with flight := none } else k),
           vaultLast := vs.foldl (fun t v => t.put v ctx) s.vaultLast }

/-- Severance lifted at the ports of `sev` (R345): what a stream's target waits for there is a request without a bound again. -/
def State.liftStreams (s : State) (ctx sev : Nat) : State :=
  let lifted (e : Cut) : Bool := decide (e.ctx = ctx) && (List.range 4).any fun q => Nat.testBit sev q && e.line.atPort q
  { s with slices := s.slices.mapVals fun x : Slice => { x with streams := x.streams.mapVals fun t : Stream =>
    { t with cut := t.cut.filter fun e => !lifted e } } }

/-- A context has a grove, or scratch that its copse keeps, on a core pair that is not, or no longer, among those it runs on. -/
def State.strays (s : State) (ctx : Nat) : Bool :=
  s.groves.any fun e => decide (e.2.ctx = ctx) && (e.2.placed || e.2.kept) && !(s.allotment ctx).contains (e.2.core / 2)

/-- An eviction asked for, and behind it the restore of a context that waits for no turn: its groves come to the core pairs that it now
runs on (R304, R340, log 95). -/
def State.moveOff (s : State) (ctx : Nat) : State :=
  let x := s.contextAt ctx
  let back : List Bool := if s.timeSliced ctx then [] else [true]
  if x.evicted then s
  else if x.evicting || x.restoring then s.setContext ctx { x with asked := x.asked ++ false :: back }
  else (s.setContext ctx { x with asked := x.asked ++ back }).startEviction ctx

/-- The contexts of a glade whose cores have been given to another context, or that have been given others (R304, R340). -/
def State.moveStrays (s : State) (glade : Nat) : State :=
  ((s.contextsOf glade).filter s.strays).foldl State.moveOff s

/-- SET: all of the block, or none of it.  A store on its way to a vault that SET takes from the context is still performed, unless the
vault is first zeroed for another context (log 89).  New core pairs have the groves that stand elsewhere move to them (log 95). -/
def State.setCmd (s : State) (ctx : Nat) (x : Context) (b : List Byte) : Done :=
  match s.parseSettings x.glade b with
  | none => (s, 0x07)
  | some (c, ckpt, tvec, sev) =>
    if s.settingsClash ctx x.glade c then (s, 0x07)
    else
      let s := if c.l1 = x.cfg.l1 then s
        else { s with cores := s.cores.mapVals (fun k : Core => { k with l1 := k.l1.filter fun l => decide (l.ctx ≠ ctx) }) }
      let s := (s.allotVaults ctx (vaultsOf x.glade (s.gladeAt x.glade).len c.vaults)).liftStreams ctx sev
      let s := if c.cpairs = x.cfg.cpairs then s else s.endSlice ctx
      let t := s.setContext ctx { x with cfg := c, ckpt := ckpt, tvec := tvec, sevp := x.sevp &&& ~~~(BitVec.ofNat 4 sev),
                                         sevgb := x.sevgb && decide (sev < 16) }
      (if c.cpairs = x.cfg.cpairs then t else t.moveStrays x.glade, 0x01)

/-- `SET`. -/
def execSet (vf page : Nat) (arg0 : BitVec 32) (s : State) : Host.Outcome State Fault Refusal :=
  .next <| s.command vf page 0x02 arg0 fun port s => s.asPrimary vf page port fun ctx x _ =>
    s.setCmd ctx x ((s.pageAt vf page).settings.readN 0 256)

/-! ## ASSIGNCH (R331, R274) -/

/-- A channel of a local number reset or unassigned. -/
def State.channelCmd (s : State) (ctx num : Nat) (unassign : Bool) : Done :=
  match s.channelOf ctx num with
  | none => (s, 0x07)
  | some k =>
    let c := s.channelAt k
    if unassign then (if c.queue = [] then (s.setChannel k .reset, 0x01) else (s, 0x02))
    else if !c.fault && decide (c.queue ≠ []) then (s, 0x02)
    else (s.setChannel k { c with fault := false, sp := c.wp }, 0x01)

/-- A channel assigned under a local number. -/
def State.assignCmd (s : State) (ctx num engine chan : Nat) : Done :=
  let k := 16 * engine + chan
  let owner := (s.channelAt k).owner
  if !(s.gladeAt (s.contextAt ctx).glade).engines.getLsbD engine then (s, 0x07)
  else if (owner.any fun o : Nat × Nat => o.1 == ctx) ∨ (s.channelOf ctx num).isSome then (s, 0x07)
  else if owner.isSome then (s, 0x06)
  else (s.setChannel k { Channel.reset with owner := some (ctx, num) }, 0x01)

/-- ASSIGNCH, as its ARG0 says. -/
def State.assignchCmd (s : State) (ctx : Nat) (arg0 : BitVec 32) : Done :=
  let a := arg0.toNat
  let reset := arg0.getLsbD 30
  let unassign := arg0.getLsbD 31
  if bitsOf a 29 20 ≠ 0 ∨ bitsOf a 15 13 ≠ 0 ∨ (reset ∧ unassign) then (s, 0x07)
  else if reset || unassign then
    if bitsOf a 19 8 ≠ 0 then (s, 0x07) else s.channelCmd ctx (bitsOf a 7 0) unassign
  else s.assignCmd ctx (bitsOf a 7 0) (bitsOf a 12 8) (bitsOf a 19 16)

/-- `ASSIGNCH`. -/
def execAssignch (vf page : Nat) (arg0 : BitVec 32) (s : State) : Host.Outcome State Fault Refusal :=
  .next <| s.command vf page 0x03 arg0 fun port s => s.asPrimary vf page port fun ctx _ _ => s.assignchCmd ctx arg0

/-- `ASSIGNCH` with ARG0[30] set: a reset of a channel. -/
def execAssignchReset (vf page : Nat) (arg0 : BitVec 32) (s : State) : Host.Outcome State Fault Refusal :=
  let a := arg0 ||| 0x40000000
  .next <| s.command vf page 0x03 a fun port s => s.asPrimary vf page port fun ctx _ _ => s.assignchCmd ctx a

/-- `ASSIGNCH` with ARG0[31] set: an unassignment. -/
def execAssignchUnassign (vf page : Nat) (arg0 : BitVec 32) (s : State) : Host.Outcome State Fault Refusal :=
  let a := arg0 ||| 0x80000000
  .next <| s.command vf page 0x03 a fun port s => s.asPrimary vf page port fun ctx _ _ => s.assignchCmd ctx a

/-! ## Succession and sharing (R337, R343, R349, R353) -/

/-- `SETSUCC`: the three identities of ARGS bytes 0 to 95. -/
def execSetsucc (vf page : Nat) (arg0 : BitVec 32) (s : State) : Host.Outcome State Fault Refusal :=
  .next <| s.command vf page 0x04 arg0 fun port s => s.asPrimary vf page port fun ctx x _ =>
    let p := s.pageAt vf page
    (s.setContext ctx { x with successors := [p.arg256 0, p.arg256 32, p.arg256 64] }, 0x01)

/-- `SHARE`: the one invitation. -/
def execShare (vf page : Nat) (arg0 : BitVec 32) (s : State) : Host.Outcome State Fault Refusal :=
  .next <| s.command vf page 0x05 arg0 fun port s => s.asPrimary vf page port fun ctx x _ =>
    (s.setContext ctx { x with invited := (s.pageAt vf page).arg256 0 }, 0x01)

/-- The token in ARGS is valid for the context (R349); kind 1 to adopt, 2 to join. -/
def Context.tokenValid (x : Context) (kind ctx : Nat) (p : CtxPage) : Bool :=
  let t := p.argBytes 0 0xEF4
  let host := p.arg256 0x18
  let pk := (t.drop 0x60).take 1312
  decide (fieldOf t 0 8 = kind) && decide (fieldOf t 8 2 = ctx) &&
  decide (fieldOf t 0x10 8 = if kind = 1 then x.adepoch.toNat else 0) && decide (p.arg256 0x38 = x.nonce) && decide (host ≠ 0) &&
  (if kind = 1 then x.successors.contains host else decide (x.invited = host)) && decide (Config.sha3 pk = host) &&
  Config.mldsaVerify pk (t.take 0x58) ((t.drop 0x580).take 2420)

/-- The identity that the token in ARGS presents. -/
def CtxPage.tokenHost (p : CtxPage) : BitVec 256 := p.arg256 0x18

/-- JOIN on an unbound page, before the NONCE is drawn again (R353). -/
def State.joinCmd (s : State) (vf page port ctx : Nat) (x : Context) : Done :=
  let p := s.pageAt vf page
  if !(s.gladeAt x.glade).ports.getLsbD port then (s, 0x03)
  else if (x.state ≠ .guarded ∧ x.state ≠ .shared) ∨ (x.guardians.any fun g => g.port == port) then (s, 0x02)
  else if !x.tokenValid 2 ctx p then (s, 0x05)
  else
    let g : Guardian := { port := port, vf := vf, page := page, identity := p.tokenHost, last := s.time }
    ((s.setContext ctx { x with guardians := x.guardians ++ [g], state := .shared, invited := 0 }).bindPage vf page ctx, 0x01)

/-- A command on the context that ARG0[9:0] names, whose NONCE is drawn again whatever comes of it (R341). -/
def State.onNamed (s : State) (arg0 : BitVec 32) (f : (ctx : Nat) → Context → Done) : Done :=
  let ctx := arg0.toNat % 1024
  match s.contexts.at? ctx with
  | none => (s, 0x02)
  | some x =>
    let (t, status) := f ctx x
    (t.drawNonce ctx, status)

/-- `JOIN`. -/
def execJoin (vf page : Nat) (arg0 : BitVec 32) (s : State) : Host.Outcome State Fault Refusal :=
  .next <| s.command vf page 0x06 arg0 fun port s => s.asUnbound vf page port (s.onNamed arg0 fun ctx x => s.joinCmd vf page port ctx x)

/-- UNSHARE by a guardian: the primary may name any co-guardian's port, a co-guardian its own. -/
def State.unshareCmd (s : State) (vf page port ctx : Nat) (g : Guardian) (arg0 : BitVec 32) : Done :=
  let x := s.contextAt ctx
  let named := arg0.toNat % 4
  if x.guardians.head? ≠ some g ∧ g.port ≠ named then s.notPermitted port vf page
  else match (x.guardians.drop 1).find? fun h => decide (h.port = named) with
    | none => (s, 0x02)
    | some h => (s.removeGuardian ctx h, 0x01)

/-- `UNSHARE`. -/
def execUnshare (vf page : Nat) (arg0 : BitVec 32) (s : State) : Host.Outcome State Fault Refusal :=
  .next <| s.command vf page 0x07 arg0 fun port s => match s.caller vf page with
    | none => s.notPermitted port vf page
    | some (ctx, g) => s.unshareCmd vf page port ctx g arg0

/-! ## TRANSFER (R352) -/

/-- TRANSFER to the page that ARG0 names. -/
def State.transferCmd (s : State) (ctx : Nat) (x : Context) (g : Guardian) (identity : BitVec 256) (arg0 : BitVec 32) : Done :=
  let vf := arg0.toNat % 256
  let page := bitsOf arg0.toNat 9 8
  match s.vfPort vf with
  | none => (s, 0x02)
  | some port =>
    if (s.pageAt vf page).bound ≠ none ∨ !(s.gladeAt x.glade).ports.getLsbD port ∨ (x.guardians.any fun h => h.port == port) ∨
        (x.isProtected ∧ (s.vfAt vf).tdisp ≠ .run) then (s, 0x02)
    else
      let h : Guardian := { port := port, vf := vf, page := page, identity := identity, last := s.time }
      let s := s.setPage g.vf g.page (s.pageAt g.vf g.page).unbind
      let s := (s.setContext ctx { x with guardians := h :: x.guardians.drop 1 }).bindPage vf page ctx
      ((x.notices.filter Notice.pending).foldl (fun (s : State) n => s.sendNotice [h] n) s, 0x01)

/-- `TRANSFER`. -/
def execTransfer (vf page : Nat) (arg0 : BitVec 32) (s : State) : Host.Outcome State Fault Refusal :=
  .next <| s.command vf page 0x08 arg0 fun port s => s.asPrimary vf page port fun ctx x g =>
    s.transferCmd ctx x g ((s.pageAt vf page).arg256 0) arg0

/-! ## ADOPT and RESUME (R350) -/

/-- The moment before which an adoption comes too early. -/
def Context.adoptFrom (x : Context) : Nat :=
  match x.lostAt, x.guardians with
  | some t, _ => t
  | none, g :: _ => x.orphanMoment g
  | none, [] => 0

/-- The notices that a new guardian is told of: those queued, and channel stalls that still wait (R348). -/
def Notice.toDeliver (n : Notice) : Bool := n.queued || (n.pending && decide (n.type = 4))

/-- ADOPT on an unbound page, before the NONCE is drawn again (R350). -/
def State.adoptCmd (s : State) (vf page port ctx : Nat) (x : Context) : Done :=
  let p := s.pageAt vf page
  if !(s.gladeAt x.glade).ports.getLsbD port then (s, 0x03)
  else if s.time < x.adoptFrom then (s, 0x04)
  else if x.guardians ≠ [] ∨ (x.state ≠ .orphaned ∧ x.state ≠ .suspended) then (s, 0x02)
  else if !x.tokenValid 1 ctx p then (s, 0x05)
  else if x.isProtected ∧ (s.vfAt vf).tdisp ≠ .run then (s, 0x02)
  else
    let g : Guardian := { port := port, vf := vf, page := page, identity := p.tokenHost, last := s.time }
    let s := (s.setContext ctx { x with
      guardians := [g], reapFrom := none, state := if x.state = .orphaned then .guarded else .suspended,
      notices := x.notices.map fun n : Notice => { n with queued := false } }).bindPage vf page ctx
    ((x.notices.filter Notice.toDeliver).foldl (fun (s : State) n => s.sendNotice [g] n) s, 0x01)

/-- `ADOPT`. -/
def execAdopt (vf page : Nat) (arg0 : BitVec 32) (s : State) : Host.Outcome State Fault Refusal :=
  .next <| s.command vf page 0x09 arg0 fun port s => s.asUnbound vf page port (s.onNamed arg0 fun ctx x => s.adoptCmd vf page port ctx x)

/-- `RESUME`: GUARDED again; the restore comes first if the context was evicted. -/
def execResume (vf page : Nat) (arg0 : BitVec 32) (s : State) : Host.Outcome State Fault Refusal :=
  .next <| s.command vf page 0x0A arg0 fun port s => s.asPrimary vf page port fun ctx x _ =>
    if x.state ≠ .suspended then (s, 0x02)
    else (s.setContext ctx { x with state := .guarded, reapFrom := none, restoring := x.restoring || x.evicted,
                                    asked := if x.evicting then x.asked ++ [true] else x.asked }, 0x01)

/-! ## CLAIM and REPLY (R347) -/

/-- A CLAIM or REPLY of a page without a live guardian role is discarded, and logged (R363). -/
def State.forGuardian (s : State) (vf page code : Nat) (arg0 : BitVec 32) (f : (port ctx : Nat) → Guardian → State → Done) : State :=
  match s.isReady && decide (page < 4), s.vfPort vf with
  | true, some port => match s.caller vf page with
    | none => s.violate port (s.pageAt vf page).bound (pageOffset page 0x1000)
    | some (ctx, g) => s.command vf page code arg0 fun port s => f port ctx g s
  | _, _ => s

/-- A notice of the context by its number. -/
inductive Named
  | never
  | needsNone
  | is (n : Notice)
  deriving DecidableEq, Repr

/-- What a SEQ names: never issued, a notice that needs no reply, or one that takes a reply, answered or not (R337, R347). -/
def Context.noticeNamed (x : Context) (seq : Nat) : Named :=
  if seq = 0 ∨ x.nextNotice ≤ seq then .never
  else match x.notices.find? fun n => decide (n.seq = seq) && (decide (n.type = 1) || decide (n.type = 2) || decide (n.type = 4)) with
    | some n => .is n
    | none => .needsNone

/-- A notice of a context changed. -/
def State.alterNotice (s : State) (ctx seq : Nat) (f : Notice → Notice) : State :=
  { s with contexts := s.contexts.alter ctx fun x : Context =>
    { x with notices := x.notices.map fun n : Notice => if n.seq = seq then f n else n } }

/-- `CLAIM`: the first one performed wins. -/
def execClaim (vf page : Nat) (arg0 : BitVec 32) (s : State) : Host.Outcome State Fault Refusal :=
  .next <| s.forGuardian vf page 0x0B arg0 fun _ ctx g s =>
    match (s.contextAt ctx).noticeNamed arg0.toNat with
    | .never => (s, 0x07)
    | .needsNone => (s, 0x01)
    | .is n => if n.claimant.isSome then (s, 0x06) else (s.alterNotice ctx n.seq fun n => { n with claimant := some g.port }, 0x01)

/-- A group whose fault has been serviced goes on (R294): the lanes of the fault replay, or the word issues again, in its turn (R161).
Results of earlier words that are still outstanding are not waited for, as R50 has a trap wait: the manual says nothing of it for
this park (log 85). -/
def Group.serviced (g : Group) : Group :=
  let g := { g with wait := .none, holding := false, replay := if g.laneTrap then some (g.tplane.toNat, g.tlane) else none }
  if g.doneP = 0 then { g with occ := none } else g

/-- What a reply does (R274, R294, R321): a group or channel that no longer waits for it is left alone. -/
def State.answer (s : State) (n : Notice) (v : Scalar) : State :=
  let s := match n.channel with
    | some ch =>
      let k := s.channelAt ch
      if k.stalled = some n.seq then s.setChannel ch { k with stalled := none } else s
    | none => s
  match n.gid with
  | none => s
  | some gid => match s.groupAt gid with
    | none => s
    | some g =>
      if g.wait = .guardian n.seq then s.setGroup gid g.serviced
      else if g.wait = .svc n.seq then s.setGroup gid { g.writeNow 16 v with wait := .over }
      else s

/-- `REPLY`: by the primary in GUARDED, by the claimant in SHARED; the value is in ARGS bytes 0 to 7. -/
def execReply (vf page : Nat) (arg0 : BitVec 32) (s : State) : Host.Outcome State Fault Refusal :=
  .next <| s.forGuardian vf page 0x0C arg0 fun port ctx g s =>
    let x := s.contextAt ctx
    match x.noticeNamed arg0.toNat with
    | .never => (s, 0x07)
    | .needsNone => (s, 0x01)
    | .is n =>
      if x.state = .shared ∧ n.claimant ≠ some g.port then s.notPermitted port vf page
      else if n.answered then (s, 0x01)
      else
        let s := s.alterNotice ctx n.seq fun n => { n with answered := true }
        (s.answer n (BitVec.ofNat 64 (fromBytes ((s.pageAt vf page).argBytes 0 8))), 0x01)

/-! ## EVICT, RESTORE, RELEASE (R304, R327, R354) -/

/-- `EVICT`: it waits while an eviction or restore is in progress (R327); an evicted context stays so. -/
def execEvict (vf page : Nat) (arg0 : BitVec 32) (s : State) : Host.Outcome State Fault Refusal :=
  .next <| s.command vf page 0x0D arg0 fun port s => s.asPrimary vf page port fun ctx x _ =>
    (if x.evicting || x.restoring then s.setContext ctx { x with asked := x.asked ++ [false] }
      else if x.evicted then s
      else s.startEviction ctx, 0x01)

/-- `RESTORE`: it waits while an eviction or restore is in progress (R327); of a context that is not evicted it has no effect. -/
def execRestore (vf page : Nat) (arg0 : BitVec 32) (s : State) : Host.Outcome State Fault Refusal :=
  .next <| s.command vf page 0x0E arg0 fun port s => s.asPrimary vf page port fun ctx x _ =>
    (if x.evicting || x.restoring then s.setContext ctx { x with asked := x.asked ++ [true] }
      else if x.evicted then s.setContext ctx { x with restoring := true }
      else s, 0x01)

/-- `RELEASE`. -/
def execRelease (vf page : Nat) (arg0 : BitVec 32) (s : State) : Host.Outcome State Fault Refusal :=
  .next <| s.command vf page 0x0F arg0 fun port s => s.asPrimary vf page port fun ctx _ _ => (s.destroy ctx, 0x01)

end Sys2Proof.Machine
end

