-- ==== Sys2Proof/Machine/GladeCmd.lean ====
section
/-! DEFINITION. Glades made, set and unmade by PF commands (R329 to R331, R338), the start commands (R369 to R373), range
invalidations (R319) and scrubbing (R359). -/

namespace Sys2Proof.Machine

/-! ## The command register of a PF (R335, R337, R374) -/

/-- A command written to a PF's CMD with GO set.  While the package is not READY only START is looked at; every other
command is refused with 0x02 (R374). -/
def State.pfCommand (s : State) (port code : Nat) (arg0 : BitVec 32) (f : State → Done) : State :=
  if !s.boot.powered || decide (4 ≤ port) then s
  else
    let (t, status) := if s.isReady || decide (code = 0x13) then f s else (s, 0x02)
    t.setPort port { t.portAt port with arg0 := arg0, code := BitVec.ofNat 8 code, status := BitVec.ofNat 8 status }

/-- A PF command that the caller may not issue (R337, R363). -/
def State.pfRefused (s : State) (port : Nat) : Done := (s.violate port none 0x1000, 0x03)

/-- A command on a glade that only its administrator's PF may issue: ARG0[7:0] names the glade. -/
def State.asAdmin (s : State) (port : Nat) (arg0 : BitVec 32) (f : (glade : Nat) → Glade → Done) : Done :=
  match s.gladeNamed (arg0.toNat % 256) with
  | none => (s, 0x02)
  | some k =>
    let g := s.gladeAt k
    if g.admin = port then f k g else s.pfRefused port

/-! ## GCREATE and GDESTROY (R329, R330) -/

/-- The slices of a glade, for a length code (R329). -/
def lengthOf (code : Nat) : Nat :=
  match code with
  | 0 => 1
  | 1 => 3
  | 2 => 6
  | _ => 12

/-- The id byte of a glade (R329). -/
def Glade.id (g : Glade) (first : Nat) : Nat :=
  (if g.len = 1 then 0 else if g.len = 3 then 1 else if g.len = 6 then 2 else 3) * 16 + first

/-- The id byte names a legal glade (R329). -/
def legalGlade (id : Nat) : Bool :=
  decide (id / 16 < 4) && decide (id % 16 < 12) && decide (id % 16 % lengthOf (id / 16) = 0)

/-- A glade as GCREATE makes it (R205, R338). -/
def Glade.initial (len admin key : Nat) : Glade :=
  { len := len, admin := admin, engines := 0, ports := 0, shareB := 48, slicems := 10, links := [], errsev := [], exports := [],
    errlog := [], loghead := 0, key := key, turn := none, turnFrom := 0 }

/-- GCREATE: the slices of the glade must be free. -/
def State.gcreateCmd (s : State) (port : Nat) (arg0 : BitVec 32) : Done :=
  let id := arg0.toNat % 256
  let first := id % 16
  let len := lengthOf (id / 16)
  if !legalGlade id then (s, 0x07)
  else if s.glades.any fun e => decide (e.1 < first + len) && decide (first < e.1 + e.2.len) then (s, 0x02)
  else
    let fresh (k : Nat) : Bool := decide (first ≤ coreSlice k) && decide (coreSlice k < first + len)
    let s := { s with cores := s.cores.map (fun e : Nat × Core => if fresh e.1 then (e.1, { e.2 with step := 40 }) else e) }
    (s.draw.setGlade first (.initial len port (s.draws + 1)), 0x01)

/-- `GCREATE`. -/
def execGcreate (port : Nat) (arg0 : BitVec 32) (s : State) : Host.Outcome State Fault Refusal :=
  .next <| s.pfCommand port 0x10 arg0 fun s => s.gcreateCmd port arg0

/-- GDESTROY: of a glade without contexts; its memory is zeroed before its slices are free. -/
def State.gdestroyCmd (s : State) (k : Nat) (g : Glade) : Done :=
  if s.contextsOf k ≠ [] then (s, 0x02)
  else
    let s := { s with channels := s.channels.map (fun e : Nat × Channel => if g.engines.getLsbD (e.1 / 16) then (e.1, .reset) else e) }
    let s := s.wipeGlade k g.key
    ({ s with glades := s.glades.drop k }, 0x01)

/-- `GDESTROY`. -/
def execGdestroy (port : Nat) (arg0 : BitVec 32) (s : State) : Host.Outcome State Fault Refusal :=
  .next <| s.pfCommand port 0x11 arg0 fun s => s.asAdmin port arg0 fun k g => s.gdestroyCmd k g

/-! ## GSET (R331, R338) -/

/-- The settings that a GSET carries. -/
structure GladeArgs where
  engines : BitVec 32
  ports : Nat
  shareB : Nat
  slicems : Nat
  links : Table (BitVec 64)
  errsev : List Nat
  exports : Table Window
  deriving DecidableEq, Repr

/-- ARGS as GSET reads them. -/
def gladeArgs (b : List Byte) : GladeArgs :=
  { engines := BitVec.ofNat 32 (fieldOf b 0 4), ports := fieldOf b 4 1, shareB := fieldOf b 5 1, slicems := fieldOf b 6 2,
    links := (List.range 24).map fun k => (k, BitVec.ofNat 64 (fieldOf b (8 + 8 * k) 8)),
    errsev := (List.range 128).map fun k => fieldOf b (0xC8 + k) 1,
    exports := (List.range 12).map fun l =>
      (l, { lbase := fieldOf b (0x148 + 24 * l) 8, pbase := fieldOf b (0x150 + 24 * l) 8, size := fieldOf b (0x158 + 24 * l) 8 }) }

/-- Two export windows overlap in link address. -/
def Window.meets (a b : Window) : Bool :=
  decide (a.size ≠ 0) && decide (b.size ≠ 0) && decide (a.lbase < b.lbase + b.size) && decide (b.lbase < a.lbase + a.size)

/-- An engine of the set lies on a die that the glade does not span, or belongs to another glade (R331). -/
def State.enginesClash (s : State) (k : Nat) (g : Glade) (engines : BitVec 32) : Bool :=
  ((List.range 32).any fun e => engines.getLsbD e && !(decide (k / 3 ≤ e / 8) && decide (e / 8 ≤ (k + g.len - 1) / 3))) ||
  s.glades.any fun o => decide (o.1 ≠ k) && decide (o.2.engines &&& engines ≠ 0)

/-- An export window that reaches beyond the glade's memory, or meets one of another glade on its link (R338). -/
def State.exportClash (s : State) (k : Nat) (g : Glade) (l : Nat) (w : Window) : Bool :=
  decide (w.lbase % 65536 ≠ 0) || decide (w.pbase % 65536 ≠ 0) || decide (w.size % 65536 ≠ 0) ||
  (decide (w.size ≠ 0) && (decide (gladeBytes g.len < w.pbase + w.size) ||
    s.glades.any fun o => decide (o.1 ≠ k) && (o.2.exports.at? l).any fun v : Window => w.meets v))

/-- GSET fails its check. -/
def State.gsetBad (s : State) (k : Nat) (g : Glade) (a : GladeArgs) : Bool :=
  s.enginesClash k g a.engines || decide (16 ≤ a.ports) || decide (48 < a.shareB) || decide (a.slicems = 0) || decide (1000 < a.slicems) ||
  (decide (a.shareB ≠ g.shareB) && decide (s.contextsOf k ≠ [])) || a.errsev.any (fun b => decide (4 < b)) ||
  (a.links.any fun e => s.glades.any fun o => decide (o.1 ≠ k) && decide ((o.2.links.at? e.1).getD 0 &&& e.2 ≠ 0)) ||
  a.exports.any fun e => s.exportClash k g e.1 e.2

/-- ERRSEV as a glade keeps it: the bytes that differ from their defaults (R311). -/
def errsevTable (l : List Nat) : Table Nat := (l.zipIdx.filter fun (b, k) => decide (b ≠ defaultAction (k / 8))).map fun (b, k) => (k, b)

/-- GSET: all of it, or none. -/
def State.gsetCmd (s : State) (k : Nat) (g : Glade) (a : GladeArgs) : Done :=
  if s.gsetBad k g a then (s, 0x07)
  else (s.setGlade k { g with engines := a.engines, ports := BitVec.ofNat 4 a.ports, shareB := a.shareB, slicems := a.slicems, links := a.links,
                              errsev := errsevTable a.errsev, exports := a.exports }, 0x01)

/-- `GSET`. -/
def execGset (port : Nat) (arg0 : BitVec 32) (s : State) : Host.Outcome State Fault Refusal :=
  .next <| s.pfCommand port 0x12 arg0 fun s => s.asAdmin port arg0 fun k g =>
    s.gsetCmd k g (gladeArgs ((s.portAt port).args.readN 0 0x268))

/-! ## Starting (R369 to R373) -/

/-- What a start leaves of the package at its first steps (R369, R370): every context and glade has ended, nothing is in
flight, nothing is cached, what the homes alone held of host memory is lost, and the keys are gone.  Memory, the ports' VF counts and certificate slots, and what is on
the links' other side stay. -/
def State.emptied (s : State) : State :=
  let s := s.dropLines
  let t : State := { s with groups := [], groves := [], launches := [], graphs := [], loads := [], entries := [], locals := [], atoms := [] }
  let t : State := { t with contribs := [], cores := [], slices := [], channels := [], contexts := [], ctxKeys := [], glades := [], vfs := [] }
  let t : State := { t with vaultLast := [], pages := [], cur := none, epoch := 0 }
  let t : State := { t with slotWrites := [], flights := [], prefetches := [], asks := [], conflicts := [], cuts := [], doneTime := 0 }
  { t with
    ports := t.ports.mapVals (fun p : Port => { Port.reset with vfs := p.vfs, slotGen := p.slotGen, slotCert := p.slotCert }),
    links := t.links.mapVals (fun l : Link => { Link.reset with up := l.up, replays := l.replays }) }

/-- Memory that a warm start scrubs (R370, step 5): what protected contexts map with BACK 0, and their vaults; no key is held
after it. -/
def State.scrubProtected (s : State) : State :=
  s.contexts.foldl (fun (t : State) e =>
    if e.2.isProtected then
      (t.zeroDram (s.zeroingOf e.1 0)).zeroVaults fun d v => s.vaultAllotted e.1 d v
    else t) s

/-- A start begins (R370, R371): without trained parameters it is a cold one. -/
def State.beginStart (s : State) (cold : Bool) : State :=
  let s := s.scrubProtected.emptied
  { s with boot := { s.boot with state := .starting, cold := cold || !s.boot.trained, lowered := 0, throttleAt := none, hotAt := none } }

/-- A start requested (R372 to R374): the status it is answered with. -/
def State.requestStart (s : State) (cold : Bool) : Done :=
  match s.boot.state with
  | .starting => (s, 0x02)
  | .recovery => if cold then (s.beginStart true, 0x01) else (s, 0x02)
  | .off | .ready => (s.beginStart cold, 0x01)

/-- START, its ARG0 as written (R369). -/
def State.startCmd (s : State) (arg0 : BitVec 32) : Done :=
  if 2 ≤ arg0.toNat then (s, 0x07) else s.requestStart (arg0.getLsbD 0)

/-- `START` of the cold kind. -/
def execStartCold (port : Nat) (arg0 : BitVec 32) (s : State) : Host.Outcome State Fault Refusal :=
  .next <| s.pfCommand port 0x13 (arg0 ||| 1) fun s => s.startCmd (arg0 ||| 1)

/-- `START` of the warm kind. -/
def execStartWarm (port : Nat) (arg0 : BitVec 32) (s : State) : Host.Outcome State Fault Refusal :=
  let a := arg0 &&& 0xFFFFFFFE
  .next <| s.pfCommand port 0x13 a fun s => s.startCmd a

/-- `SIDEBAND_START_REQUEST` (R369, R374). -/
def execSidebandStartRequest (cold : Bool) (s : State) : Host.Outcome State Fault Refusal :=
  .next <| if s.boot.powered then (s.requestStart cold).1 else s

/-- The image in the mailbox verifies (R370, step 2). -/
def State.imageGood (s : State) : Bool :=
  let (image, signature) := Config.imageParts s.boot.mailbox
  Config.mldsaVerify Config.firmwareKey (toBytes (Config.sha3 image).toNat 32) signature

/-- The step at which a core's clock runs: that of R165, lowered by throttling, down to 32 (R376). -/
def State.stepOf (s : State) (c : Core) : Nat := max 32 (c.step - s.boot.lowered)

/-- Every core is at the lowest step. -/
def State.atLowest (s : State) : Bool := (List.range 288).all fun k => decide (s.stepOf (s.coreAt k) ≤ 32)

/-- Since when module power, part 12, has been above its limit with every core at step 32 (R376). -/
def State.hotSince (s : State) : Option Nat :=
  if s.boot.overs.contains 12 ∧ s.atLowest then some (s.boot.hotAt.getD s.time) else none

/-- Every core one step lower. -/
def State.lowerSteps (s : State) : State :=
  { s with boot := { s.boot with lowered := min 16 (s.boot.lowered + 1), throttleAt := some s.time } }

/-- The time of power above its limit at step 32 kept or begun. -/
def State.noteHot (s : State) : State := { s with boot := { s.boot with hotAt := s.hotSince } }

/-- A start fails at a step (R373): scrubbing comes after the channels have been trained. -/
def State.startFails (s : State) (step : Nat) : State :=
  let fails := s.boot.fails + 1
  { s with boot := { s.boot with fails := min 3 fails, lastfail := step, state := if fails < 3 then .off else .recovery,
                                 trained := decide (step = 5) || (s.boot.trained && decide (step ≠ 4)) } }

/-- The key of a sector in `State.poison` is one of host memory. -/
def hostSector (k : Nat) : Bool := decide (2 ^ 64 ≤ k) && decide (k < 2 ^ 64 * 5)

/-- A start completes (R370): a cold one has zeroed DRAM and canopy, which stand good, and trained the channels. -/
def State.startCompletes (s : State) : State :=
  let s : State := if s.boot.cold then
      { s with dram := [], keys := [], zeroed := [], vaultMem := [], poison := s.poison.filter fun e => hostSector e.1 }
    else s
  let s := { s with time := 0, boot := { s.boot with state := .ready, fails := 0, trained := true } }
  if s.boot.overs = [] then s else s.lowerSteps.noteHot

/-- `START_COMPLETION` (R370, R373): the image decides step 2; what training and scrubbing come to is the event's. -/
def execStartCompletion (ok : Bool) (cause : Nat) (s : State) : Host.Outcome State Fault Refusal :=
  .next <|
    if s.boot.state ≠ .starting then s
    else if !s.imageGood then s.startFails 2
    else if ok then s.startCompletes
    else s.startFails (if cause = 4 ∧ s.boot.cold then 4 else 5)

/-! ## Range invalidation (R319) -/

/-- An access, entry or copy of the context is under way, translated already. -/
def State.translatedWork (s : State) (ctx : Nat) : Bool :=
  (s.loads.any fun x => decide (s.ctxOf x.gid = ctx)) || (s.entries.any fun e => decide (e.ctx = ctx)) ||
  (s.atoms.any fun a => decide (a.ctx = ctx)) || (s.slotWrites.any fun w => decide (w.ctx = ctx)) ||
  (s.prefetches.any fun x => decide (x.ctx = ctx)) || (s.flights.any fun f => decide (f.ctx = ctx)) ||
  s.channels.any fun e => (e.2.owner.any fun o : Nat × Nat => o.1 == ctx) && e.2.flight.isSome

/-- `RANGE_INVALIDATION`: every core drops its translations that meet the range, once the accesses translated before are
performed. -/
def execRangeInvalidation (ctx base size : Nat) (s : State) : Host.Outcome State Fault Refusal :=
  .next <| if s.translatedWork ctx then s
    else s.dropXlates fun t => decide (t.ctx = ctx) && decide (t.base < base + size) && decide (base < t.base + t.size)

/-! ## Scrubbing (R311, R359) -/

/-- `SCRUBBING` of the line at byte `off` of a slice: outcome 0 finds no error, 1 a corrected one (class 0), 2 an
uncorrectable one (class 2).  The line is rewritten under the glade's key, unless its home tracks it and so holds it on
chip. -/
def execScrubbing (slice off outcome : Nat) (s : State) : Host.Outcome State Fault Refusal :=
  .next <| match s.gladeOfSlice slice with
  | none => s
  | some k =>
    let o := off % sliceBytes / 128 * 128
    let place := Place.dram slice o
    let onChip := (place.lineKey.bind fun key => s.lines.at? key).isSome
    let s := if onChip then s else s.rekey (s.gladeAt k).key slice o
    let addr : Scalar := BitVec.ofNat 64 (physOf k (s.gladeAt k).len (s.gladeAt k).shareB slice o)
    if outcome = 1 then s.report k 0 3 addr
    else if outcome = 2 then (s.setPoison place).report k 2 3 addr
    else s

end Sys2Proof.Machine
end

