-- ==== Sys2Proof/Machine/HostPort.lean ====
section
/-! DEFINITION. What hosts do at their ports: CXL.mem accesses to device memory (R239 to R241, R363), back-invalidations and
snoops (R239, R240, R242), register reads and writes (R334 to R336, R363, R364, R367, R374), and the VF counts (R332). -/

namespace Sys2Proof.Machine

/-- The port's answer to its host. -/
def State.answerHost (s : State) (port : Nat) (a : Answer) : State := s.setPort port { s.portAt port with answer := a }

/-! ## Device memory by its physical address (R241, R363) -/

/-- Two ranges of addresses meet. -/
def rangesMeet (a n b m : Nat) : Bool := decide (a < b + m) && decide (b < a + n)

/-- The physical range holds memory of the context: a frame that its tables map with BACK 0, or a table. -/
def State.holdsMemory (s : State) (ctx pa n : Nat) : Bool :=
  let root := (s.contextAt ctx).cfg.root
  let (frames, tables) := if root = 0 then ([], []) else s.framesFrom ctx 4 0 root
  (frames ++ tables).any fun f => rangesMeet f.1 f.2 pa n

/-- Contexts bound to a page of the VF. -/
def State.boundTo (s : State) (vf : Nat) : List Nat := (List.range 4).filterMap fun p => (s.pageAt vf p).bound

/-- The context whose memory a VF's page reaches at a range of physical addresses, or what the request is refused as: the
context to name in the log, if any (R363). -/
def State.hdmContext (s : State) (vf page pa n : Nat) : Except (Option Nat) Nat :=
  match (s.pageAt vf page).bound with
  | none => .error none
  | some ctx =>
    let glade := (s.contextAt ctx).glade
    let own := s.boundTo vf
    let foreign := (s.contextsOf glade).filter fun c => !own.contains c
    if (s.vfAt vf).tdisp = .error ∨ (s.caller vf page).isNone ∨ gladeBytes (s.gladeAt glade).len < pa + n then .error (some ctx)
    else if (foreign.any fun c => s.holdsMemory c pa n) && !(own.any fun c => s.holdsMemory c pa n) then .error (some ctx)
    else .ok ctx

/-- Pieces of a physical range that lie in one line each: address, position, length. -/
def linesOfRange (pa n : Nat) : List (Nat × Nat × Nat) :=
  (List.range ((pa + n + 127) / 128 - pa / 128)).map fun k =>
    let a := max pa ((pa / 128 + k) * 128)
    (a, a - pa, min (pa + n) ((pa / 128 + k + 1) * 128) - a)

/-- A host's own request for a line has been performed: a back-invalidation that met it may be asked again, and a prefetch that
waited behind it asks (R240, R209). -/
def State.performedFirst (s : State) (port : Nat) (p : Place) : State :=
  ({ s with conflicts := s.conflicts.filter fun e => !(decide (e.1 = port) && decide (some e.2 = p.lineKey)) } : State).retryPrefetches

/-- A host write performed at its homes, each line at L + 1 (R241). -/
def State.hdmWrite (s : State) (port ctx pa : Nat) (data : List Byte) : State :=
  (linesOfRange pa data.length).foldl (fun (s : State) (a, o, n) =>
    let p := s.dramPlace (s.contextAt ctx).glade a
    let at_ := p.offset - p.line.offset
    (s.storeLine ctx p.line (((data.drop o).take n).zipIdx.map fun (b, i) => (at_ + i, b)) 0).1.performedFirst port p) s

/-- The bytes of a physical range as they stand at their homes, under the context's key; the lines' places. -/
def State.hdmRead (s : State) (ctx pa n : Nat) : List Byte × List (Nat × Place) :=
  let pieces := (linesOfRange pa n).map fun (a, _, m) => (a, m, s.dramPlace (s.contextAt ctx).glade a)
  ((pieces.map fun (_, m, p) => s.bytesAt (s.keyOf ctx) p m).flatten, pieces.map fun (a, _, p) => (a / 128 * 128, p.line))

/-- `HOST_WRITE` (R241). -/
def execHostWrite (fn : HostFn) (addr : Nat) (data : List Byte) (s : State) : Host.Outcome State Fault Refusal :=
  .next <| match fn with
  | .pf port => if s.isReady then s.violate port none addr else s.answerHost port .error
  | .vf vf page _ => match s.vfPort vf with
    | none => s
    | some port =>
      if !s.isReady then s.answerHost port .error
      else match s.hdmContext vf page addr data.length with
        | .error bound => s.violate port bound addr
        | .ok ctx => (s.hdmWrite port ctx addr data).answerHost port .done

/-- The presence bit of a port set on a line (R239): the host may write its copy until it is asked for its data. -/
def State.setPresent (s : State) (p : Place) (port : Nat) : State :=
  let x := s.lineOf p
  let bit := BitVec.ofNat 4 (2 ^ port)
  s.setLine p { x with present := x.present ||| bit, shared := x.shared &&& ~~~bit }

/-- `HOST_READ` (R241): a line with a poisoned byte is returned as poisoned, and logged as class 2 with its address and the source
where its data lay: the L3, or DRAM. -/
def execHostRead (fn : HostFn) (addr len : Nat) (cached : Bool) (s : State) : Host.Outcome State Fault Refusal :=
  .next <| match fn with
  | .pf port => if s.isReady then (s.violate port none addr).answerHost port .abort else s.answerHost port .error
  | .vf vf page _ => match s.vfPort vf with
    | none => s
    | some port =>
      if !s.isReady then s.answerHost port .error
      else match s.hdmContext vf page addr len with
        | .error bound => (s.violate port bound addr).answerHost port .abort
        | .ok ctx =>
          let (bytes, lines) := s.hdmRead ctx addr len
          let bad := (lines.filter fun e => s.isPoisoned e.2 128).map fun e => (e.1, s.sourceOf e.2)
          let s := if cached then lines.foldl (fun (s : State) e => s.setPresent e.2 port) s else s
          let s := lines.foldl (fun (s : State) e => s.performedFirst port e.2) s
          let s := s.answerHost port (.data bytes (decide (bad ≠ [])))
          bad.foldl (fun (s : State) e => s.error 2 e.2 ctx (BitVec.ofNat 64 e.1) 0) s

/-! ## Back-invalidations (R239, R240) -/

/-- The place of the device line of a number. -/
def linePlace (line : Nat) : Place := .dram (line * 128 / sliceBytes) (line * 128 % sliceBytes)

/-- A port's presence bit of a device line. -/
def State.isPresent (s : State) (port line : Nat) : Bool := (s.lines.at? line).any fun x : Line => x.present.getLsbD port

/-- The presence bit of a port cleared. -/
def State.clearPresent (s : State) (port line : Nat) : State :=
  let bit := BitVec.ofNat 4 (2 ^ port)
  { s with lines := s.lines.alter line fun x : Line => { x with present := x.present &&& ~~~bit, shared := x.shared &&& ~~~bit } }

/-- The host keeps a shared copy, which the home may read past: its presence bit stays set (R239). -/
def State.keepShared (s : State) (port line : Nat) : State :=
  { s with lines := s.lines.alter line fun x : Line => { x with shared := x.shared ||| (x.present &&& BitVec.ofNat 4 (2 ^ port)) } }

/-- A back-invalidation that the home has asked the port's host for and not been answered. -/
def State.invalidating (s : State) (port line : Nat) (own : Bool) : Bool :=
  s.asks.contains { ctx := noTag, port := port, line := linePlace line, own := own }

/-- The back-invalidations of a line that a host has been asked for are no longer asked for. -/
def State.unask (s : State) (port line : Nat) : State :=
  { s with asks := s.asks.filter fun a => !(decide (a.port = port) && decide (a.line = linePlace line)) }

/-- Dirty data that a host returns for a line: a host write at L + 1, under the key the line carries (R239, R241). -/
def State.returnDirty (s : State) (line : Nat) (data : List Byte) : State :=
  let p := linePlace line
  let key := s.writtenKey (line * 128 / sliceBytes) (line * 128 % sliceBytes)
  let x := s.lineOf p
  (s.setLine p { x with w := x.l + 1, l := x.l + 1, dirty := true }).putBytes key p (data.take 128)

/-- `BIRSP` (R239): the answer to a back-invalidation that the home has asked for.  The data comes first, if the host held the
line dirty; after a BISnpInv the presence bit is clear, after a BISnpData the host keeps a shared copy. -/
def execBirsp (port line : Nat) (data : Option (List Byte)) (s : State) : Host.Outcome State Fault Refusal :=
  .next <|
    let own := s.invalidating port line true
    if !s.isReady || (!own && !s.invalidating port line false) then s
    else
      let s := match data with
        | some d => if s.isPresent port line then s.returnDirty line d else s
        | none => s
      ((if own then s.clearPresent port line else s.keepShared port line).unask port line).retryPrefetches

/-- `BICONFLICT` (R240): a back-invalidation has met the host's own request for the line, which is performed first; the
back-invalidation is asked again after it. -/
def execBiconflict (port line : Nat) (s : State) : Host.Outcome State Fault Refusal :=
  .next <|
    if s.isReady && (s.invalidating port line true || s.invalidating port line false) then
      { s.unask port line with conflicts := (port, line) :: s.conflicts.filter (· ≠ (port, line)) }
    else s

/-- `HOST_EVICTION_REPORT` (R239). -/
def execHostEvictionReport (port line : Nat) (s : State) : Host.Outcome State Fault Refusal :=
  .next <|
    if s.isReady && s.isPresent port line then (s.clearPresent port line).performedFirst port (linePlace line) else s

/-! ## Snoops of host-backed lines (R242) -/

/-- The line of a host's memory as it stands at each home that tracks it. -/
def State.trackedAt (s : State) (port addr : Nat) : List Place :=
  ((List.range 12).map fun h => Place.host port h (addr / 128 * 128)).filter fun p => (p.lineKey.bind fun k => s.lines.at? k).isSome

/-- The 128 bytes of a line of a host's memory. -/
def State.hostLine (s : State) (port addr : Nat) : List Byte := s.bytesAt 0 (.host port 0 (addr / 128 * 128)) 128

/-- The line's answer to a snoop: its data where a home's L3 holds it. -/
def State.answerSnoop (s : State) (port addr : Nat) (homes : List Place) : State :=
  s.answerHost port (if homes = [] then .done else .data (s.hostLine port addr) (s.isPoisoned (.host port 0 (addr / 128 * 128)) 128))

/-- The homes hold the line shared and clean (R242). -/
def State.shareLine (s : State) (homes : List Place) : State :=
  homes.foldl (fun (s : State) p => s.setLine p { s.lineOf p with owned := false, dirty := false }) s

/-- `SNPINV`: written back, no longer tracked, answered. -/
def execSnpinv (port addr : Nat) (s : State) : Host.Outcome State Fault Refusal :=
  .next <| if s.isReady then
      let homes := s.trackedAt port addr
      (homes.foldl State.untrack s).answerSnoop port addr (homes.filter s.onChip)
    else s

/-- `SNPDATA`: answered with the data; the homes keep tracking the line, shared and clean. -/
def execSnpdata (port addr : Nat) (s : State) : Host.Outcome State Fault Refusal :=
  .next <| if s.isReady then
      let homes := s.trackedAt port addr
      (s.shareLine homes).answerSnoop port addr (homes.filter s.onChip)
    else s

/-- `SNPCUR`: as `SNPDATA`. -/
def execSnpcur (port addr : Nat) (s : State) : Host.Outcome State Fault Refusal :=
  .next <| if s.isReady then
      let homes := s.trackedAt port addr
      (s.shareLine homes).answerSnoop port addr (homes.filter s.onChip)
    else s

/-- The request of a host's line that a home has made of its port, for whatever context. -/
def State.askedFor (s : State) (port : Nat) (p : Place) (own : Bool) : Option Ask :=
  s.asks.find? fun a => decide (a.port = port) && decide (a.line = p) && decide (a.own = own)

/-- A request that has been answered is made no more, nor one for the context to read a line that its home now owns. -/
def State.dropAsk (s : State) (a : Ask) : State :=
  { s with asks := s.asks.filter fun b => !(decide (b = a) || (a.own && decide (b = { a with own := false }))) }

/-- `CXL_CACHE_RESPONSE` (R242, R363): the answer to a home's RdShared or RdOwn.  The home then tracks the line, which its L3 holds for
the context that asked (R207); other homes that held it do so no more, or share it.  An answer that matches no request that a home
has made is dropped and logged. -/
def execCxlCacheResponse (port addr : Nat) (home : Option Nat) (owned : Bool) (s : State) : Host.Outcome State Fault Refusal :=
  .next <| if !s.isReady then s
    else match home with
      | none => s.violate port none addr
      | some h =>
        let p := Place.host port h (addr / 128 * 128)
        match s.askedFor port p owned with
        | none => s.violate port none addr
        | some a =>
          let others := (s.trackedAt port addr).filter fun q => decide (q ≠ p)
          let s := if owned then others.foldl State.untrack s else s.shareLine others
          ((((s.setLine p { s.lineOf p with owned := owned, dirty := false }).holdLine a.ctx p).dropAsk a).answerCuts a).retryPrefetches

/-- The host on a port writes its own memory, which no home holds. -/
def State.hostStore (s : State) (port addr : Nat) (data : List Byte) : State :=
  if (linesOfRange addr data.length).all fun e => decide (s.trackedAt port e.1 = []) then
    s.putBytes 0 (.host port 0 addr) data
  else s

/-! ## HBEAT and NTAIL (R342, R347) -/

/-- A register access of a VF that is admitted: its port.  One that is not is answered as R357, R363 and R374 say. -/
def State.admitted (s : State) (vf page off : Nat) (t : Bool) : Except State Nat :=
  match s.vfPort vf, s.isReady && decide (page < 4) with
  | some port, true =>
    let td := (s.vfAt vf).tdisp
    let bound := (s.pageAt vf page).bound
    if td = .error ∨ (td = .run ∧ !t) ∨ (bound.isSome ∧ (s.caller vf page).isNone) then
      .error ((s.violate port bound (pageOffset page off)).answerHost port .abort)
    else .ok port
  | some port, false => .error (s.answerHost port (.data [] false))
  | none, _ => .error s

/-- A write of a VF that is not admitted: discarded, with no answer. -/
def State.discardedWrite (s t : State) (vf : Nat) : State :=
  match s.vfPort vf with
  | some port => t.answerHost port (s.portAt port).answer
  | none => t

/-- A write to HBEAT of a page with a live role renews its lease; of an unbound page it is discarded and logged. -/
def State.heartbeat (s : State) (port vf page : Nat) : State :=
  match s.caller vf page with
  | some (ctx, _) => s.renewLease ctx vf page
  | none => s.violate port (s.pageAt vf page).bound (pageOffset page 0x1008)

/-- `HBEAT` (R342). -/
def execHbeat (vf page : Nat) (s : State) : Host.Outcome State Fault Refusal :=
  .next <| match s.admitted vf page 0x1008 true with
  | .error t => s.discardedWrite t vf
  | .ok port => s.heartbeat port vf page

/-- NTAIL written: entries that wait are written while the ring has room. -/
def State.writeNtail (s : State) (vf page : Nat) (value : BitVec 32) : State :=
  let p := { s.pageAt vf page with ntail := value }
  s.setPage vf page (p.flush p.waiting.length)

/-- `NTAIL` (R347). -/
def execNtail (vf page : Nat) (value : BitVec 32) (s : State) : Host.Outcome State Fault Refusal :=
  .next <| match s.admitted vf page 0x1044 true with
  | .error t => s.discardedWrite t vf
  | .ok _ => s.writeNtail vf page value

/-! ## Registers of a context page (R334, R336, R363, R367) -/

/-- The state that an outcome leaves. -/
def leaves (s : State) (o : Host.Outcome State Fault Refusal) : State :=
  match o with
  | .next t => t
  | .fault _ | .refused _ => s

/-- A command of a page by its code (R337). -/
def State.pageCommand (s : State) (vf page code : Nat) (arg0 : BitVec 32) : State :=
  match code with
  | 0x01 => leaves s (execBind vf page arg0 s)
  | 0x02 => leaves s (execSet vf page arg0 s)
  | 0x03 => leaves s (execAssignch vf page arg0 s)
  | 0x04 => leaves s (execSetsucc vf page arg0 s)
  | 0x05 => leaves s (execShare vf page arg0 s)
  | 0x06 => leaves s (execJoin vf page arg0 s)
  | 0x07 => leaves s (execUnshare vf page arg0 s)
  | 0x08 => leaves s (execTransfer vf page arg0 s)
  | 0x09 => leaves s (execAdopt vf page arg0 s)
  | 0x0A => leaves s (execResume vf page arg0 s)
  | 0x0B => leaves s (execClaim vf page arg0 s)
  | 0x0C => leaves s (execReply vf page arg0 s)
  | 0x0D => leaves s (execEvict vf page arg0 s)
  | 0x0E => leaves s (execRestore vf page arg0 s)
  | 0x0F => leaves s (execRelease vf page arg0 s)
  | _ => s.command vf page code arg0 fun port s => s.notPermitted port vf page

/-- CMD as it reads (R336): GO has been cleared with every command. -/
def cmdWord (arg0 : BitVec 32) (status code : BitVec 8) : Nat := arg0.toNat * 2 ^ 32 + status.toNat * 2 ^ 16 + code.toNat

/-- The bytes of a register of `n` bytes at offset `o` with those written at `off` in place. -/
def mergeBytes (old n o off : Nat) (data : List Byte) : Nat := fromBytes (overlay (toBytes old n) (off - o) data)

/-- CMD written: with GO, the command; else ARG0 and CODE alone. -/
def State.writePageCmd (s : State) (vf page off : Nat) (data : List Byte) : State :=
  let p := s.pageAt vf page
  let v := mergeBytes (cmdWord p.arg0 p.status p.code) 8 0x1000 off data
  let arg0 := BitVec.ofNat 32 (v / 2 ^ 32)
  if v / 2 ^ 8 % 2 = 1 then s.pageCommand vf page (v % 256) arg0
  else s.setPage vf page { p with arg0 := arg0, code := BitVec.ofNat 8 v }

/-- The launch window written through a page (R148, R149): a slot whose byte 127 is left with VALID set waits for its snapshot, slots in
ascending order.  A slot that waits already gives one submission, with the bytes of its last write (log 86). -/
def State.writeWindow (s : State) (vf page ctx off : Nat) (data : List Byte) : State :=
  let x := s.contextAt ctx
  let w := x.window.writeN off data
  let touched := (List.range 32).filter fun k => decide (off ≤ 128 * k + 127) && decide (128 * k + 127 < off + data.length) &&
    (w.read (128 * k + 127)).getLsbD 7 && !x.submits.contains k
  s.setContext ctx { x with window := w, submits := x.submits ++ touched, writer := some (vf, page) }

/-- The access lies in the register of `n` bytes at offset `o`. -/
def inside (off len o n : Nat) : Bool := decide (o ≤ off) && decide (off + len ≤ o + n)

/-- A write to a register of a context page. -/
def State.writePage (s : State) (port vf page off : Nat) (data : List Byte) : State :=
  let p := s.pageAt vf page
  let n := data.length
  let refuse := s.violate port p.bound (pageOffset page off)
  if inside off n 0 0x1000 then (match s.caller vf page with
    | some (ctx, _) => s.writeWindow vf page ctx off data
    | none => refuse)
  else if inside off n 0x1000 8 then s.writePageCmd vf page off data
  else if inside off n 0x1008 8 then s.heartbeat port vf page
  else if inside off n 0x1044 4 then s.writeNtail vf page (BitVec.ofNat 32 (mergeBytes p.ntail.toNat 4 0x1044 off data))
  else if inside off n 0x1100 256 then s.setPage vf page { p with settings := p.settings.writeN (off - 0x1100) data }
  else if inside off n 0x4000 0x2000 then s.setPage vf page { p with args := p.args.writeN (off - 0x4000) data }
  else refuse

/-- The context that an unbound page names, if it may be shown (R367). -/
def State.shown (s : State) (port : Nat) (p : CtxPage) : Option (Nat × Context) :=
  let ctx := p.arg0.toNat % 1024
  match s.contexts.at? ctx with
  | none => none
  | some x =>
    if (x.state = .orphaned ∨ (x.state = .suspended ∧ x.guardians = [])) ∧ (s.gladeAt x.glade).ports.getLsbD port then some (ctx, x)
    else none

/-- GSTATE of a bound page (R336). -/
def Context.gstate (x : Context) (ctx : Nat) (role : Bool) : Nat :=
  x.adepoch.toNat % 2 ^ 32 * 2 ^ 32 + x.sevp.toNat * 2 ^ 26 + ctx * 2 ^ 16 + (if x.sevgb then 2 ^ 13 else 0) +
    (if role then 2 ^ 12 else 0) + x.comask.toNat * 2 ^ 8 + ((x.guardians.head?.map (·.port)).getD 0) * 2 ^ 4 + x.state.code

/-- GSTATE, NONCE and ADEPOCH as a page shows them. -/
def State.pageGstate (s : State) (port vf page : Nat) : Nat × Nat × Nat :=
  let p := s.pageAt vf page
  match p.bound with
  | some ctx =>
    let x := s.contextAt ctx
    (x.gstate ctx (x.guardianOn vf page).isSome, x.nonce.toNat, x.adepoch.toNat)
  | none => match s.shown port p with
    | some (ctx, x) => (x.adepoch.toNat % 2 ^ 32 * 2 ^ 32 + ctx * 2 ^ 16 + x.state.code, x.nonce.toNat, x.adepoch.toNat)
    | none => (0, 0, 0)

/-- The settings block as it reads: SEVER shows the severance in force (R336, R345). -/
def State.settingsBytes (s : State) (p : CtxPage) : List Byte :=
  let b := p.settings.readN 0 256
  match p.bound with
  | none => b
  | some ctx =>
    let x := s.contextAt ctx
    overlay b 0x7C (toBytes (x.sevp.toNat + if x.sevgb then 16 else 0) 1)

/-- The bytes that a read of registers gives, one by one: zero where nothing is listed; none when nothing is listed in all of its
range (R334, R335, log 56). -/
def readBytes (byte : Nat → Option Byte) (off len : Nat) : Option (List Byte) :=
  let l := (List.range len).map fun i => byte (off + i)
  if l.any Option.isSome then some (l.map fun b => b.getD 0) else none

/-- One byte of the registers of a context page; none where nothing is listed (R334). -/
def State.pageByte (s : State) (port vf page o : Nat) : Option Byte :=
  let p := s.pageAt vf page
  let g := s.pageGstate port vf page
  let number (base n v : Nat) : Option Byte := some ((toBytes v n).getD (o - base) 0)
  if o < 0x1000 then some (((p.bound.map fun c => (s.contextAt c).window).getD []).read o)
  else if inside o 1 0x1000 8 then number 0x1000 8 (cmdWord p.arg0 p.status p.code)
  else if inside o 1 0x1008 8 then some 0
  else if inside o 1 0x1010 8 then number 0x1010 8 g.1
  else if inside o 1 0x1018 8 then number 0x1018 8 s.time
  else if inside o 1 0x1020 32 then number 0x1020 32 g.2.1
  else if inside o 1 0x1040 4 then number 0x1040 4 p.nhead.toNat
  else if inside o 1 0x1044 4 then number 0x1044 4 p.ntail.toNat
  else if inside o 1 0x1048 8 then number 0x1048 8 g.2.2
  else if inside o 1 0x1100 256 then some ((s.settingsBytes p).getD (o - 0x1100) 0)
  else if inside o 1 0x2000 0x800 then some (((p.ring.at? ((o - 0x2000) / 128)).getD []).getD ((o - 0x2000) % 128) 0)
  else if inside o 1 0x4000 0x2000 then some (p.args.read (o - 0x4000))
  else none

/-- The bytes that a read of a context page gives. -/
def State.readPage (s : State) (port vf page off len : Nat) : Option (List Byte) := readBytes (s.pageByte port vf page) off len

/-! ## Registers of a PF (R335, R363, R364, R370, R373, R374, R378) -/

/-- BOOTST (R373). -/
def Boot.word (b : Boot) : Nat :=
  b.lastfail * 2 ^ 12 + b.fails * 2 ^ 8 + (if b.cold then 8 else 0) + (match b.state with
    | .off => 0
    | .starting => 1
    | .ready => 2
    | .recovery => 3)

/-- A PF command by its code (R337, R369). -/
def State.portCommand (s : State) (port code : Nat) (arg0 : BitVec 32) : State :=
  match code with
  | 0x10 => leaves s (execGcreate port arg0 s)
  | 0x11 => leaves s (execGdestroy port arg0 s)
  | 0x12 => leaves s (execGset port arg0 s)
  | 0x13 => s.pfCommand port 0x13 arg0 fun s => s.startCmd arg0
  | _ => s.pfCommand port code arg0 fun s => s.pfRefused port

/-- CMD of a PF written. -/
def State.writePortCmd (s : State) (port off : Nat) (data : List Byte) : State :=
  let p := s.portAt port
  let v := mergeBytes (cmdWord p.arg0 p.status p.code) 8 0x1000 off data
  let arg0 := BitVec.ofNat 32 (v / 2 ^ 32)
  if v / 2 ^ 8 % 2 = 1 then s.portCommand port (v % 256) arg0
  else s.setPort port { p with arg0 := arg0, code := BitVec.ofNat 8 v }

/-- ERRSEV of a glade written: an action above 4 is refused with an error response (R312). -/
def State.writeErrsev (s : State) (port glade off : Nat) (data : List Byte) : State :=
  if data.any fun b => decide (4 < b.toNat % 8) then s.answerHost port .error
  else
    let g := s.gladeAt glade
    let new := (data.zipIdx.map fun (b, i) => (off + i, b.toNat % 8)).foldl (fun t e => t.put e.1 e.2) g.errsev
    s.setGlade glade { g with errsev := new }

/-- A request to a glade window that is not permitted: logged in that window's glade, if there is one (R364). -/
def State.violateWindow (s : State) (slice addr : Nat) : State :=
  if (s.glades.at? slice).isSome then s.logIn slice 8 6 0xFFFF (BitVec.ofNat 64 addr) else s

/-- The glade window of an offset: its slice, and the offset in it. -/
def windowOf (off : Nat) : Option (Nat × Nat) :=
  if 0x10000 ≤ off ∧ off < 0x70000 then some ((off - 0x10000) / 0x8000, (off - 0x10000) % 0x8000) else none

/-- A write of a PF.  The firmware mailbox of BAR2 stands at offsets from 0x80000 on. -/
def State.writePf (s : State) (port off : Nat) (data : List Byte) : State :=
  let n := data.length
  let p := s.portAt port
  if inside off n 0x80000 0x400000 then
    (if s.boot.state = .starting then s else { s with boot := { s.boot with mailbox := s.boot.mailbox.writeN (off - 0x80000) data } })
  else if inside off n 0x1000 8 then s.writePortCmd port off data
  else if inside off n 0x4000 0x2000 then s.setPort port { p with args := p.args.writeN (off - 0x4000) data }
  else match windowOf off with
    | some (k, o) =>
      if !s.isReady then s
      else if (s.glades.at? k).any (fun g : Glade => decide (g.admin = port)) ∧ inside o n 0x2000 128 then s.writeErrsev port k (o - 0x2000) data
      else s.violateWindow k off
    | none => s.violate port none off

/-- The entry at a position of the ERRLOG ring (R313, R335). -/
def Glade.logAt (g : Glade) (i : Nat) : List Byte :=
  let oldest := g.loghead.toNat + 2 ^ 32 - g.errlog.length
  (((g.errlog.zipIdx.find? fun e => decide ((oldest + e.2) % 256 = i)).map fun e => e.1.bytes)).getD []

/-- One byte of a glade window as the administrator's PF reads it; none where nothing is listed. -/
def Glade.windowByte (g : Glade) (first o : Nat) : Option Byte :=
  if o = 0 then some (BitVec.ofNat 8 (g.id first))
  else if inside o 1 4 4 then some ((toBytes g.loghead.toNat 4).getD (o - 4) 0)
  else if inside o 1 0x2000 128 then some (BitVec.ofNat 8 (g.action ((o - 0x2000) / 8) ((o - 0x2000) % 8)))
  else if inside o 1 0x4000 0x2000 then some ((g.logAt ((o - 0x4000) / 32)).getD ((o - 0x4000) % 32) 0)
  else none

/-- One byte of the registers of a PF; none where nothing is listed.  A glade window reads zero on every PF but its
administrator's, and before the package is READY; the window of no glade shows 0xFF as its GID. -/
def State.pfByte (s : State) (port o : Nat) : Option Byte :=
  let p := s.portAt port
  if inside o 1 0x80000 0x400000 then some (s.boot.mailbox.read (o - 0x80000))
  else if inside o 1 0x40 8 then some ((toBytes s.boot.word 8).getD (o - 0x40) 0)
  else if inside o 1 0x100 0x60 then
    some ((toBytes (s.boot.fuses.getD ((o - 0x100) / 8) 0).toNat 8).getD ((o - 0x100) % 8) 0)
  else if inside o 1 0x1000 8 then some ((toBytes (cmdWord p.arg0 p.status p.code) 8).getD (o - 0x1000) 0)
  else if inside o 1 0x4000 0x2000 then some (p.args.read (o - 0x4000))
  else match windowOf o with
    | none => none
    | some (k, w) =>
      if !s.isReady then some 0
      else match s.glades.at? k with
        | some g => if g.admin = port then g.windowByte k w else some 0
        | none => some (if w = 0 then 0xFF else 0)

/-- The bytes that a read of a PF gives. -/
def State.readPf (s : State) (port off len : Nat) : Option (List Byte) := readBytes (s.pfByte port) off len

/-- A read of a PF that nothing answers to: logged in its window's glade, if it is one of a glade window (R364). -/
def State.violatePf (s : State) (port off : Nat) : State :=
  match windowOf off with
  | some (k, _) => s.violateWindow k off
  | none => s.violate port none off

/-! ## Register accesses -/

/-- `REGISTER_WRITE` (R334 to R336, R363). -/
def execRegisterWrite (fn : HostFn) (off : Nat) (data : List Byte) (s : State) : Host.Outcome State Fault Refusal :=
  .next <| match fn with
  | .pf port => if s.boot.powered ∧ port < 4 then s.writePf port off data else s
  | .vf vf page t => match s.admitted vf page off t with
    | .error u => s.discardedWrite u vf
    | .ok port => s.writePage port vf page off data

/-- A host reads registers: what is not listed reads as zero, and is logged (R363). -/
def State.hostLook (s : State) (fn : HostFn) (off len : Nat) : State :=
  match fn with
  | .pf port =>
    if s.boot.powered ∧ port < 4 then
      match s.readPf port off len with
      | some b => s.answerHost port (.data b false)
      | none => (s.violatePf port off).answerHost port (.data (List.replicate len 0) false)
    else s
  | .vf vf page t => match s.admitted vf page off t, s.vfPort vf with
    | .error u, some port => if s.isReady then u else s.answerHost port (.data (List.replicate len 0) false)
    | .error u, none => u
    | .ok port, _ => match s.readPage port vf page off len with
      | some b => s.answerHost port (.data b false)
      | none => (s.violate port (s.pageAt vf page).bound (pageOffset page off)).answerHost port (.data (List.replicate len 0) false)

/-! ## The number of VFs of a port (R332) -/

/-- The management controllers fix the counts: multiples of 8 that share the 256 VFs, before a start. -/
def State.setVfCounts (s : State) (counts : List Nat) : State :=
  if (s.boot.state = .off ∨ s.boot.state = .recovery) ∧ counts.length = 4 ∧ counts.all (fun n => decide (n % 8 = 0)) ∧
      counts.foldl (· + ·) 0 ≤ 256 then
    (counts.zipIdx).foldl (fun (s : State) (n, p) => s.setPort p { s.portAt p with vfs := n }) s
  else s

end Sys2Proof.Machine
end

