-- ==== Sys2Proof/Machine/Links.lean ====
section
/-! DEFINITION. Device links (R360 to R362): a link up and down, replays, the wheel's slots, and the requests of a peer. -/

namespace Sys2Proof.Machine

/-- `LINK_UP`: the link begins to carry flits. -/
def execLinkUp (link : Nat) (s : State) : Host.Outcome State Fault Refusal :=
  .next <| if s.boot.powered ∧ link < 12 then s.setLink link { s.linkAt link with up := true, replays := 0 } else s

/-- `LINK_LEVEL_REPLAY`: one more consecutive replay of a flit. -/
def execLinkLevelReplay (link : Nat) (s : State) : Host.Outcome State Fault Refusal :=
  .next <|
    let l := s.linkAt link
    if l.up then s.setLink link { l with replays := min 16 (l.replays + 1) } else s

/-- The channels whose next unit is bound over a link, with the unit's address there. -/
def State.boundOver (s : State) (link : Nat) : List (Nat × Nat) :=
  s.channels.filterMap fun e => match e.2.queue, e.2.owner with
    | x :: _, some (ctx, _) =>
      let rs := s.unitReach ctx (e.1 / 16 / 8) x x.nextUnit
      let rs := e.2.flight.getD (if x.done < x.len then rs else (x.flag.map fun f => (f, s.reach ctx 0 f true)).toList)
      (rs.find? fun r => match r.2 with
        | .peer l _ => l == link
        | .at_ _ | .stall _ | .broken _ => false).map fun r => (e.1, r.1)
    | _, _ => none

/-- `LINK_DOWN` (R360): after sixteen consecutive replays the link goes down; the channels whose unit is bound over it take
their faults, and class 13 is logged. -/
def execLinkDown (link : Nat) (s : State) : Host.Outcome State Fault Refusal :=
  .next <|
    let l := s.linkAt link
    if l.up ∧ 16 ≤ l.replays then
      let bound := s.boundOver link
      let s := s.setLink link { l with up := false, flits := [] }
      let s := bound.foldl (fun (s : State) e => s.channelFault e.1 e.2 false) s
      s.reportWhere (fun _ => true) 13 7 0
    else s

/-- The flits of a glade that wait in a direction of a link. -/
def Link.waiting (l : Link) (dir glade : Nat) : Nat := (l.flits.at? (16 * dir + glade)).getD 0

/-- The glade whose flit a wheel slot carries (R361): the slot's own, else the next in id order that has one. -/
def State.slotGlade (s : State) (link dir : Nat) : Option Nat :=
  let l := s.linkAt link
  let slot := (l.wheel.at? dir).getD 0
  let own := s.glades.find? fun e => ((e.2.links.at? (2 * link + dir)).getD 0).getLsbD slot && decide (0 < l.waiting dir e.1)
  match own with
  | some e => some e.1
  | none =>
    let ready := (s.glades.filter fun e => decide (0 < l.waiting dir e.1)).mergeSort fun a b => decide (a.2.id a.1 ≤ b.2.id b.1)
    let last := ((l.lastBest.at? dir).bind fun k => s.glades.at? k |>.map fun g => g.id k).getD 0
    match ready.find? fun e => decide (last < e.2.id e.1) with
    | some e => some e.1
    | none => ready.head?.map (·.1)

/-- The slot is its glade's own. -/
def State.slotOwned (s : State) (link dir glade : Nat) : Bool :=
  (((s.gladeAt glade).links.at? (2 * link + dir)).getD 0).getLsbD (((s.linkAt link).wheel.at? dir).getD 0)

/-- `LINK_WHEEL_SLOT` (R361): the wheel turns by a slot, which carries one flit, if one waits; a flit that gets across ends
its replays. -/
def execLinkWheelSlot (link dir : Nat) (s : State) : Host.Outcome State Fault Refusal :=
  .next <|
    let l := s.linkAt link
    if !l.up then s
    else
      let turned := l.wheel.put dir ((((l.wheel.at? dir).getD 0) + 1) % 64)
      match s.slotGlade link dir with
      | none => s.setLink link { l with wheel := turned }
      | some k =>
        let key := 16 * dir + k
        s.setLink link { l with
          wheel := turned, replays := 0, flits := l.flits.put key (l.waiting dir k - 1),
          carried := l.carried.put key (((l.carried.at? key).getD 0) + 1),
          lastBest := if s.slotOwned link dir k then l.lastBest else l.lastBest.put dir k }

/-! ## Requests of a peer (R362) -/

/-- The glade and physical address that a range of link addresses reaches. -/
def State.exported (s : State) (link addr n : Nat) : Option (Nat × Nat) :=
  (s.glades.filterMap fun e => (e.2.exports.at? link).bind fun w : Window =>
    if w.lbase ≤ addr ∧ addr + n ≤ w.lbase + w.size then some (e.1, w.pbase + (addr - w.lbase)) else none).head?

/-- The tag that the L3 holds a line under, if it holds it. -/
def State.tagOf (s : State) (p : Place) : Nat :=
  (((s.sliceAt (homeSlice p)).l3.find? fun e => decide (some e.1 = p.lineKey)).map (·.2)).getD noTag

/-- The key that a peer's access uses: the one that the line carries, else the glade's (R359). -/
def State.carriedKey (s : State) (glade : Nat) (p : Place) : Nat :=
  match p with
  | .dram sl o => if s.writtenKey sl o = 0 then (s.gladeAt glade).key else s.writtenKey sl o
  | .host _ _ _ | .scratch _ _ | .regs _ _ | .vault _ _ _ => 0

/-- A peer's write to one line, as a channel write of the link's agent (R271, R362), with the poison that its flits carry
(R382): the state and the agent's clock. -/
def State.peerWriteLine (s : State) (glade : Nat) (p : Place) (bytes : List Byte) (poisoned : Bool) (cc : Nat) : State × Nat :=
  let key := s.carriedKey glade p
  let x := s.lineOf p
  let t := max cc (x.l + 1)
  let s := (s.setLine p { x with w := t, l := t, dirty := true }).putBytes key p bytes
  let s := s.holdLine (s.tagOf p) p
  (if poisoned then s.markBytes p (bytes.map fun _ => true) else s, t)

/-- A peer's read of one line: its lease is extended to the agent's clock (R271). -/
def State.peerReadLine (s : State) (p : Place) (cc : Nat) : State × Nat :=
  let tau := max cc (s.lineOf p).w
  let (s, w, _) := s.renewAtHome (s.tagOf p) p tau
  (s, max cc w)

/-- The link agent's clock for a glade. -/
def State.agentClock (s : State) (link glade : Nat) : Nat := ((s.linkAt link).clks.at? glade).getD 0

/-- The link agent's clock and answer set. -/
def State.setAgent (s : State) (link glade cc : Nat) (a : Answer) : State :=
  let l := s.linkAt link
  s.setLink link { l with clks := l.clks.put glade cc, answer := a }

/-- `PEER_REQUEST_ARRIVAL` (R362): a write of `data`, poisoned or not, or a read of `len` bytes, performed in the export window that contains
it, once its homes can (R239); its flit has come inward, and the answer to a read goes outward (R361).  Outside every window it
is refused and logged as class 13. -/
def execPeerRequestArrival (link addr : Nat) (data : Option (List Byte × Bool)) (len : Nat) (s : State) : Host.Outcome State Fault Refusal :=
  .next <|
    if !s.isReady || !(s.linkAt link).up then s
    else
      let n := match data with
        | some (d, _) => d.length
        | none => len
      match s.exported link addr n with
      | none =>
        let s := s.reportWhere (fun _ => true) 13 7 (BitVec.ofNat 64 addr)
        match data with
        | some _ => s
        | none => s.setLink link { s.linkAt link with answer := .error }
      | some (k, pa) =>
        let pieces := (linesOfRange pa n).map fun (a, o, m) => (s.dramPlace k a, o, m)
        let places := pieces.map (·.1)
        let cc := s.agentClock link k
        match data with
        | some (d, bad) =>
          if places.all (s.homeOwns noTag) then
            let (s, cc) := pieces.foldl (fun (s, cc) (p, o, m) => s.peerWriteLine k p ((d.drop o).take m) bad cc) (s, cc)
            (s.queueFlit k link 1).setAgent link k cc .done
          else s.askAll noTag places true
        | none =>
          if places.all (s.homeHas noTag) then
            let (s, cc) := pieces.foldl (fun (s, cc) (p, _, _) => s.peerReadLine p cc) (s, cc)
            let bytes := (pieces.map fun (p, _, m) => s.bytesAt (s.carriedKey k p) p m).flatten
            let bad := pieces.any fun (p, _, m) => s.isPoisoned p m
            let s := (s.queueFlit k link 1).queueFlit k link 0
            (if bad then s.poisonFlit k link else s).setAgent link k cc (.data bytes bad)
          else s.askAll noTag places false

end Sys2Proof.Machine
end

