-- ==== Sys2Proof/Machine/MaskPlane.lean ====
section
/-! DEFINITION. The mask stack and the planes (R166 to R183).  Writes of XM, CM, PL and the stack take effect at
issue (R46). -/

namespace Sys2Proof.Machine

/-! ## The mask stack (R167, R168) -/

/-- `VIF` (R167). -/
def execVif (s : State) : Host.Outcome State Fault Refusal :=
  word .vif s fun c g =>
    if g.stack.length = 8 then s.trapWord c g 3 0 0 0
    else s.setGroup c.gid { g with stack := g.stack ++ [g.xm], xm := g.xm &&& g.cm }

/-- `VELSE` (R167). -/
def execVelse (s : State) : Host.Outcome State Fault Refusal :=
  word .velse s fun c g =>
    match g.stack.getLast? with
    | none => s.trapWord c g 4 0 0 0
    | some m => s.setGroup c.gid { g with xm := widthMask g.width (m &&& ~~~g.xm) }

/-- `VENDIF` (R167). -/
def execVendif (s : State) : Host.Outcome State Fault Refusal :=
  word .vendif s fun c g =>
    match g.stack.getLast? with
    | none => s.trapWord c g 4 0 0 0
    | some m => s.setGroup c.gid { g with xm := widthMask g.width m, stack := g.stack.dropLast }

/-! ## XM (R172) -/

/-- `XMSET` (R172). -/
def execXmset (a : Reg) (s : State) : Host.Outcome State Fault Refusal :=
  word (.xmset a) s fun c g => s.setGroup c.gid { g with xm := widthMask g.width (g.srcS .a a) }

/-- `XMGET` (R172). -/
def execXmget (d : Reg) (s : State) : Host.Outcome State Fault Refusal :=
  word (.xmget d) s fun c g => s.scalResult c g d [g.xm] 0

/-! ## Planes (R182) -/

/-- A lane put into a plane; plane 0 is not listed. -/
def Group.setPlane (g : Group) (i p : Nat) : Group := { g with pl := if p = 0 then g.pl.drop i else g.pl.put i p }

/-- The issuing lanes that `sel` picks put into the planes that `f` names. -/
def State.movePlanes (s : State) (c : Issue) (g : Group) (sel : Nat → Bool) (f : Nat → Nat) : State :=
  s.setGroup c.gid (((lanesOf g.width c.mask).filter sel).foldl (fun (x : Group) i => x.setPlane i (f i)) g)

/-- `PLSET` (R182): bits [1:0], reduced to the planes of the kernel. -/
def execPlset (a : Reg) (s : State) : Host.Outcome State Fault Refusal :=
  word (.plset a) s fun c g => s.movePlanes c g (fun _ => true) fun i => (g.srcV .a a i).toNat % 4 % g.planes

/-- `PLSEL` (R182). -/
def execPlsel (l : BitVec 7) (s : State) : Host.Outcome State Fault Refusal :=
  word (.plsel l) s fun c g => s.movePlanes c g g.cm.getLsbD fun _ => l.toNat

/-- `PLJOIN` (R182). -/
def execPljoin (s : State) : Host.Outcome State Fault Refusal :=
  word .pljoin s fun c g => s.movePlanes c g (fun _ => true) fun _ => 0

/-- `PLMASK` (R182): every bit below the width is written, whatever plane issues it. -/
def execPlmask (l : BitVec 7) (s : State) : Host.Outcome State Fault Refusal :=
  word (.plmask l) s fun c g =>
    let g := { g with cm := maskOf ((lanesOf g.width g.xm).filter fun i => decide (g.planeOf i = l.toNat)) }
    s.setGroup c.gid (g.bumpGen 2048)

/-- `PLOCC` (R182). -/
def execPlocc (d : Reg) (s : State) : Host.Outcome State Fault Refusal :=
  word (.plocc d) s fun c g => s.scalResult c g d [maskOf ((lanesOf g.width g.xm).map g.planeOf)] 0

end Sys2Proof.Machine
end

