-- ==== Sys2Proof/Machine/Matrix.lean ====
section
/-! DEFINITION. The matrix engine (R243 to R263) and its arithmetic (R99, R107 to R110). -/

namespace Sys2Proof.Machine

/-! ## Descriptors (R247) -/

def descSparse (d : Scalar) : Nat := bitsOf d.toNat 39 36
def descRot (d : Scalar) : Nat := bitsOf d.toNat 35 32
def descTpitch (d : Scalar) : Nat := bitsOf d.toNat 31 16
def descRpitch (d : Scalar) : Nat := bitsOf d.toNat 15 0

/-- The span of a row: 768 bytes, or 1,024 when rotation codes 5 and 6 may reach there (R248). -/
def descSpan (d : Scalar) : Nat := if 5 ≤ descRot d then 1024 else 768

/-- The descriptor meets R247; `sparse` says whether its SPARSE must be nonzero. -/
def descOk (sparse : Bool) (d : Scalar) : Bool :=
  decide (bitsOf d.toNat 63 40 = 0) &&
  (if sparse then decide (1 ≤ descSparse d) && decide (descSparse d ≤ 3) else decide (descSparse d = 0)) &&
  decide (descRot d ≤ 6) && decide (descTpitch d % 16 = 0) && decide (descRpitch d % 16 = 0) &&
  decide (descSpan d ≤ descRpitch d)

/-- Distances from the operand's address to the rows it reads (R244, R249, R250): A of a group of width `w`, B. -/
def rowsA (w : Nat) (sparse : Bool) (d : Scalar) : List Nat :=
  ((List.range (w / 32)).map fun t =>
    if sparse then
      ((List.range 32).map fun r => 2 * t * descTpitch d + r * descRpitch d) ++
      ((List.range 32).map fun r => 2 * t * descTpitch d + descTpitch d + r * descRpitch d)
    else (List.range 32).map fun r => t * descTpitch d + r * descRpitch d).flatten
def rowsB (d : Scalar) : List Nat := (List.range 32).map fun r => r * descRpitch d

/-! ## Space and extent (R249) -/

/-- The place of an operand in register space or scratch, with the bytes of its extent. -/
def State.operandPlace (s : State) (gid : Nat) (g : Group) (a : Scalar) : Option (Place × Nat) :=
  match s.mapAddr gid g a with
  | some (.here (.scratch k o)) => some (.scratch k o, (s.recordOf g).scratch * 256)
  | some (.here (.regs k o)) => some (.regs k o, g.nregs * g.width * 4)
  | some (.here _) | some (.global _) | none => none

/-- The operand's footprint, or the TADDR of its access fault. -/
def State.footprint (s : State) (gid : Nat) (g : Group) (a : Scalar) (d : Scalar) (rows : List Nat) :
    Except Scalar (List (Place × Nat)) :=
  match s.operandPlace gid g a with
  | none => .error a
  | some (p, extent) =>
    let beyond := (rows.filter fun r => decide (extent < p.offset + r + descSpan d)).map fun r => max (p.offset + r) extent
    match beyond with
    | [] => .ok (rows.map fun r => (p.plus r, descSpan d))
    | b :: bs => .error (a + BitVec.ofNat 64 (bs.foldl min b - p.offset))

/-- The physical registers whose bytes a footprint covers. -/
def footRegs (w : Nat) (foot : List (Place × Nat)) : List Nat :=
  ((foot.map fun (p, n) => match p with
    | .regs _ o => (List.range ((o + n + w * 4 - 1) / (w * 4) - o / (w * 4))).map (o / (w * 4) + ·)
    | .dram _ _ | .host _ _ _ | .scratch _ _ | .vault _ _ _ => []).flatten).dedup

/-! ## Issue (R249, R252, R258, R260) -/

/-- A matrix instruction appended to the open batch. -/
def State.appendOp (s : State) (gid : Nat) (g : Group) (o : MatOp) : State :=
  s.fresh.setGroup gid { g with openOps := g.openOps ++ [{ o with seq := s.nextId }], wait := .none }

/-- The first accumulator register that a field names. -/
def Group.accBase (g : Group) (d : Reg) : Nat := g.winb + windowField d

/-- The word waits until no result to one of the registers is outstanding (R252), or `k`. -/
def State.afterResults (s : State) (c : Issue) (g : Group) (keys : List Nat) (k : State) : State :=
  if g.results.any fun r => r.dest.keys.any keys.contains then s.hold c.gid g (.registers keys) else k

/-- The registers that an instruction names as its accumulator and scales: no scales with INT8 (R252). -/
def ownRegs (acc fmt : Nat) : List Nat := (List.range (if fmt = 4 then 32 else 34)).map (acc + ·)

/-- `mma` and `mmas`: the waits and the checks of R249 in their order, and the append.  The registers that the word names are
waited for before its checks, which read the descriptors (log 43).  Of two misaligned operand addresses A's is named: step 3
of R249 does not order them (log 80). -/
def State.matrixWord (s : State) (c : Issue) (g : Group) (sparse : Bool) (d : Reg) (sa sb : BitVec 5) (fmt : BitVec 3)
    (bsel : BitVec 4) : State :=
  let acc := g.accBase d
  let own := ownRegs acc fmt.toNat
  let scalars := [sa.toNat, sa.toNat + 1, sb.toNat, sb.toNat + 1].map (1024 + ·)
  s.afterResults c g (scalars ++ own) <|
    let aAddr := g.scalar sa.toNat
    let aDesc := g.scalar (sa.toNat + 1)
    let bAddr := g.scalar sb.toNat
    let bDesc := g.scalar (sb.toNat + 1)
    if !descOk sparse aDesc then s.trapWord c g 10 0x01 aDesc 0
    else if !descOk false bDesc then s.trapWord c g 10 0x02 bDesc 0
    else if aAddr.toNat % 16 ≠ 0 then s.trapWord c g 6 0 aAddr 0
    else if bAddr.toNat % 16 ≠ 0 then s.trapWord c g 6 0 bAddr 0
    else
      match s.footprint c.gid g aAddr aDesc (rowsA g.width sparse aDesc), s.footprint c.gid g bAddr bDesc (rowsB bDesc) with
      | .error a, _ => s.trapWord c g 15 0 a 0
      | .ok _, .error b => s.trapWord c g 15 0 b 0
      | .ok fa, .ok fb =>
        let foot := footRegs g.width (fa ++ fb)
        s.afterResults c g foot <|
          s.appendOp c.gid g
            { seq := 0, zero := false, sparse := sparse, acc := acc, fmt := fmt.toNat, bsel := bsel, aAddr := aAddr,
              aDesc := aDesc, bAddr := bAddr, bDesc := bDesc, regs := own ++ foot, foot := fa ++ fb, chunks := [],
              result := none, raises := 31 }

/-- `MMA` (R258). -/
def execMma (d : Reg) (sa sb : BitVec 5) (fmt : BitVec 3) (bsel : BitVec 4) (s : State) : Host.Outcome State Fault Refusal :=
  word (.mma d sa sb fmt bsel) s fun c g => s.matrixWord c g false d sa sb fmt bsel

/-- `MMAS` (R258). -/
def execMmas (d : Reg) (sa sb : BitVec 5) (fmt : BitVec 3) (bsel : BitVec 4) (s : State) : Host.Outcome State Fault Refusal :=
  word (.mmas d sa sb fmt bsel) s fun c g => s.matrixWord c g true d sa sb fmt bsel

/-- `MZERO` (R260). -/
def execMzero (d : Reg) (s : State) : Host.Outcome State Fault Refusal :=
  word (.mzero d) s fun c g =>
    s.afterResults c g ((List.range 32).map (g.accBase d + ·)) <| s.appendOp c.gid g
      { seq := 0, zero := true, sparse := false, acc := g.accBase d, fmt := 0, bsel := 0, aAddr := 0, aDesc := 0, bAddr := 0,
        bDesc := 0, regs := (List.range 32).map (g.accBase d + ·), foot := [], chunks := [],
        result := none, raises := 31 }

/-! ## Batches (R261 to R263) -/

/-- `MBATCH` (R261).  One that has parked for room ends its run (R45, log 33). -/
def execMbatch (d : Reg) (s : State) : Host.Outcome State Fault Refusal :=
  word (.mbatch d) s fun c g =>
    if g.batches.length < 4 then
      (if g.wait = .batchRoom then s.endRun else s).scalResult c { g.closeBatch with wait := .none } d [(g.mlast + 1).zeroExtend 64] 0
    else s.hold c.gid g .batchRoom

/-- The pending closed batch of a number. -/
def Group.batchOf (g : Group) (n : BitVec 4) : Option Batch := g.batches.find? fun b => b.number == n

/-- `MWAIT` (R262). -/
def execMwait (a : Reg) (s : State) : Host.Outcome State Fault Refusal :=
  word (.mwait a) s fun c g =>
    match g.batchOf ((g.srcS .a a).setWidth 4) with
    | some b => s.hold c.gid g (.batch b.k)
    | none => s.endRun

/-- `MQUERY` (R263). -/
def execMquery (d a : Reg) (s : State) : Host.Outcome State Fault Refusal :=
  word (.mquery d a) s fun c g =>
    s.scalResult c g d [BitVec.ofNat 64
      ((if (g.batchOf ((g.srcS .a a).setWidth 4)).isNone then 2 ^ 16 else 0) + min 255 g.openOps.length * 2 ^ 8 +
        g.batches.length * 2 ^ 4 + g.mlast.toNat)] 0

/-! ## Operands as the engine reads them (R244, R248, R250) -/

/-- Where logical byte o of tile row r lies in the row's storage (R248). -/
def phys (rot r o : Nat) : Nat := Nat.xor (o / 16) (r % 2 ^ rot) * 16 + o % 16

/-- A byte of an operand: from its chunk, if that has been read ahead, else as its storage stands (R254).  A chunk that two rows of one
instruction share is read once for both: R254 does not say (log 97). -/
def State.operandByte (s : State) (chunks : List (Place × List Byte)) (p : Place) : Byte :=
  match chunks.find? fun e => decide (e.1 = p.align 16) with
  | some e => e.2.getD (p.offset % 16) 0
  | none => s.byteAt 0 p

/-- `n` logical bytes of the row that starts at a place. -/
def State.rowBytes (s : State) (chunks : List (Place × List Byte)) (rot r : Nat) (p : Place) (n : Nat) : List Byte :=
  (List.range n).map fun o => s.operandByte chunks (p.plus (phys rot r o))

/-- Bytes as element codes of `z` bytes each. -/
def codesOf (z : Nat) (bs : List Byte) : List Nat := (List.range (bs.length / z)).map fun k => fieldOf bs (z * k) z

/-- Positions of one group of a metadata row (R250, R251): 6 bits each; none when they are ill-formed. -/
def positions (n : Nat) (bs : List Byte) : Option (List Nat) :=
  let v := fromBytes bs
  let ps := (List.range n).map fun k => v / 2 ^ (6 * k) % 64
  if decide (ps.Pairwise (· < ·)) && ps.all (fun p => decide (p ≤ 47)) then some ps else none

/-- A logical row of A rebuilt from its value row and its metadata row (R250); none when the metadata is ill-formed. -/
def rebuild (n z k : Nat) (values meta_ : List Byte) : Option (List Nat) :=
  (List.range (k / 48)).foldr (fun g rest =>
    match positions n ((meta_.drop (g * (6 * n / 8))).take (6 * n / 8)), rest with
    | some ps, some l =>
      let vs := codesOf z ((values.drop (g * n * z)).take (n * z))
      some (((List.range 48).map fun e => match ps.idxOf? e with
        | some i => vs.getD i 0
        | none => 0) ++ l)
    | _, _ => none) (some [])

/-- Row i of A as element codes. -/
def State.rowA (s : State) (o : MatOp) (p : Place) (i : Nat) : Option (List Nat) :=
  let z := if o.fmt = 5 then 2 else 1
  let r := i % 32
  let rot := descRot o.aDesc
  if o.sparse then
    let n := 12 * descSparse o.aDesc
    let t := p.plus (2 * (i / 32) * descTpitch o.aDesc + r * descRpitch o.aDesc)
    rebuild n z (768 / z) (s.rowBytes o.chunks rot r t (n * 16)) (s.rowBytes o.chunks rot r (t.plus (descTpitch o.aDesc)) (6 * n / 8 * (16 / z)))
  else some (codesOf z (s.rowBytes o.chunks rot r (p.plus (i / 32 * descTpitch o.aDesc + r * descRpitch o.aDesc)) 768))

/-- Row j of Bt as element codes. -/
def State.rowB (s : State) (o : MatOp) (p : Place) (j : Nat) : List Nat :=
  codesOf (if o.fmt = 5 then 2 else 1) (s.rowBytes o.chunks (descRot o.bDesc) j (p.plus (j * descRpitch o.bDesc)) 768)

/-! ## The sum of an element (R107, R108, R110) -/

/-- A NaN without its signalling state: the engine makes no difference. -/
def Val.quiet : Val → Val
  | .nan _ => .nan false
  | .inf a => .inf a
  | .fin a m e => .fin a m e

/-- Element codes of A and of Bt as values (R246). -/
def readA (fmt c : Nat) : Val :=
  (if fmt = 1 then lx8Read c else if fmt = 2 then e5m2Read c else if fmt = 5 then bf16.read false c else e4m3Read c).quiet
def readB (fmt c : Nat) : Val :=
  (if fmt = 1 ∨ fmt = 3 then lx8Read c else if fmt = 2 then e5m2Read c else if fmt = 5 then bf16.read false c
    else e4m3Read c).quiet

/-- The exponent of a nonzero magnitude's leading bit. -/
def Val.lead : Val → Option Int
  | .fin _ m e => if m = 0 then none else some ((Nat.log2 m : Nat) + e)
  | .nan _ | .inf _ => none

/-- A finite product truncated toward zero to a multiple of 2^q, as that multiple. -/
def Val.truncated (q : Int) : Val → Int
  | .fin a m e =>
    let n : Int := (m * 2 ^ (e - q).toNat / 2 ^ (q - e).toNat : Nat)
    if a then -n else n
  | .nan _ | .inf _ => 0

/-- One K-group of products: its sum rounded to 24 bits, and whether it is invalid. -/
def groupSum (ps : List (Val × BitVec 5)) : Val × Bool :=
  let vs := ps.map (·.1)
  let both := vs.contains (.inf true) && vs.contains (.inf false)
  let invalid := both || ps.any fun p => p.2 != 0
  if both || vs.any Val.isNan then (.nan false, invalid)
  else if vs.contains (.inf true) then (.inf true, false)
  else if vs.contains (.inf false) then (.inf false, false)
  else
    match vs.filterMap Val.lead with
    | [] => (.fin false 0 0, false)
    | x :: xs =>
      let q := xs.foldl max x - 40
      let t := vs.foldl (fun (t : Int) v => t + v.truncated q) 0
      if t = 0 then (.fin false 0 0, false)
      else
        let m := t.natAbs
        let r := q + (Nat.log2 m : Nat) - 23
        let (n, _) := roundAt rne (decide (t < 0)) m q r
        (if q ≤ r then .fin (decide (t < 0)) n r else .fin (decide (t < 0)) m q, false)

/-- A finite value times 2^k. -/
def Val.scale (k : Int) : Val → Val
  | .fin a m e => .fin a m (e + k)
  | .nan s => .nan s
  | .inf a => .inf a

def Val.isFinite : Val → Bool
  | .fin _ _ _ => true
  | .nan _ | .inf _ => false

/-- The accumulator plus one scaled group sum, rounded once: the code and the flags (R107, R108). -/
def accumulate (acc : Nat) (g : Val) (k : Int) : Nat × BitVec 5 :=
  let a := (fp32.read false acc).quiet
  let (v, fl) := a.add rne (g.scale k)
  let (c, fl') := fp32.write rne false v
  (c, fl ||| flagIf (a.isFinite && g.isFinite) (fl' &&& flagOF))

/-- Lists cut into pieces of 32, for `n` pieces. -/
def pieces {α : Type} (l : List α) (n : Nat) : List (List α) := (List.range n).map fun k => (l.drop (32 * k)).take 32

/-- One float element (R107). -/
def elementF (fmt : Nat) (acc : Nat) (a b : List Nat) (sa sb : Nat) : Nat × BitVec 5 :=
  let ps := (a.zip b).map fun (x, y) => (readA fmt x).mul (readB fmt y)
  (pieces ps (ps.length / 32)).foldl (fun (r : Nat × BitVec 5) g =>
    let (v, bad) := groupSum g
    let (c, fl) := accumulate r.1 v ((sa : Int) - 127 + ((sb : Int) - 127))
    (c, r.2 ||| fl ||| flagIf bad flagNV)) (acc, 0)

/-- One INT8 element (R110). -/
def elementI (acc : Lane) (a b : List Nat) : Lane :=
  (a.zip b).foldl (fun (r : Lane) (x, y) => r + (BitVec.ofNat 8 x).signExtend 32 * (BitVec.ofNat 8 y).signExtend 32) acc

/-! ## Execution (R252) -/

/-- An accumulator register lane as the group's earlier matrix instructions leave it. -/
def Group.accumulator (g : Group) (before : List MatOp) (p i : Nat) : Lane :=
  match before.reverse.find? fun o => decide (o.acc ≤ p) && decide (p < o.acc + 32) && o.result.isSome with
  | some o => match o.result with
    | some (t, _) => (t.at? (64 * (p - o.acc) + i)).getD 0
    | none => 0
  | none => g.vlane p i

/-- Byte b of a lane of a register as it stands. -/
def Group.scaleByte (g : Group) (p i b : Nat) : Nat := (g.vlane p i).toNat / 2 ^ (8 * b) % 256

/-- Row i of the result: 32 elements and their flags (R107 to R110). -/
def State.resultRow (s : State) (g : Group) (before : List MatOp) (o : MatOp) (pa : Place) (bs : List (List Nat)) (i : Nat) :
    List (Lane × BitVec 5) :=
  let row := s.rowA o pa i
  let sa := g.scaleByte (o.acc + 32) i (o.bsel.toNat % 4)
  (List.range 32).map fun j =>
    let acc := g.accumulator before (o.acc + j) i
    let sb := g.scaleByte (o.acc + 33) j (o.bsel.toNat / 4)
    match row with
    | none => (if o.fmt = 4 then 0x80000000 else 0x7FC00000, flagNV)
    | some a =>
      let b := bs.getD j []
      if o.fmt = 4 then (elementI acc a b, 0)
      else if sa = 255 ∨ sb = 255 then (0x7FC00000, flagNV)
      else
        let (c, fl) := elementF o.fmt acc.toNat a b sa sb
        (BitVec.ofNat 32 c, fl)

/-- The result of a matrix instruction over the storage as it stands. -/
def State.matrixResult (s : State) (gid : Nat) (g : Group) (before : List MatOp) (o : MatOp) : Table Lane × BitVec 5 :=
  if o.zero then
    (((List.range 32).map fun k => (List.range g.width).map fun i => (64 * k + i, (0 : Lane))).flatten, 0)
  else
    let pa := ((s.operandPlace gid g o.aAddr).map (·.1)).getD default
    let pb := ((s.operandPlace gid g o.bAddr).map (·.1)).getD default
    let bs := (List.range 32).map fun j => s.rowB o pb j
    let rows := (List.range g.width).map fun i => s.resultRow g before o pa bs i
    (((List.range 32).map fun k => rows.zipIdx.map fun (r, i) => (64 * k + i, (r.getD k (0, 0)).1)).flatten,
      joinFlags ((rows.map fun r => joinFlags (r.map (·.2)))))

/-- Matrix instructions of a group in issue order: of closed batches, and of the open one. -/
def Group.matOps (g : Group) : List MatOp := (g.batches.map (·.ops)).flatten ++ g.openOps

/-- The group with one matrix instruction changed. -/
def Group.alterOp (g : Group) (seq : Nat) (f : MatOp → MatOp) : Group :=
  let f (o : MatOp) : MatOp := if o.seq = seq then f o else o
  { g with batches := g.batches.map (fun b : Batch => { b with ops := b.ops.map f }), openOps := g.openOps.map f }

/-- The group with one matrix instruction's result known. -/
def Group.putOp (g : Group) (seq : Nat) (r : Table Lane × BitVec 5) : Group := g.alterOp seq fun o => { o with result := some r }

/-- A byte of scratch. -/
def Place.isScratch : Place → Bool
  | .scratch _ _ => true
  | .dram _ _ | .host _ _ _ | .regs _ _ | .vault _ _ _ => false

/-- A chunk of 16 bytes of an instruction's scratch rows may be read now, ahead of the others (R254). -/
def State.chunkReady (s : State) (gid : Nat) (o : MatOp) (q : Place) : Bool :=
  o.result.isNone && q.isScratch && !s.localBefore gid o.seq && !s.isPoisoned q 16 && (o.foot.any fun f => f.1.meets f.2 q 16) &&
    !o.chunks.any fun e => decide (e.1 = q)

/-- The engine reads one 16-byte chunk of a scratch row for an instruction that has not executed, as one access (R254). -/
def State.readChunk (s : State) (gid seq : Nat) (p : Place) : State :=
  let q := p.align 16
  match s.groupAt gid with
  | none => s
  | some g => match g.matOps.find? fun o => decide (o.seq = seq) with
    | none => s
    | some o =>
      if s.chunkReady gid o q then s.setGroup gid (g.alterOp seq fun o => { o with chunks := (q, s.bytesAt 0 q 16) :: o.chunks }) else s

/-- The first piece of an instruction's footprint with poison that it has still to read. -/
def State.footPoison (s : State) (o : MatOp) : Option (Place × Nat) :=
  if s.poison = [] then none
  else o.foot.find? fun f => (List.range f.2).any fun i =>
    s.badByte (f.1.plus i) && !o.chunks.any fun e => decide (e.1 = (f.1.plus i).align 16)

/-- `MATRIX_EXECUTION_START` (R252): the oldest matrix instruction of the group not yet executed reads its inputs, those chunks
that it has not read ahead (R254), once the group's earlier stores to scratch, register space and vaults have been performed: no store of
another kind writes an operand's storage (R82, log 98); poisoned input is a consumed error (R302). -/
def execMatrixExecutionStart (gid : Nat) (s : State) : Host.Outcome State Fault Refusal :=
  .next <| match s.groupAt gid with
  | none => s
  | some g =>
    match g.matOps.find? fun o => o.result.isNone with
    | none => s
    | some o =>
      if s.localBefore gid o.seq then s
      else match s.footPoison o with
        | some f => s.consumeError gid (s.sourceOf f.1)
        | none =>
          let before := g.matOps.filter fun x => decide (x.seq < o.seq)
          s.setGroup gid (g.putOp o.seq (s.matrixResult gid g before o))

/-- The accumulator writes of one executed instruction. -/
def Group.commit (g : Group) (o : MatOp) : Group :=
  match o.result with
  | none => g
  | some (t, fl) => (t.foldl (fun (g : Group) e => g.setLane (o.acc + e.1 / 64) (e.1 % 64) e.2) g).mergeFlags (fl &&& o.raises)

/-- `BATCH_COMPLETE` (R253): the oldest closed batch, all of whose instructions have executed, writes its accumulators
and merges its flags as one event. -/
def execBatchComplete (gid : Nat) (s : State) : Host.Outcome State Fault Refusal :=
  .next <| match s.groupAt gid with
  | none => s
  | some g =>
    match g.batches with
    | [] => s
    | b :: rest =>
      if b.ops.all fun o => o.result.isSome then s.setGroup gid (b.ops.foldl Group.commit { g with batches := rest }) else s

end Sys2Proof.Machine
end

