-- ==== Sys2Proof/Machine/Power.lean ====
section
/-! DEFINITION. Power and cooling (R375 to R377). -/

namespace Sys2Proof.Machine

/-- What is over its limit, with a part that has come over it or has come back (R376). -/
def Boot.withPart (b : Boot) (part : Nat) (hot : Bool) : Boot :=
  { b with overs := if hot then (if b.overs.contains part then b.overs else part :: b.overs) else b.overs.filter fun p => decide (p ≠ part) }

/-- When throttling lowers every core again (R376): 100 µs after the step before, while a core may be above 32. -/
def Boot.lowerMoment (b : Boot) : Option Nat := if b.lowered < 16 then b.throttleAt.map (· + 100_000) else none

/-- Throttling lowers every core now. -/
def State.throttleDue (s : State) : Bool := s.boot.lowerMoment.any fun t => decide (t ≤ s.time)

/-- `THROTTLE_STEP` (R376): a slice's die, or at 12 module power, is over its limit, or within it again.  While any of them is over,
every core lowers its step, at first and then once every 100 µs; the first such step is logged in every glade.  With all within their
limits throttling ends, and every core is back at the step of R165 (log 27).  What is over its limit while no start has completed is
remembered. -/
def execThrottleStep (part : Nat) (hot : Bool) (s : State) : Host.Outcome State Fault Refusal :=
  .next <|
    if !s.boot.powered then s
    else
      let s := { s with boot := s.boot.withPart part hot }
      if !s.isReady then s
      else if s.boot.overs = [] then { s with boot := { s.boot with lowered := 0, throttleAt := none, hotAt := none } }
      else match s.boot.throttleAt with
        | none => s.lowerSteps.noteHot.reportWhere (fun _ => true) 14 7 0
        | some _ => if s.throttleDue then s.lowerSteps.noteHot else s.noteHot

/-- A context killed, if it is still there. -/
def State.killContext (s : State) (ctx : Nat) : State := if (s.contexts.at? ctx).isSome then s.destroy ctx else s

/-- `THERMAL_STOP` (R376): a die at 115 °C, or 10 ms of power above its limit at step 32: issue stops, every context is killed,
and STATE is OFF. -/
def execThermalStop (s : State) : Host.Outcome State Fault Refusal :=
  .next <|
    if s.boot.powered then
      let s := (s.contexts.map (·.1)).foldl State.killContext s
      { s with boot := { s.boot with state := .off, lowered := 0, throttleAt := none, hotAt := none } }
    else s

/-- When power has been above its limit at step 32 for 10 ms (R376). -/
def Boot.stopMoment (b : Boot) : Option Nat := b.hotAt.map (· + 10_000_000)

/-- The package without power: what the package holds is lost; the hosts' memories and the fuses are not the package's to
lose (R377). -/
def State.unpowered (s : State) : State :=
  { State.reset with
    agenda := s.agenda, nextId := s.nextId, draws := s.draws, hostMem := s.dropLines.hostMem,
    poison := s.dropLines.poison.filter fun e => hostSector e.1,
    boot := { State.reset.boot with fuses := s.boot.fuses, powered := false } }

/-- `POWER_OFF` (R377). -/
def execPowerOff (s : State) : Host.Outcome State Fault Refusal := .next <| if s.boot.powered then s.unpowered else s

/-- `POWER_ON` (R373, R377): nothing kept, STATE OFF, FAILS zero. -/
def execPowerOn (s : State) : Host.Outcome State Fault Refusal :=
  .next <| if s.boot.powered then s else { s.unpowered with boot := { s.unpowered.boot with powered := true } }

end Sys2Proof.Machine
end

