-- ==== Sys2Proof/Machine/Returns.lean ====
section
/-! DEFINITION. What the device does by itself for accesses under way: results and loads that return (R48, R215, R302),
stores that drain and arrive (R218, R381), atomics performed and returned (R228), the end of a fence's waits (R223),
the automatic tick (R220), contributions at their streams (R233), walks (R365), compares of redundant copies (R309,
R310), and accesses that a severed port never answers (R345).  An event that is not enabled changes nothing. -/

namespace Sys2Proof.Machine

/-! ## Results and loads -/

/-- `RESULT_RETURN` (R48): result k of the group, oldest first, if its data has arrived. -/
def execResultReturn (gid k : Nat) (s : State) : Host.Outcome State Fault Refusal :=
  .next <| match s.groupAt gid with
  | none => s
  | some g => match g.results[k]? with
    | none => s
    | some r => if s.resultReady gid g r then s.setGroup gid (g.deliver r) else s

/-- A register that the result would write: its generation is still the register's. -/
def Group.writesOf (g : Group) (r : Result) : Bool :=
  r.dest.keys.zipIdx.any fun (key, k) => decide (r.tag.getD k 0 = g.genOf key) && !r.past.contains key

/-- The load of its number replaced. -/
def State.putLoad (s : State) (y : Load) : State :=
  { s with loads := s.loads.map fun z : Load => if z.seq = y.seq then y else z }

/-- What is left of the reads of a load performed ahead of its return (R82, R215). -/
def State.performReads (s : State) (seq : Nat) : State :=
  match s.loads.find? fun x => decide (x.seq = seq) with
  | none => s
  | some x => match s.groupAt x.gid with
    | none => s
    | some g =>
      if s.loadReady x then
        let (s, y) := s.performLoad g.ctx g.core x
        s.putLoad y
      else s.askLoad x

/-- `LOAD_RETURN` (R215): the reads are performed, if they were not; CLK rises and hits count; the result returns.  A poisoned result
that would write a register is consumed (R302).  A word's own read returns to its word. -/
def execLoadReturn (seq : Nat) (s : State) : Host.Outcome State Fault Refusal :=
  .next <| match s.loads.find? fun x => decide (x.seq = seq) with
  | none => s
  | some x => match s.groupAt x.gid with
    | none => s
    | some g => match g.results.find? fun r => decide (r.seq = seq) with
      | none => if x.own then s.performReads seq else { s with loads := s.loads.filter fun y : Load => decide (y.seq ≠ seq) }
      | some r =>
        if !s.loadReady x then s.askLoad x
        else if s.resultReady x.gid g { r with ready := true } then
          let (s, x) := s.performLoad g.ctx g.core x
          let s := { s with loads := s.loads.filter fun y : Load => decide (y.seq ≠ seq) }
          match if g.writesOf r then x.poison else none with
          | some source => s.consumeError x.gid source
          | none => s.setGroup x.gid ((g.loadClock x).deliver (r.fill x))
        else s

/-- One lane's read of a load performed, at a moment of its own, with those that go together with it (R81, R201, R203, R264, R273). -/
def State.performOne (s : State) (seq lane : Nat) : State :=
  match s.loads.find? fun x => decide (x.seq = seq) with
  | none => s
  | some x => match s.groupAt x.gid, x.rest.find? fun l => decide (l.lane = lane) with
    | some g, some l =>
      let ls := x.rest.filter l.together
      if ls.all (s.laneReady x) then
        let (s, y) := ls.foldl (fun (s, y) k => s.performLane g.ctx g.core y k) (s, x)
        s.putLoad y
      else s.askLoad x
    | _, _ => s

/-- `AUTOMATIC_TICK` (R220). -/
def execAutomaticTick (gid : Nat) (s : State) : Host.Outcome State Fault Refusal :=
  .next <| match s.groupAt gid with
  | none => s
  | some g => if g.tickDue then s.setGroup gid { g with clk := g.clk + 1, hits := 0, tickDue := false } else s

/-- `SPIN_DEMOTION_END` (R160). -/
def execSpinDemotionEnd (gid : Nat) (s : State) : Host.Outcome State Fault Refusal :=
  .next <| match s.groupAt gid with
  | none => s
  | some g => if g.demoted.isSome && !s.demotedNow g then s.setGroup gid { g with demoted := none } else s

/-! ## Stores -/

/-- An acknowledgement: to the group, to the copies it holds, to its launch; and a discarded group whose last one it was
has its DCLK written (R219, R277, R157, R300).  A mark lasts until the last access of its word is acknowledged. -/
def State.acked (s : State) (gid : Nat) (seqs : List Nat) (t : Nat) (line : Place) (mask : Nat) : State :=
  let done := seqs.filter fun q => !s.accessLeft q
  let s := { s with groups := s.groups.alter gid fun g => g.acknowledge seqs done t line mask }
  ((s.raiseStamps seqs t).noteGroup gid t line).settle gid

/-- The entry removed from its buffer. -/
def State.dropEntry (s : State) (e : Entry) : State :=
  { s with entries := s.entries.filter fun f : Entry => !(decide (f.seq = e.seq) && decide (f.line = e.line)) }

/-- An access that is not performed (R345, R357): logged under the class, at source 6, with its address. -/
def State.dropped (s : State) (cls ctx va : Nat) : State := s.error cls 6 ctx (BitVec.ofNat 64 va) 0

/-- The address of the first byte of an entry. -/
def Entry.addr (e : Entry) : Nat := e.va + e.bytes.foldl (fun m b => min m b.1) 127

/-- A store-buffer entry performed at its home, or dropped where a VF in ERROR bars it (R218, R357). -/
def State.drain (s : State) (e : Entry) : State :=
  let s := s.dropEntry e
  if s.barred e.ctx true e.line then (s.acked e.gid [e.seq] 0 e.line 0).dropped 8 e.ctx e.addr
  else
    let (s, t) := s.storeLine e.ctx e.line e.bytes e.clk
    s.acked e.gid [e.seq] t e.line (byteMask e.bytes)

/-- A write of a checkpoint slot on its way: performed, or its home asks for the line (R239, R242, R296). -/
def State.drainSlot (s : State) (w : SlotWrite) : State :=
  if s.slotReady w then ({ s with slotWrites := s.slotWrites.erase w } : State).performSlot w
  else if s.unanswered w.seq w.place then s
  else s.ask w.ctx w.place true

/-- The home of a line that an access waits to write asks for it. -/
def State.askWrite (s : State) (ctx seq : Nat) (p : Place) : State :=
  if s.blocked ctx p || s.unanswered seq p then s else s.ask ctx p true

/-- `STORE_BUFFER_DRAIN` (R218): an entry of that number that may be performed; or a write of a checkpoint slot of that number.
Where the home, of these or of another access under way of that number, has no right to the line, it asks for it (R239, R242). -/
def execStoreBufferDrain (seq : Nat) (s : State) : Host.Outcome State Fault Refusal :=
  .next <| match s.entries.find? fun e => decide (e.seq = seq) && s.entryReady e with
  | some e => s.drain e
  | none => match s.slotWrites.find? fun w => decide (w.seq = seq) with
    | some w => s.drainSlot w
    | none => match s.flights.find? fun x : Flight => decide (x.seq = seq) with
      | some x => s.askFlight x
      | none => (s.entries.filter fun e => decide (e.seq = seq) && !e.held).foldl (fun (s : State) e => s.askWrite e.ctx seq e.line) s

/-- An entry that has waited for 4,096 clocks of its core, and whose age has still an effect: it begins to drain, or, held in a
redundant copy, has its group come to a compare (R218, R309). -/
def State.aged (s : State) (e : Entry) : Bool :=
  (!e.draining || (e.held && (s.groupAt e.gid).any fun g => !g.compareDue)) && decide (e.born + 4096 ≤ (s.coreAt e.core).clock)

/-- `STORE_BUFFER_AGE_LIMIT` (R218, R309): entries of that number that are 4,096 clocks old begin to drain; in a redundant
copy the group first comes to a compare. -/
def execStoreBufferAgeLimit (seq : Nat) (s : State) : Host.Outcome State Fault Refusal :=
  .next <|
    let old (e : Entry) : Bool := decide (e.seq = seq) && s.aged e
    match s.entries.find? old with
    | none => s
    | some e =>
      let s := { s with entries := s.entries.map fun f : Entry => if old f then { f with draining := true } else f }
      if e.held then { s with groups := s.groups.alter e.gid fun g : Group => { g with compareDue := true } } else s

/-- A store to register space waits for the outstanding results of that register that were issued before it (R35). -/
def State.registerReady (s : State) (x : LocalStore) : Bool :=
  match x.place, s.groupAt x.gid with
  | .regs _ _, some g => !(g.results.any fun r => decide (r.seq < x.seq) &&
      r.dest.keys.any fun k => x.place.meets x.size (.regs x.gid (k * g.width * 4)) (g.width * 4))
  | _, _ => true

/-- `SCRATCH_STORE_ARRIVAL` (R201, R381): the oldest store of its group to these spaces is performed. -/
def execScratchStoreArrival (seq : Nat) (s : State) : Host.Outcome State Fault Refusal :=
  .next <| match s.locals.find? fun x => decide (x.seq = seq) with
  | none => s
  | some x =>
    if s.localBefore x.gid seq || !s.registerReady x then s
    else
      let s := { s with locals := s.locals.erase x }
      let s := s.putBytes 0 x.place (toBytes x.data x.size)
      if s.accessLeft seq then s
      else { s with groups := s.groups.alter x.gid fun g => g.unmark [seq] 0 }

/-! ## Atomics and reductions (R228) -/

/-- Old value to new value of an operation on `size` bytes. -/
def AtomOp.apply (op : AtomOp) (size old v v2 : Nat) : Nat :=
  let n := 8 * size
  match op with
  | .add => (old + v) % 2 ^ n
  | .addf => (addfAtMemory (BitVec.ofNat 32 old) (BitVec.ofNat 32 v)).toNat
  | .minI => if signed old n ≤ signed v n then old else v
  | .maxI => if signed old n < signed v n then v else old
  | .and => Nat.land old v
  | .or => Nat.lor old v
  | .xor => Nat.xor old v
  | .xchg => v
  | .cas => if old = v then v2 else old

/-- The next lane may be performed: the group's earlier accesses of its bytes have been, and its home can. -/
def State.atomReady (s : State) (a : Atomic) (l : AtomLane) : Bool :=
  if l.place.isGlobal then
    (s.homeOwns a.ctx l.place || s.blocked a.ctx l.place) && !s.unanswered a.seq l.place && !s.loadBefore a.gid a.seq l.place a.size &&
    !s.atomBefore a.gid a.seq l.place a.size &&
    !(s.entries.any fun e => decide (e.gid = a.gid) && decide (e.line = l.place.line) && decide (e.seq < a.seq))
  else !s.localBefore a.gid a.seq

/-- The atomic with its first lane done: the old value, and for `cas` the success. -/
def Atomic.laneDone (a : Atomic) (l : AtomLane) (old t : Nat) : Atomic :=
  { a with lanes := a.lanes.drop 1, did := a.did ++ [l], t := max a.t t,
           old := (a.old.put l.lane old).put (64 + l.lane) (if a.op = .cas ∧ old = l.v then 1 else 0) }

/-- A lane of a reduction has been performed: its bytes are read at the home until the next fold (R217). -/
def Group.wroteLane (g : Group) (line : Place) (mask : Nat) : Group :=
  ({ g with unfolded := (line, mask) :: g.unfolded } : Group).wroteHost line

/-- The atomic replaced; a reduction whose last lane it was is acknowledged. -/
def State.putAtom (s : State) (a : Atomic) (l : AtomLane) (mask : Nat) : State :=
  if a.finished && !a.returns then
    let s := { s with atoms := s.atoms.filter fun b : Atomic => decide (b.seq ≠ a.seq) }
    s.acked a.gid [a.seq] a.t l.place.line mask
  else
    let s := { s with atoms := s.atoms.map fun b : Atomic => if b.seq = a.seq then a else b }
    if a.returns then { s with groups := s.groups.alter a.gid fun g => g.wroteHost l.place.line }
    else { s with groups := s.groups.alter a.gid fun g => g.wroteLane l.place.line mask }

/-- One bit for each byte of a lane in its line. -/
def laneMask (p : Place) (size : Nat) : Nat :=
  (List.range size).foldl (fun m i => m + 2 ^ (p.offset - p.line.offset + i)) 0

/-- A lane of an atomic that is not performed, logged under the class: a value that it returns is a free value (log 11). -/
def State.loseLane (s : State) (a : Atomic) (l : AtomLane) (cls : Nat) : State :=
  (s.draw.putAtom (a.laneDone l ((Config.unstated s.draws).toNat % 2 ^ (8 * a.size)) 0) l 0).dropped cls a.ctx l.va

/-- `ATOMIC_PERFORM` (R228): the next lane of the access. -/
def execAtomicPerform (seq : Nat) (s : State) : Host.Outcome State Fault Refusal :=
  .next <| match s.atoms.find? fun a => decide (a.seq = seq) with
  | none => s
  | some a => match a.lanes with
    | [] => s
    | l :: _ =>
      if !s.atomReady a l then (if l.place.isGlobal then s.askWrite a.ctx seq l.place else s)
      else if s.barred a.ctx true l.place then s.loseLane a l 8
      else
        let old := fromBytes (s.bytesAt (s.keyOf a.ctx) l.place a.size)
        let bytes := toBytes (a.op.apply a.size old l.v l.v2) a.size
        let bad := s.isPoisoned l.place a.size
        let source := s.sourceOf l.place
        let (s, t) := if l.place.isGlobal then s.storeAtHome a.ctx l.place bytes a.clk else (s.putBytes 0 l.place bytes, 0)
        let s := (s.noteGroup a.gid t l.place).putAtom (a.laneDone l old t) l (laneMask l.place a.size)
        if bad && a.returns then s.consumeError a.gid source else s

/-- The register data of a returned atomic (R228). -/
def Result.fillAtom (r : Result) (a : Atomic) : Result :=
  match r.dest with
  | .vec _ n => { r with ready := true, vals := (a.old.filter fun e => decide (e.1 < 64 * n)).map fun e => (e.1, BitVec.ofNat 32 e.2) }
  | .scal _ _ | .cm => { r with ready := true, svals := [BitVec.ofNat 64 ((a.old.at? 0).getD 0), BitVec.ofNat 64 ((a.old.at? 64).getD 0)] }
  | .nul => { r with ready := true }

/-- `ATOMIC_RETURN` (R228): a value-returning access, performed in every lane, returns and raises CLK. -/
def execAtomicReturn (seq : Nat) (s : State) : Host.Outcome State Fault Refusal :=
  .next <| match s.atoms.find? fun a => decide (a.seq = seq) with
  | none => s
  | some a => match s.groupAt a.gid with
    | none => s
    | some g => match g.results.find? fun r => decide (r.seq = seq) with
      | none => s
      | some r =>
        if a.returns && a.finished && s.resultReady a.gid g { r with ready := true } then
          let s := { s with atoms := s.atoms.filter fun b : Atomic => decide (b.seq ≠ seq) }
          (s.raiseStamps [seq] a.t).setGroup a.gid ((({ g with clk := max g.clk a.t } : Group).deliver (r.fillAtom a)).unmark [seq] a.t)
        else s

/-! ## Fences -/

/-- `FENCE_COMPLETE` (R223): the waits are over, and the acknowledgements are folded. -/
def execFenceComplete (gid : Nat) (s : State) : Host.Outcome State Fault Refusal :=
  .next <| match s.groupAt gid with
  | none => s
  | some g => if g.wait = .fence ∧ s.fenceOver gid g then s.setGroup gid { g.fold with wait := .fenced } else s

/-! ## Contributions (R233) -/

/-- A contribution dropped at its home, and logged. -/
def State.dropContribution (s : State) (x : Contribution) : State :=
  { s with contribs := s.contribs.filter fun y : Contribution => decide (y.seq ≠ x.seq) }.error 6 2 x.ctx 0 (x.handle.setWidth 32)

/-- The stream closed if it has applied every index and a group is parked on it (R235). -/
def State.closeIfDone (s : State) (h : Scalar) (x : Stream) : State :=
  if x.finished && s.groups.any (fun e => e.2.wait == Wait.stream h && decide (e.2.ctx = x.ctx)) then s.closeStream h x else s

/-- The contribution applied, with those buffered behind it. -/
def State.applyContribution (s : State) (x : Contribution) (st : Stream) : State :=
  let s := { s with contribs := s.contribs.filter fun y : Contribution => decide (y.seq ≠ x.seq) }
  let (s, st) := s.applyIndex x.handle st x.data x.clk x.gid
  let (s, st) := State.applyBuffered x.handle st.buf.length s st
  s.closeIfDone x.handle st

/-- A contribution refused: it waits at its core, and its group parks if 32 wait already. -/
def State.refuse (s : State) (x : Contribution) : State :=
  if x.refused then s
  else
    let n := s.refusedOf x.gid
    let s := { s with contribs := s.contribs.map fun y : Contribution => if y.seq = x.seq then { y with refused := true } else y }
    if 32 ≤ n then { s with groups := s.groups.alter x.gid fun g : Group => { g with refusedPark := n + 1 } } else s

/-- A contribution's line is one that its severed port has not answered for in time (R345).  One that was sent after the severance is
judged by its stream, whose target was translated before it (log 94). -/
def State.lateContribution (s : State) (x : Contribution) (st : Stream) : Bool :=
  s.unanswered x.seq st.target || st.cut.any s.expired

/-- A contribution that is not performed: logged under the class, with the target's address. -/
def State.loseContribution (s : State) (x : Contribution) (st : Stream) (cls : Nat) : State :=
  ({ s with contribs := s.contribs.filter fun y : Contribution => decide (y.seq ≠ x.seq) } : State).dropped cls x.ctx st.va

/-- `CONTRIBUTION_ARRIVAL` (R233).  One that a VF in ERROR bars from its target is dropped (R357). -/
def execContributionArrival (seq : Nat) (s : State) : Host.Outcome State Fault Refusal :=
  .next <| match s.contribs.find? fun x => decide (x.seq = seq) with
  | none => s
  | some x => match s.streamOf x.ctx x.handle with
    | none => s.dropContribution x
    | some st =>
      if x.j < st.next ∨ (st.buf.at? x.j).isSome then s.dropContribution x
      else if x.j = st.next then
        if s.lateContribution x st then s
        else if s.homeOwns x.ctx st.target then s.applyContribution x st
        else if s.blocked x.ctx st.target then s.loseContribution x st 8
        else s.ask x.ctx st.target true
      else if st.buf.length < 256 then
        { s with contribs := s.contribs.filter fun y : Contribution => decide (y.seq ≠ seq) }.setStream x.handle
          { st with buf := st.buf.put x.j (x.data, x.clk, x.gid) }
      else s.refuse x

/-! ## Walks (R365) -/

/-- `TABLE_WALK_COMPLETE`: a core's walk ends; a leaf that is judged good is cached, and a fault caches nothing. -/
def execTableWalkComplete (core ctx : Nat) (va : Scalar) (s : State) : Host.Outcome State Fault Refusal :=
  .next <|
    if (s.contexts.at? ctx).isNone then s
    else match s.walk ctx (va.toNat % 2 ^ 48) with
      | .error _ => s
      | .ok l => match s.judge ctx l (va.toNat % 2 ^ 48) false true with
        | .error _ => s
        | .ok _ => s.setCore core ((s.coreAt core).cacheLeaf ctx l)

/-! ## Compares (R309, R310) -/

/-- The group of the other copy with the same indexes. -/
def State.partnerOf (s : State) (g : Group) : Option (Nat × Group) :=
  s.groups.find? fun e => decide (e.2.launch = g.launch) && decide (e.2.grx = g.grx) && decide (e.2.gix = g.gix) &&
    decide (e.2.role = .kernel) && decide (s.copyOf e.2 ≠ s.copyOf g)

/-- The outcome of a compare for a group: none while the partner has folded fewer records.  A partner that has exited left
its count and signature with its grove. -/
def State.compareWith (s : State) (g : Group) : Option Bool :=
  match s.partnerOf g with
  | some (_, p) =>
    if p.sigCount < g.sigCount then none
    else some (decide ((if g.sigCount = 0 then 0 else (p.sigLog.at? g.sigCount).getD 0) = (if g.sigCount = 0 then 0 else g.sig)))
  | none =>
    match s.groves.find? fun e => decide (e.2.launch = g.launch) && decide (e.2.grx = g.grx) && decide (e.2.copy ≠ s.copyOf g) with
    | some (_, v) => some (decide ((v.ends.at? g.gix).getD (g.sigCount, g.sig) = (g.sigCount, g.sig)))
    | none => some true

/-- The group's compare has matched: its entries are released, and it goes on. -/
def State.release (s : State) (gid : Nat) : State :=
  { s with entries := s.entries.map (fun e : Entry => if e.gid = gid then { e with held := false } else e),
           groups := s.groups.alter gid fun g : Group =>
             { g with compareDue := false, wait := match g.wait with
               | .compare => .compared
               | w => w } }

/-- A mismatch (R310): both copies are discarded and restart at their entries; a copy that has no restart point is the
end of its context, as for a consumed error. -/
def State.mismatch (s : State) (gid : Nat) (g : Group) : State :=
  let lost (g : Group) : Bool := decide (g.rstate = 2) || decide (g.mode = .steward)
  match s.partnerOf g with
  | some (pid, p) =>
    if lost g || lost p then s.errorAtLeast 3 3 0 g.ctx 0 0 else ((s.strike gid).strike pid).error 3 0 g.ctx 0 0
  | none => if lost g then s.errorAtLeast 3 3 0 g.ctx 0 0 else (s.strike gid).error 3 0 g.ctx 0 0

/-- `SIGNATURE_COMPARE` (R309): a group of a redundant launch at a compare point. -/
def execSignatureCompare (gid : Nat) (s : State) : Host.Outcome State Fault Refusal :=
  .next <| match s.groupAt gid with
  | none => s
  | some g =>
    if s.redundant g && (decide (g.wait = .compare) || g.compareDue) then
      match s.compareWith g with
      | none => s
      | some false => s.mismatch gid g
      | some true =>
        let s := s.release gid
        match s.partnerOf g with
        | some (pid, p) => if p.sigCount = g.sigCount ∧ (p.wait = .compare ∨ p.compareDue) then s.release pid else s
        | none => s
    else s

/-! ## Accesses that a severed port does not answer (R345) -/

/-- The next index of its stream, whose line its severed port has not answered for in time. -/
def State.lateStream (s : State) (x : Contribution) : Option Stream :=
  (s.streamOf x.ctx x.handle).filter fun st => decide (x.j = st.next) && s.lateContribution x st

/-- `SEVERANCE_TIMEOUT` (R345): an access in flight whose port has not answered for 50 ms after its severance: a load, a store, a
write of a checkpoint slot, an atomic, a contribution. -/
def execSeveranceTimeout (seq : Nat) (s : State) : Host.Outcome State Fault Refusal :=
  .next <|
    match s.loads.find? fun x => decide (x.seq = seq) && x.rest.any fun l => s.cutLane x l with
    | some x => s.putLoad (x.severed fun l => s.cutLane x l)
    | none =>
      match s.entries.find? fun e => decide (e.seq = seq) && s.unanswered e.seq e.line with
      | some e => ((s.dropEntry e).acked e.gid [e.seq] 0 e.line 0).dropped 2 e.ctx e.addr
      | none =>
        match s.slotWrites.find? fun w => decide (w.seq = seq) && s.unanswered w.seq w.place with
        | some w => ({ s with slotWrites := s.slotWrites.erase w } : State).dropped 2 w.ctx w.va
        | none =>
          match s.atoms.find? fun a => decide (a.seq = seq) && (a.lanes.head?.any fun l => s.unanswered a.seq l.place) with
          | some a => match a.lanes with
            | l :: _ => s.loseLane a l 2
            | [] => s
          | none => match s.contribs.find? fun x => decide (x.seq = seq) && (s.lateStream x).isSome with
            | some x => match s.lateStream x with
              | some st => s.loseContribution x st 2
              | none => s
            | none => s

end Sys2Proof.Machine
end

