-- ==== Sys2Proof/Machine/Seal.lean ====
section
/-! DEFINITION. Sealed images (R304 to R307, R325): `sealst` and `sealld`, the unit-state block, and the seal. -/

namespace Sys2Proof.Machine

/-! ## Operands (R306) -/

def sealKind (b : Scalar) : Nat := bitsOf b.toNat 30 29
def sealUnits (b : Scalar) : Nat := bitsOf b.toNat 27 24
def sealBlk (b : Scalar) : Nat := bitsOf b.toNat 19 0

/-- A reserved bit or a reserved KIND. -/
def badSeal (b : Scalar) : Bool :=
  decide (bitsOf b.toNat 63 31 ≠ 0) || decide (bitsOf b.toNat 28 28 ≠ 0) || decide (bitsOf b.toNat 23 20 ≠ 0) || decide (2 ≤ sealKind b)

/-- Pieces of `size` bytes from an address on, as the accesses of one word. -/
def sealPieces (a : Scalar) (size n : Nat) : List (Nat × Scalar) :=
  (List.range n).map fun k => (k, a + BitVec.ofNat 64 (size * k))

/-- The first of the pieces that leaves the space, or the vault, of the first (R78: one extent). -/
def leavesExtent (l : List (Nat × Scalar)) : Option Scalar :=
  match l with
  | [] => none
  | (_, a) :: rest =>
    (rest.find? fun e => decide (e.2.toNat / 2 ^ 48 ≠ a.toNat / 2 ^ 48) ||
      (decide (a.toNat / 2 ^ 48 = 0xFFF4) && decide (e.2.toNat / 2 ^ 23 ≠ a.toNat / 2 ^ 23))).map (·.2)

/-- A word's accesses, every one of them translated before any is performed; a trap performs none. -/
def State.accessAll (s : State) (c : Issue) (g : Group) (write : Bool) (la : List (Nat × Scalar))
    (k : State → List Located → State) : State :=
  let (s, good, bad) := s.locateAll c g write la
  if bad = [] then k s good else s.accessFault c true bad

/-- The pieces of an operand checked, as one scalar access (R78, R306): the trap, with TADDR the operand's address, or `k`. -/
def State.checked (s : State) (c : Issue) (g : Group) (globalOnly : Bool) (size n : Nat) (a : Scalar) (k : State) : State :=
  match s.addressTrap c g true true size (sealPieces a size n), leavesExtent (sealPieces a size n) with
  | some (code, _, _), _ => s.trapWord c g code 0 a 0
  | none, some _ => s.trapWord c g 15 0 a 0
  | none, none => if globalOnly && decide (a.toNat / 2 ^ 48 ≠ 0) then s.trapWord c g 15 0 a 0 else k

/-! ## The seal (R305) -/

/-- The initial vector of a block: context, counter, block. -/
def sealIv (ctx ctr blk : Nat) : Nat := ctx * 2 ^ 80 + ctr % 2 ^ 48 * 2 ^ 32 + blk

/-- The 48 authenticated bytes of a trailer. -/
def trailerHead (ctr blk ctx epoch units kind : Nat) : List Byte :=
  toBytes ctr 8 ++ toBytes blk 4 ++ toBytes ctx 4 ++ toBytes epoch 4 ++ toBytes units 1 ++ toBytes kind 1 ++ List.replicate 26 0

/-- A plaintext of 4,096 bytes under the key stream, and a ciphertext back. -/
def gcmApply (key iv : Nat) (l : List Byte) : List Byte := l.zipIdx.map fun (b, i) => b ^^^ Config.gcmStream key iv i

/-- The 16 bytes of a tag. -/
def tagBytes (key iv : Nat) (aad ct : List Byte) : List Byte := toBytes (Config.gcmTag key iv aad ct).toNat 16

/-- The 4,160 bytes of a sealed block. -/
def sealedBlock (key ctx ctr blk epoch units kind : Nat) (plain : List Byte) : List Byte :=
  let iv := sealIv ctx ctr blk
  let ct := gcmApply key iv ((plain ++ List.replicate 4096 0).take 4096)
  let aad := trailerHead ctr blk ctx epoch units kind
  ct ++ aad ++ tagBytes key iv aad ct

/-! ## The unit-state block (R306) -/

/-- The groups of a group's grove: index and key. -/
def State.groveGroups (s : State) (g : Group) : List (Nat × Nat) :=
  (s.groups.filter fun e => decide (e.2.grove = g.grove) && decide (e.2.role = .kernel)).map fun e => (e.2.gix, e.1)

/-- The 4,096 bytes of the block. -/
def State.unitState (s : State) (g : Group) : List Byte :=
  let bars := ((List.range 22).map fun b =>
    let x := s.barrierAt g b
    toBytes x.ph.toNat 4 ++ toBytes x.c.toNat 4 ++ toBytes x.expd.toNat 4 ++ toBytes 0 4 ++ toBytes x.t 8 ++ toBytes 0 8).flatten
  let arrived (gix b : Nat) : Nat := match (s.groveGroups g).find? fun e => decide (e.1 = gix) with
    | some (_, k) => (((s.groupAt k).getD default).counted b).toNat
    | none => 0
  let as := ((List.range ((s.recordOf g).groups + 1)).map fun gix => ((List.range 22).map fun b => toBytes (arrived gix b) 4).flatten).flatten
  ((bars ++ List.replicate (0x400 - 704) 0 ++ as) ++ List.replicate 4096 0).take 4096

/-- The block loaded: the barriers, and the arrivals of the grove's groups. -/
def State.loadUnitState (s : State) (g : Group) (epoch : Nat) (r : List Byte) : State :=
  let s := (List.range 22).foldl (fun (s : State) b =>
    s.setBarrier g b { s.barrierAt g b with
      ph := BitVec.ofNat 32 (fieldOf r (32 * b) 4), c := BitVec.ofNat 32 (fieldOf r (32 * b + 4) 4),
      expd := BitVec.ofNat 32 (fieldOf r (32 * b + 8) 4), t := s.savedClock (fieldOf r (32 * b + 16) 6) epoch }) s
  (s.groveGroups g).foldl (fun (s : State) e => { s with groups := s.groups.alter e.2 fun x : Group =>
    { x with barA := (List.range 22).map fun b => (b, BitVec.ofNat 32 (fieldOf r (0x400 + (e.1 * 22 + b) * 4) 4)) } }) s

/-! ## Writes and reads of whole blocks -/

/-- The word waits while the group has an access on its way, its entries draining. -/
def State.whenIdle (s : State) (c : Issue) (g : Group) (k : State) : State :=
  if s.busy c.gid then (s.drainGroup c.gid).hold c.gid g .idle else k

/-- Bytes written at the places of a range, as stores of the group performed now, with their acknowledgements (R326); those that a VF
in ERROR bars are dropped, and logged (R357), and so are those that `cut` says their severed port has not answered (R345). -/
def State.landStores (s : State) (cut : Place → Bool) (gid ctx clk va : Nat) (ps : List (Place × Nat × Nat)) (bytes : List Byte) : State :=
  ps.foldl (fun (s : State) (p, o, n) => (linePieces p n).foldl (fun (s : State) (q, o', m) =>
    let at_ := o + o'
    let data := (bytes.drop at_).take m
    if s.barred ctx true q then s.error 8 6 ctx (BitVec.ofNat 64 (va + at_)) 0
    else if cut q then s.error 2 6 ctx (BitVec.ofNat 64 (va + at_)) 0
    else if q.isGlobal then
      let (s, t) := s.storeAtHome ctx q data clk
      let mask := (List.range m).foldl (fun k i => k + 2 ^ (q.offset - q.line.offset + i)) 0
      { s with groups := s.groups.alter gid fun x : Group => x.acknowledge [] [] t q.line mask }
    else s.putBytes 0 q data) s) s

/-- The pieces of a word's operand of `size` bytes each, as a range. -/
def piecesAt (size : Nat) (l : List Located) : List (Place × Nat × Nat) := l.map fun e : Located => (e.2.2, size * e.1, size)

/-- A block written by its word, once every home can take its lines, and then `k`; else the word waits, its stores under way (R239,
R242, R345). -/
def State.storeBlock (s : State) (c : Issue) (g : Group) (size : Nat) (va : Scalar) (l : List Located) (bytes : List Byte)
    (k : State → State) : State :=
  if s.placesReady g.ctx (piecesAt size l) true then
    k ((s.setGroup c.gid { g with wait := .none }).landStores (fun _ => false) c.gid g.ctx g.clk va.toNat (piecesAt size l) bytes)
  else (s.takeOff g.ctx c.gid va.toNat (piecesAt size l) (some bytes)).hold c.gid g .writing

/-- The stores under way of a word that waited for its homes are performed. -/
def State.landBlock (s : State) (c : Issue) (g : Group) : State :=
  (s.flightsOf c.gid).foldl (fun (t : State) f =>
      t.landStores (s.unanswered f.seq) c.gid f.ctx g.clk f.va f.pieces (f.bytes.getD []))
    ((s.land c.gid).setGroup c.gid { g with wait := .none })

/-- A read of pieces of `size` bytes at their homes, as a word of the group that waits for it (R325). -/
def State.homeLoad (s : State) (c : Issue) (g : Group) (size : Nat) (l : List Located) : Load :=
  let lanes := l.map fun e : Located => ({ lane := e.1, place := e.2.2, own := [], atHome := true } : LoadLane)
  { seq := s.nextId, gid := c.gid, size := size, widen := .qword, lanes := lanes, clk := g.clk, lease := g.lease.toNat,
    rest := lanes, data := [], w := 0, hit := false, poison := none, own := true }

/-! ## `sealst` and `sealld` (R306, R307, R325) -/

/-- The block of a `sealst`: its destination is translated, and it is written. -/
def State.writeSeal (s : State) (c : Issue) (g : Group) (d b : Scalar) (plain : List Byte) : State :=
  s.accessAll c g true (sealPieces d 64 65) fun s dst =>
    let x := s.contextAt g.ctx
    let kind := sealKind b
    let block := sealedBlock (s.keyOf g.ctx) g.ctx (x.sealctr + 1) (sealBlk b) s.epoch (if kind = 0 then sealUnits b else 15) kind plain
    s.storeBlock c g 64 d dst block fun s => s.spoilRestart c.gid

/-- `SEALST` (R306). -/
def execSealst (d a b : Reg) (s : State) : Host.Outcome State Fault Refusal :=
  word (.sealst d a b) s fun c g =>
    let v := g.srcS .b b
    let n := sealUnits v + 1
    if g.wait = .writing then (s.landBlock c g).spoilRestart c.gid
    else s.ownRead c g (fun s _ g vs => s.writeSeal c g (g.srcS .d d) v (blockBytes 32 vs)) fun go =>
      if g.role ≠ .evict then s.openHandleFault c g 0x21
      else if badSeal v then s.openHandleFault c g 0x22
      else if 2 ^ 48 - 1 ≤ (s.contextAt g.ctx).sealctr then s.openHandleFault c g 0x23
      else s.checked c g true 64 65 (g.srcS .d d) <|
        if sealKind v = 0 then
          s.checked c g false 256 n (g.srcS .a a) <| s.afterFence c g fun s g =>
            s.accessAll c g false (sealPieces (g.srcS .a a) 256 n) fun s src =>
              go s g (s.newLoad c g 32 .qword (src.flatMap fun e : Located => (List.range 8).map fun k => (8 * e.1 + k, e.2.1, e.2.2.plus (32 * k))))
        else s.afterFence c g fun s g => s.writeSeal c g (g.srcS .d d) v (s.unitState g)

/-- The cause of a refused block (R306, R325): CODE 11 or 12.  Of a block that is stale and of other UNITS the stale image comes first
(log 80). -/
def State.sealCause (s : State) (ctx : Nat) (b : Scalar) (r : List Byte) : Option Nat :=
  let t := r.drop 4096
  let ctr := fieldOf t 0 8
  let x := s.contextAt ctx
  let key := s.keyOf ctx
  let iv := sealIv ctx ctr (sealBlk b)
  if fieldOf t 0x0C 4 ≠ ctx ∨ fieldOf t 0x08 4 ≠ sealBlk b ∨ fieldOf t 0x15 1 ≠ sealKind b ∨ x.sealctr < ctr then some 11
  else if ctr < x.sealctr then some 12
  else if sealKind b = 0 ∧ fieldOf t 0x14 1 ≠ sealUnits b then some 11
  else if t.drop 48 ≠ tagBytes key iv (t.take 48) (r.take 4096) then some 11
  else none

/-- The plaintext of an accepted block. -/
def State.unseal (s : State) (ctx : Nat) (r : List Byte) : List Byte :=
  let t := r.drop 4096
  gcmApply (s.keyOf ctx) (sealIv ctx (fieldOf t 0 8) (fieldOf t 8 4)) (r.take 4096)

/-- A block that has been read: a refused block traps, and an accepted one is written or loaded (R306, R325). -/
def State.acceptSeal (s : State) (c : Issue) (g : Group) (v a d : Scalar) (r : List Byte) : State :=
  match s.sealCause g.ctx v r with
  | some code => s.trapWord c g code 0 a 0
  | none =>
    if sealKind v = 1 then s.loadUnitState g (fieldOf r 0x1010 4) (s.unseal g.ctx r)
    else s.accessAll c g true (sealPieces d 256 (sealUnits v + 1)) fun s dst => s.storeBlock c g 256 d dst (s.unseal g.ctx r) id

/-- `SEALLD` (R306): its block is read at the homes, once, each piece at a moment of its own (R325); poison met is consumed (R302). -/
def execSealld (d a b : Reg) (s : State) : Host.Outcome State Fault Refusal :=
  word (.sealld d a b) s fun c g =>
    let v := g.srcS .b b
    let n := sealUnits v + 1
    match g.wait with
    | .writing => s.landBlock c g
    | .reading seq => s.endRead c seq fun s _ g vs => s.acceptSeal c g v (g.srcS .a a) (g.srcS .d d) (blockBytes 64 vs)
    | _ =>
      if g.role ≠ .restore then s.openHandleFault c g 0x21
      else if badSeal v then s.openHandleFault c g 0x22
      else s.checked c g true 64 65 (g.srcS .a a) <|
        let go : State := s.whenIdle c g <|
          s.accessAll c g false (sealPieces (g.srcS .a a) 64 65) fun s src => s.waitRead c g (s.homeLoad c g 64 src)
        if sealKind v = 0 then
          s.checked c g false 256 n (g.srcS .d d) <| s.overHazard c g true true 256 (sealPieces (g.srcS .d d) 256 n) fun _ => go
        else go

end Sys2Proof.Machine
end

