-- ==== Sys2Proof/Machine/Security.lean ====
section
/-! DEFINITION. TDISP interfaces (R357), SPDM at the ports (R355, R356) and host identities.  A message that its session does
not allow is answered with an error and changes nothing; what a response holds is not stated and not modelled. -/

namespace Sys2Proof.Machine

/-! ## TDISP (R357) -/

/-- A VF's TDISP state set. -/
def State.setTdisp (s : State) (vf : Nat) (t : Tdisp) : State := s.setVf vf { s.vfAt vf with tdisp := t }

/-- The interface of a VF exists and the package is READY. -/
def State.hasInterface (s : State) (vf : Nat) : Bool := s.isReady && (s.vfPort vf).isSome

/-- `LOCK_INTERFACE_REQUEST` over an IDE stream. -/
def execLockInterfaceRequest (vf stream : Nat) (s : State) : Host.Outcome State Fault Refusal :=
  .next <| if s.hasInterface vf ∧ (s.vfAt vf).tdisp = .unlocked then s.setVf vf { tdisp := .locked, stream := stream } else s

/-- `START_INTERFACE_REQUEST`. -/
def execStartInterfaceRequest (vf : Nat) (s : State) : Host.Outcome State Fault Refusal :=
  .next <| if s.hasInterface vf ∧ (s.vfAt vf).tdisp = .locked then s.setTdisp vf .run else s

/-- The guardian role of a page ends now: the orphan moment is this moment (R357). -/
def State.endRole (s : State) (vf page : Nat) : State :=
  match (s.pageAt vf page).bound with
  | none => s
  | some ctx => match (s.contextAt ctx).guardianOn vf page with
    | none => s
    | some g => s.loseGuardian ctx g s.time

/-- `STOP_INTERFACE_REQUEST`: every role of the VF ends. -/
def execStopInterfaceRequest (vf : Nat) (s : State) : Host.Outcome State Fault Refusal :=
  .next <| if s.hasInterface vf then (List.range 4).foldl (fun (s : State) p => s.endRole vf p) (s.setTdisp vf .unlocked) else s

/-- A locked or running interface comes to ERROR. -/
def State.interfaceError (s : State) (vf : Nat) : State :=
  match (s.vfAt vf).tdisp with
  | .locked | .run => s.setTdisp vf .error
  | .unlocked | .error => s

/-- `FROZEN_CONFIGURATION_WRITE` (R314, R357): the write, of a VF at an address, is refused and logged with that address, under a
context that the VF is bound to. -/
def execFrozenConfigurationWrite (write : Nat × Nat) (s : State) : Host.Outcome State Fault Refusal :=
  .next <| match s.isReady, s.vfPort write.1, (s.vfAt write.1).tdisp with
  | true, some port, .locked | true, some port, .run =>
    ((s.violate port (s.boundTo write.1).head? write.2).answerHost port .error).interfaceError write.1
  | _, _, _ => s

/-- `IDE_STREAM_FAILURE`: every interface of the port that is bound to the stream. -/
def execIdeStreamFailure (port stream : Nat) (s : State) : Host.Outcome State Fault Refusal :=
  .next <| if s.isReady then
      (s.vfs.filter fun e => decide (s.vfPort e.1 = some port) && decide (e.2.stream = stream)).foldl
        (fun (s : State) e => s.interfaceError e.1) s
    else s

/-! ## SPDM (R355) -/

/-- How far a session has come. -/
def Session.rank : Session → Nat
  | .none => 0
  | .versioned => 1
  | .capable => 2
  | .negotiated => 3
  | .exchanged => 4
  | .secured => 5

/-- A message that the port's session allows: the port is changed and the answer is given; else the answer is an error.
Nothing is answered while the package is not READY (R374). -/
def State.spdm (s : State) (port : Nat) (allowed : Port → Bool) (f : Port → Port) : State :=
  if s.isReady ∧ port < 4 then
    let p := s.portAt port
    if allowed p then s.setPort port { f p with answer := .done } else s.answerHost port .error
  else s

/-- The session has come as far as `r`. -/
def Port.reached (p : Port) (r : Session) : Bool := decide (r.rank ≤ p.session.rank)

/-- `GET_VERSION` begins a negotiation; a session in force ends with it. -/
def execGetVersion (port : Nat) (s : State) : Host.Outcome State Fault Refusal :=
  .next <| s.spdm port (fun _ => true) fun p => { p with session := .versioned, identity := none }

/-- `GET_CAPABILITIES`. -/
def execGetCapabilities (port : Nat) (s : State) : Host.Outcome State Fault Refusal :=
  .next <| s.spdm port (fun p => decide (p.session = .versioned)) fun p => { p with session := .capable }

/-- `NEGOTIATE_ALGORITHMS`. -/
def execNegotiateAlgorithms (port : Nat) (s : State) : Host.Outcome State Fault Refusal :=
  .next <| s.spdm port (fun p => decide (p.session = .capable)) fun p => { p with session := .negotiated }

/-- `GET_DIGESTS`. -/
def execGetDigests (port : Nat) (s : State) : Host.Outcome State Fault Refusal :=
  .next <| s.spdm port (·.reached .negotiated) id

/-- The bytes of a certificate slot. -/
def Port.certificate (p : Port) (slot : Nat) : List Byte := (p.slotCert.at? slot).getD []

/-- `GET_CERTIFICATE`: the answer is the slot's contents. -/
def execGetCertificate (port slot : Nat) (s : State) : Host.Outcome State Fault Refusal :=
  .next <|
    let t := s.spdm port (fun p => p.reached .negotiated && decide (slot < 8)) id
    if (t.portAt port).answer = .done ∧ s.isReady then t.answerHost port (.data ((t.portAt port).certificate slot) false) else t

/-- The generation of a certificate slot (R356). -/
def Port.generation (p : Port) (slot : Nat) : Nat := (p.slotGen.at? slot).getD 0

/-- `CHALLENGE` (R356): the request records the slot and its generation; the response, the challenge's next step, is an
error logged as class 12, source 6, if the slot has changed meanwhile. -/
def execChallenge (port slot : Nat) (_nonce : BitVec 256) (s : State) : Host.Outcome State Fault Refusal :=
  .next <|
    let p := s.portAt port
    match p.challenged with
    | none => s.spdm port (fun p => p.reached .negotiated && decide (slot < 8)) fun p => { p with challenged := some (slot, p.generation slot) }
    | some (k, gen) =>
      let t := s.spdm port (fun p => decide (p.generation k = gen)) id
      let t := t.setPort port { t.portAt port with challenged := none }
      if s.isReady ∧ port < 4 ∧ p.generation k ≠ gen then
        t.reportWhere (fun g => g.ports.getLsbD port) 12 6 (BitVec.ofNat 64 k)
      else if s.isReady then t
      else s

/-- `GET_MEASUREMENTS`. -/
def execGetMeasurements (port : Nat) (s : State) : Host.Outcome State Fault Refusal :=
  .next <| s.spdm port (·.reached .negotiated) id

/-- `KEY_EXCHANGE`. -/
def execKeyExchange (port slot : Nat) (s : State) : Host.Outcome State Fault Refusal :=
  .next <| s.spdm port (fun p => decide (p.session = .negotiated) && decide (slot < 8)) fun p => { p with session := .exchanged }

/-- `FINISH`: the session is secured. -/
def execFinish (port : Nat) (s : State) : Host.Outcome State Fault Refusal :=
  .next <| s.spdm port (fun p => decide (p.session = .exchanged)) fun p => { p with session := .secured }

/-- `KEY_UPDATE`. -/
def execKeyUpdate (port : Nat) (s : State) : Host.Outcome State Fault Refusal :=
  .next <| s.spdm port (fun p => decide (p.session = .secured)) id

/-- `END_SESSION`: the identity presented in it is gone. -/
def execEndSession (port : Nat) (s : State) : Host.Outcome State Fault Refusal :=
  .next <| s.spdm port (fun p => decide (p.session = .secured)) fun p => { p with session := .negotiated, identity := none }

/-- `SET_CERTIFICATE` (R356): a write or erase of a slot raises its generation; slot 0 refuses it. -/
def execSetCertificate (port slot : Nat) (chain : List Byte) (s : State) : Host.Outcome State Fault Refusal :=
  .next <| s.spdm port (fun p => p.reached .negotiated && decide (0 < slot) && decide (slot < 8)) fun p =>
    { p with slotGen := p.slotGen.put slot (p.generation slot + 1), slotCert := p.slotCert.put slot chain }

/-- `HOST_IDENTITY_PRESENTATION` (R355): in a secured session, a key that the session's requester key signed; its hash is
recorded for the port until the session ends. -/
def execHostIdentityPresentation (port : Nat) (key signature : List Byte) (s : State) : Host.Outcome State Fault Refusal :=
  .next <| s.spdm port (fun p => decide (p.session = .secured) && Config.requesterSigned port key signature) fun p =>
    { p with identity := some (Config.sha3 key) }

end Sys2Proof.Machine
end

