-- ==== Sys2Proof/Machine/System.lean ====
section
/-! DEFINITION. Traps by instruction, the return from a handler, the control registers and service requests (R40 to
R44, R292, R320 to R322). -/

namespace Sys2Proof.Machine

/-! ## Illegal words (R56) -/

/-- `ILLEGAL_INSTRUCTION` (R56): a fetched word that is no instruction traps at its issue, with TADDR its address. -/
def execIllegalInstruction (detail : BitVec 8) (s : State) : Host.Outcome State Fault Refusal :=
  match s.cur with
  | none => .fault .noIssuingGroup
  | some c => match s.groupAt c.gid with
    | none => .fault .noIssuingGroup
    | some g => .next (s.trapWord c g 1 detail.toNat (BitVec.ofNat 64 c.addr) 0)

/-! ## Breakpoints (R320) -/

/-- `TRAP` (R320). -/
def execTrap (l : BitVec 7) (s : State) : Host.Outcome State Fault Refusal :=
  word (.trap l) s fun c g => s.trapWord c g 9 (0x80 + l.toNat) (BitVec.ofNat 64 c.addr) 0

/-- `BRK` (R320): nothing in steward mode. -/
def execBrk (l : BitVec 7) (s : State) : Host.Outcome State Fault Refusal :=
  word (.brk l) s fun c g =>
    match g.mode with
    | .steward => s
    | .user => s.trapWord c g 9 l.toNat (BitVec.ofNat 64 c.addr) 0

/-! ## The return from a handler (R292, R301, R303) -/

/-- `TRET` (R292): the group resumes; after the watchdog trap that came before a restart the return performs that
restart (R303); and a preemption that waited for the handler discards the group, unless it has no restart point
(R301). -/
def execTret (s : State) : Host.Outcome State Fault Refusal :=
  word .tret s fun c g =>
    let r := g.resume
    let r := if c.mark then { r with wait := .run } else r
    let s := s.setGroup c.gid r
    (if g.tcause.setWidth 16 = (0x010E : BitVec 16) then s.discard c.gid
     else if g.evictSince.isSome ∧ g.rstate ≠ 2 then s.discard c.gid
     else s).fate .left

/-! ## Control registers (R40 to R44, R322) -/

/-- TPLN (R43). -/
def Group.tpln (g : Group) : Nat := g.tdone.toNat * 2 ^ 8 + g.tplane.toNat * 2 ^ 4 + g.tocc.toNat

/-- The value of a control register (R40 to R43). -/
def State.ctlValue (s : State) (g : Group) (i : Nat) : Scalar :=
  let x := s.contextAt g.ctx
  match i with
  | 0x00 => BitVec.ofNat 64 g.gctl
  | 0x01 => g.lease.zeroExtend 64
  | 0x02 => g.atick.zeroExtend 64
  | 0x03 => BitVec.ofNat 64 x.ckpt
  | 0x04 => g.rgnoff.zeroExtend 64
  | 0x05 => BitVec.ofNat 64 x.tvec
  | 0x06 => g.tcause
  | 0x07 => g.taddr
  | 0x08 => g.tlane
  | 0x09 => g.toff.zeroExtend 64
  | 0x0A => BitVec.ofNat 64 g.tpln
  | 0x0B => BitVec.ofNat 64 g.stack.length
  | 0x0C => BitVec.ofNat 64 g.winb
  | 0x0D => BitVec.ofNat 64 (g.batches.length * 2 ^ 4 + g.mlast.toNat)
  | 0x0E => BitVec.ofNat 64 x.sealctr
  | 0x0F => x.gdn
  | 0x10 => g.flags.zeroExtend 64
  | 0x11 => BitVec.ofNat 64 s.time
  | 0x12 => x.eclassWord
  | _ => 0

/-- A precise trap, if the group has not been killed meanwhile. -/
def State.trapFault (s : State) (c : Issue) (g : Group) (code detail : Nat) (taddr : Scalar) : State :=
  match s.groupAt c.gid with
  | none => s
  | some _ => s.trapWord c g code detail taddr 0

/-- FLAGS bits cleared by ones.  Where a word issued before raises such a flag and returns after, the flag may be set or clear then: that
is a free value, one bit for each flag of each word, by its issue number (R98, log 101). -/
def Group.clearFlags (g : Group) (v : BitVec 5) (free : Nat → BitVec 5) : Group :=
  let left (seq : Nat) (f : BitVec 5) : BitVec 5 := f &&& (~~~v ||| free seq)
  let op (o : MatOp) : MatOp := { o with raises := left o.seq o.raises }
  { g with flags := g.flags &&& ~~~v, results := g.results.map fun r : Result => { r with flags := left r.seq r.flags },
           openOps := g.openOps.map op, batches := g.batches.map fun b : Batch => { b with ops := b.ops.map op } }

/-- The state with a control register written (R41): RO fields keep their values. -/
def State.ctlPut (s : State) (c : Issue) (g : Group) (i : Nat) (v : Scalar) : State :=
  match i with
  | 0x00 => s.setGroup c.gid { g with ftz := v.getLsbD 2, rmode := v.setWidth 2 }
  | 0x01 => s.setGroup c.gid { g with lease := v.setWidth 8 }
  | 0x02 => s.setGroup c.gid { g with atick := v.setWidth 8 }
  | 0x03 => { s with contexts := s.contexts.alter g.ctx fun x => { x with ckpt := v.toNat } }
  | 0x04 =>
    let slot := s.slotOf g
    let g' := { g with rgnoff := v.setWidth 20 }
    if slot = 0 then s.setGroup c.gid g'
    else if g.wait = .writing then (s.setGroup c.gid { g' with wait := .none }).landWrites c.gid g.clk
    else match s.placesOf g.ctx (slot + 0x1C) 4 true with
      | .error (a, code, d) => (s.logIllFormed g.ctx (BitVec.ofNat 64 a) code d).trapFault c g code d (BitVec.ofNat 64 a)
      | .ok ps =>
        if !s.placesReady g.ctx ps true || s.slotLeft c.gid then
          (s.takeOff g.ctx c.gid (slot + 0x1C) ps (some (toBytes v.toNat 4))).hold c.gid g .writing
        else ((s.setGroup c.gid { g' with wait := .none }).writePlaces g.ctx (slot + 0x1C) ps (toBytes v.toNat 4) g.clk).1
  | 0x05 => { s with contexts := s.contexts.alter g.ctx fun x => { x with tvec := v.toNat } }
  | 0x06 => s.setGroup c.gid { g with tcause := v }
  | 0x07 => s.setGroup c.gid { g with taddr := v }
  | 0x08 => s.setGroup c.gid { g with tlane := v }
  | 0x09 => s.setGroup c.gid { g with toff := v.setWidth 20 }
  | 0x0A => s.setGroup c.gid { g with tdone := (v >>> 8).setWidth 4, tplane := (v >>> 4).setWidth 2, tocc := v.setWidth 4 }
  | 0x10 => { s with draws := s.draws + s.nextId }.setGroup c.gid
      (g.clearFlags (v.setWidth 5) fun seq => (Config.unstated (s.draws + seq)).setWidth 5)
  | _ => s

/-- `CTLRD` (R322). -/
def execCtlrd (d : Reg) (l : BitVec 7) (s : State) : Host.Outcome State Fault Refusal :=
  word (.ctlrd d l) s fun c g => s.scalResult c g d [s.ctlValue g l.toNat] 0

/-- `CTLWR` (R322): at issue. -/
def execCtlwr (a : Reg) (l : BitVec 7) (s : State) : Host.Outcome State Fault Refusal :=
  word (.ctlwr a l) s fun c g => s.ctlPut c g l.toNat (g.srcS .a a)

/-! ## Service requests (R321) -/

/-- The service notice sent, its number in the slot (R296), and the group parked for its reply: an orphan suspends (R346), and a group that a
preemption waits for is discarded (R301).  A fault of the slot may have killed the context first, and a slot write that is not
performed raises a notice of its own before this one (R300, R357). -/
def State.service (s : State) (c : Issue) (g : Group) (l : BitVec 7) : State :=
  let g := ({ g with svcSeq := g.svcSeq + 1, rstate := 2 } : Group).record 13 l.toNat 0 0 g.off c.plane
  let s := (s.setGroup c.gid g).spoilRestart c.gid
  let s := if (s.groupAt c.gid).isSome ∧ s.slotOf g ≠ 0 then s.slotWrite c.gid g 0x3C (toBytes g.svcSeq.toNat 4) else s
  let alive := (s.groupAt c.gid).isSome
  let x := s.contextAt g.ctx
  let s := if alive then s.hold c.gid g (.svc x.nextNotice) else s.fate .left
  if !alive then s
  else
    let s := s.raise g.ctx
      { (default : Notice) with
        type := 2, gix := g.gix, grx := g.grx, toff := g.off, svcSeq := g.svcSeq, tcause := g.tcause,
        args := [g.scalar 16, g.scalar 17, g.scalar 18, g.scalar 19], gid := some c.gid }
    if x.state = .orphaned then (s.suspend g.ctx).fate .left
    else if g.evictSince.isSome then ((if x.state = .suspended then s.dropNotices g.ctx else s).discard c.gid).fate .left
    else s

/-- `SVC` (R321): in steward mode a steward fault (R291). -/
def execSvc (l : BitVec 7) (s : State) : Host.Outcome State Fault Refusal :=
  word (.svc l) s fun c g =>
    match g.mode, g.wait with
    | .steward, _ => s.trapWord c g 13 l.toNat 0 0
    | .user, .over => s
    | .user, .svc _ => s.fate .hold
    | .user, _ => s.afterFence c g fun s g => s.service c g l

end Sys2Proof.Machine
end

