-- ==== Sys2Proof/Machine/Dispatch.lean ====
section
/-! DEFINITION. The meaning of every instruction, one arm each. -/

namespace Sys2Proof.Machine

def exec (i : Instr) (s : State) : Host.Outcome State Fault Refusal :=
  match i with
  | .sadd d a b => Sys2Proof.Machine.execSadd d a b s
  | .ssub d a b => Sys2Proof.Machine.execSsub d a b s
  | .smul d a b => Sys2Proof.Machine.execSmul d a b s
  | .smulhI d a b => Sys2Proof.Machine.execSmulhI d a b s
  | .smulhN d a b => Sys2Proof.Machine.execSmulhN d a b s
  | .sdivI d a b => Sys2Proof.Machine.execSdivI d a b s
  | .sdivN d a b => Sys2Proof.Machine.execSdivN d a b s
  | .smodI d a b => Sys2Proof.Machine.execSmodI d a b s
  | .smodN d a b => Sys2Proof.Machine.execSmodN d a b s
  | .sand d a b => Sys2Proof.Machine.execSand d a b s
  | .sor d a b => Sys2Proof.Machine.execSor d a b s
  | .sxor d a b => Sys2Proof.Machine.execSxor d a b s
  | .sandn d a b => Sys2Proof.Machine.execSandn d a b s
  | .sshl d a b => Sys2Proof.Machine.execSshl d a b s
  | .sshr d a b => Sys2Proof.Machine.execSshr d a b s
  | .ssra d a b => Sys2Proof.Machine.execSsra d a b s
  | .sminI d a b => Sys2Proof.Machine.execSminI d a b s
  | .sminN d a b => Sys2Proof.Machine.execSminN d a b s
  | .smaxI d a b => Sys2Proof.Machine.execSmaxI d a b s
  | .smaxN d a b => Sys2Proof.Machine.execSmaxN d a b s
  | .ssltI d a b => Sys2Proof.Machine.execSsltI d a b s
  | .ssltN d a b => Sys2Proof.Machine.execSsltN d a b s
  | .sseq d a b => Sys2Proof.Machine.execSseq d a b s
  | .sclz d a => Sys2Proof.Machine.execSclz d a s
  | .spop d a => Sys2Proof.Machine.execSpop d a s
  | .smov d a => Sys2Proof.Machine.execSmov d a s
  | .vadd d a b => Sys2Proof.Machine.execVadd d a b s
  | .vsub d a b => Sys2Proof.Machine.execVsub d a b s
  | .vmul d a b => Sys2Proof.Machine.execVmul d a b s
  | .vmulhI d a b => Sys2Proof.Machine.execVmulhI d a b s
  | .vmulhN d a b => Sys2Proof.Machine.execVmulhN d a b s
  | .vmad d a b => Sys2Proof.Machine.execVmad d a b s
  | .vminI d a b => Sys2Proof.Machine.execVminI d a b s
  | .vminN d a b => Sys2Proof.Machine.execVminN d a b s
  | .vmaxI d a b => Sys2Proof.Machine.execVmaxI d a b s
  | .vmaxN d a b => Sys2Proof.Machine.execVmaxN d a b s
  | .vabs d a => Sys2Proof.Machine.execVabs d a s
  | .vand d a b => Sys2Proof.Machine.execVand d a b s
  | .vor d a b => Sys2Proof.Machine.execVor d a b s
  | .vxor d a b => Sys2Proof.Machine.execVxor d a b s
  | .vandn d a b => Sys2Proof.Machine.execVandn d a b s
  | .vshl d a b => Sys2Proof.Machine.execVshl d a b s
  | .vshr d a b => Sys2Proof.Machine.execVshr d a b s
  | .vsra d a b => Sys2Proof.Machine.execVsra d a b s
  | .vclz d a => Sys2Proof.Machine.execVclz d a s
  | .vpop d a => Sys2Proof.Machine.execVpop d a s
  | .vbrev d a => Sys2Proof.Machine.execVbrev d a s
  | .vsel d a b => Sys2Proof.Machine.execVsel d a b s
  | .vcmpEq a b => Sys2Proof.Machine.execVcmpEq a b s
  | .vcmpNe a b => Sys2Proof.Machine.execVcmpNe a b s
  | .vcmpLtI a b => Sys2Proof.Machine.execVcmpLtI a b s
  | .vcmpLtN a b => Sys2Proof.Machine.execVcmpLtN a b s
  | .vcmpLeI a b => Sys2Proof.Machine.execVcmpLeI a b s
  | .vcmpLeN a b => Sys2Proof.Machine.execVcmpLeN a b s
  | .vdp4I d a b => Sys2Proof.Machine.execVdp4I d a b s
  | .vdp4N d a b => Sys2Proof.Machine.execVdp4N d a b s
  | .vfadd d a b => Sys2Proof.Machine.execVfadd d a b s
  | .vfsub d a b => Sys2Proof.Machine.execVfsub d a b s
  | .vfmul d a b => Sys2Proof.Machine.execVfmul d a b s
  | .vffma d a b => Sys2Proof.Machine.execVffma d a b s
  | .vfmin d a b => Sys2Proof.Machine.execVfmin d a b s
  | .vfmax d a b => Sys2Proof.Machine.execVfmax d a b s
  | .vfabs d a => Sys2Proof.Machine.execVfabs d a s
  | .vfneg d a => Sys2Proof.Machine.execVfneg d a s
  | .vfcmpEq a b => Sys2Proof.Machine.execVfcmpEq a b s
  | .vfcmpLt a b => Sys2Proof.Machine.execVfcmpLt a b s
  | .vfcmpLe a b => Sys2Proof.Machine.execVfcmpLe a b s
  | .vfcmpUn a b => Sys2Proof.Machine.execVfcmpUn a b s
  | .vfrcp d a => Sys2Proof.Machine.execVfrcp d a s
  | .vfrsq d a => Sys2Proof.Machine.execVfrsq d a s
  | .vfsqrt d a => Sys2Proof.Machine.execVfsqrt d a s
  | .vfexp2 d a => Sys2Proof.Machine.execVfexp2 d a s
  | .vflog2 d a => Sys2Proof.Machine.execVflog2 d a s
  | .vftanh d a => Sys2Proof.Machine.execVftanh d a s
  | .vhadd d a b => Sys2Proof.Machine.execVhadd d a b s
  | .vhmul d a b => Sys2Proof.Machine.execVhmul d a b s
  | .vhfma d a b => Sys2Proof.Machine.execVhfma d a b s
  | .vbadd d a b => Sys2Proof.Machine.execVbadd d a b s
  | .vbmul d a b => Sys2Proof.Machine.execVbmul d a b s
  | .vbfma d a b => Sys2Proof.Machine.execVbfma d a b s
  | .vcvtFI d a => Sys2Proof.Machine.execVcvtFI d a s
  | .vcvtIF d a => Sys2Proof.Machine.execVcvtIF d a s
  | .vcvtFH d a => Sys2Proof.Machine.execVcvtFH d a s
  | .vcvtHF d a => Sys2Proof.Machine.execVcvtHF d a s
  | .vcvtFB d a => Sys2Proof.Machine.execVcvtFB d a s
  | .vcvtBF d a => Sys2Proof.Machine.execVcvtBF d a s
  | .vpackE4 d a => Sys2Proof.Machine.execVpackE4 d a s
  | .vpackE5 d a => Sys2Proof.Machine.execVpackE5 d a s
  | .vpackLx d a => Sys2Proof.Machine.execVpackLx d a s
  | .vunpkE4 d a => Sys2Proof.Machine.execVunpkE4 d a s
  | .vunpkE5 d a => Sys2Proof.Machine.execVunpkE5 d a s
  | .vunpkLx d a => Sys2Proof.Machine.execVunpkLx d a s
  | .vshfl d a b => Sys2Proof.Machine.execVshfl d a b s
  | .vrot d a b => Sys2Proof.Machine.execVrot d a b s
  | .vbcast d a b => Sys2Proof.Machine.execVbcast d a b s
  | .vredAddI d a => Sys2Proof.Machine.execVredAddI d a s
  | .vredAddF d a => Sys2Proof.Machine.execVredAddF d a s
  | .vredMinI d a => Sys2Proof.Machine.execVredMinI d a s
  | .vredMaxI d a => Sys2Proof.Machine.execVredMaxI d a s
  | .vredMaxF d a => Sys2Proof.Machine.execVredMaxF d a s
  | .vscanAddI d a => Sys2Proof.Machine.execVscanAddI d a s
  | .vballot d a => Sys2Proof.Machine.execVballot d a s
  | .vmovs d a => Sys2Proof.Machine.execVmovs d a s
  | .smovv d a b => Sys2Proof.Machine.execSmovv d a b s
  | .vif => Sys2Proof.Machine.execVif s
  | .velse => Sys2Proof.Machine.execVelse s
  | .vendif => Sys2Proof.Machine.execVendif s
  | .xmset a => Sys2Proof.Machine.execXmset a s
  | .xmget d => Sys2Proof.Machine.execXmget d s
  | .plset a => Sys2Proof.Machine.execPlset a s
  | .plsel l => Sys2Proof.Machine.execPlsel l s
  | .pljoin => Sys2Proof.Machine.execPljoin s
  | .plmask l => Sys2Proof.Machine.execPlmask l s
  | .plocc d => Sys2Proof.Machine.execPlocc d s
  | .vldB d a b => Sys2Proof.Machine.execVldB d a b s
  | .vldBI d a b => Sys2Proof.Machine.execVldBI d a b s
  | .vldH d a b => Sys2Proof.Machine.execVldH d a b s
  | .vldHI d a b => Sys2Proof.Machine.execVldHI d a b s
  | .vldW d a b => Sys2Proof.Machine.execVldW d a b s
  | .vldD d a b => Sys2Proof.Machine.execVldD d a b s
  | .vldQ d a b => Sys2Proof.Machine.execVldQ d a b s
  | .vstB d a b => Sys2Proof.Machine.execVstB d a b s
  | .vstH d a b => Sys2Proof.Machine.execVstH d a b s
  | .vstW d a b => Sys2Proof.Machine.execVstW d a b s
  | .vstD d a b => Sys2Proof.Machine.execVstD d a b s
  | .vstQ d a b => Sys2Proof.Machine.execVstQ d a b s
  | .sldW d a b => Sys2Proof.Machine.execSldW d a b s
  | .sldD d a b => Sys2Proof.Machine.execSldD d a b s
  | .sstW d a b => Sys2Proof.Machine.execSstW d a b s
  | .sstD d a b => Sys2Proof.Machine.execSstD d a b s
  | .vpref a b => Sys2Proof.Machine.execVpref a b s
  | .vatomAdd d a b => Sys2Proof.Machine.execVatomAdd d a b s
  | .vatomAddf d a b => Sys2Proof.Machine.execVatomAddf d a b s
  | .vatomMinI d a b => Sys2Proof.Machine.execVatomMinI d a b s
  | .vatomMaxI d a b => Sys2Proof.Machine.execVatomMaxI d a b s
  | .vatomAnd d a b => Sys2Proof.Machine.execVatomAnd d a b s
  | .vatomOr d a b => Sys2Proof.Machine.execVatomOr d a b s
  | .vatomXor d a b => Sys2Proof.Machine.execVatomXor d a b s
  | .vatomXchg d a b => Sys2Proof.Machine.execVatomXchg d a b s
  | .vatomCas d a b => Sys2Proof.Machine.execVatomCas d a b s
  | .satomAdd d a b => Sys2Proof.Machine.execSatomAdd d a b s
  | .satomCas d a b => Sys2Proof.Machine.execSatomCas d a b s
  | .gredAdd d a b => Sys2Proof.Machine.execGredAdd d a b s
  | .gredAddf d a b => Sys2Proof.Machine.execGredAddf d a b s
  | .gredMaxI d a b => Sys2Proof.Machine.execGredMaxI d a b s
  | .sqredAddf d a b => Sys2Proof.Machine.execSqredAddf d a b s
  | .sqredAdd d a b => Sys2Proof.Machine.execSqredAdd d a b s
  | .sqopen d a b => Sys2Proof.Machine.execSqopen d a b s
  | .sqclose a => Sys2Proof.Machine.execSqclose a s
  | .fenceG => Sys2Proof.Machine.execFenceG s
  | .fenceC => Sys2Proof.Machine.execFenceC s
  | .fenceD => Sys2Proof.Machine.execFenceD s
  | .fenceP => Sys2Proof.Machine.execFenceP s
  | .fenceS => Sys2Proof.Machine.execFenceS s
  | .xfence => Sys2Proof.Machine.execXfence s
  | .barArr l => Sys2Proof.Machine.execBarArr l s
  | .barWt l => Sys2Proof.Machine.execBarWt l s
  | .barSync l => Sys2Proof.Machine.execBarSync l s
  | .barQ d l => Sys2Proof.Machine.execBarQ d l s
  | .mma d sa sb fmt bsel => Sys2Proof.Machine.execMma d sa sb fmt bsel s
  | .mmas d sa sb fmt bsel => Sys2Proof.Machine.execMmas d sa sb fmt bsel s
  | .mzero d => Sys2Proof.Machine.execMzero d s
  | .mbatch d => Sys2Proof.Machine.execMbatch d s
  | .mwait a => Sys2Proof.Machine.execMwait a s
  | .mquery d a => Sys2Proof.Machine.execMquery d a s
  | .cpy d a b => Sys2Proof.Machine.execCpy d a b s
  | .cpyt d a b => Sys2Proof.Machine.execCpyt d a b s
  | .cpyq d a b => Sys2Proof.Machine.execCpyq d a b s
  | .cwp d a => Sys2Proof.Machine.execCwp d a s
  | .cwait a b => Sys2Proof.Machine.execCwait a b s
  | .launch d a => Sys2Proof.Machine.execLaunch d a s
  | .lquery d a => Sys2Proof.Machine.execLquery d a s
  | .saddi d a imm => Sys2Proof.Machine.execSaddi d a imm s
  | .sandi d a imm => Sys2Proof.Machine.execSandi d a imm s
  | .sori d a imm => Sys2Proof.Machine.execSori d a imm s
  | .sxori d a imm => Sys2Proof.Machine.execSxori d a imm s
  | .sshli d a n => Sys2Proof.Machine.execSshli d a n s
  | .sshri d a n => Sys2Proof.Machine.execSshri d a n s
  | .ssrai d a n => Sys2Proof.Machine.execSsrai d a n s
  | .sslti d a imm => Sys2Proof.Machine.execSslti d a imm s
  | .vaddi d a imm => Sys2Proof.Machine.execVaddi d a imm s
  | .vandi d a imm => Sys2Proof.Machine.execVandi d a imm s
  | .vori d a imm => Sys2Proof.Machine.execVori d a imm s
  | .vxori d a imm => Sys2Proof.Machine.execVxori d a imm s
  | .vshli d a n => Sys2Proof.Machine.execVshli d a n s
  | .vshri d a n => Sys2Proof.Machine.execVshri d a n s
  | .vsrai d a n => Sys2Proof.Machine.execVsrai d a n s
  | .vmovi d imm => Sys2Proof.Machine.execVmovi d imm s
  | .vldWO d a imm => Sys2Proof.Machine.execVldWO d a imm s
  | .vldDO d a imm => Sys2Proof.Machine.execVldDO d a imm s
  | .vstWO d a imm => Sys2Proof.Machine.execVstWO d a imm s
  | .vstDO d a imm => Sys2Proof.Machine.execVstDO d a imm s
  | .sldWO d a imm => Sys2Proof.Machine.execSldWO d a imm s
  | .sldDO d a imm => Sys2Proof.Machine.execSldDO d a imm s
  | .sstWO d a imm => Sys2Proof.Machine.execSstWO d a imm s
  | .sstDO d a imm => Sys2Proof.Machine.execSstDO d a imm s
  | .smovi d imm => Sys2Proof.Machine.execSmovi d imm s
  | .slui d imm => Sys2Proof.Machine.execSlui d imm s
  | .saddpc d imm => Sys2Proof.Machine.execSaddpc d imm s
  | .bra off => Sys2Proof.Machine.execBra off s
  | .bz a off => Sys2Proof.Machine.execBz a off s
  | .bnz a off => Sys2Proof.Machine.execBnz a off s
  | .bneg a off => Sys2Proof.Machine.execBneg a off s
  | .bnn a off => Sys2Proof.Machine.execBnn a off s
  | .bloop a off => Sys2Proof.Machine.execBloop a off s
  | .bcall a off => Sys2Proof.Machine.execBcall a off s
  | .bany off => Sys2Proof.Machine.execBany off s
  | .nop => Sys2Proof.Machine.execNop s
  | .park => Sys2Proof.Machine.execPark s
  | .exit => Sys2Proof.Machine.execExit s
  | .jmp a => Sys2Proof.Machine.execJmp a s
  | .ret a => Sys2Proof.Machine.execRet a s
  | .wbase l => Sys2Proof.Machine.execWbase l s
  | .wget d => Sys2Proof.Machine.execWget d s
  | .region a b => Sys2Proof.Machine.execRegion a b s
  | .trap l => Sys2Proof.Machine.execTrap l s
  | .brk l => Sys2Proof.Machine.execBrk l s
  | .tret => Sys2Proof.Machine.execTret s
  | .ctlrd d l => Sys2Proof.Machine.execCtlrd d l s
  | .ctlwr a l => Sys2Proof.Machine.execCtlwr a l s
  | .svc l => Sys2Proof.Machine.execSvc l s
  | .tick a => Sys2Proof.Machine.execTick a s
  | .spin => Sys2Proof.Machine.execSpin s
  | .sealst d a b => Sys2Proof.Machine.execSealst d a b s
  | .sealld d a b => Sys2Proof.Machine.execSealld d a b s
  | .dsave a => Sys2Proof.Machine.execDsave a s
  | .dload a => Sys2Proof.Machine.execDload a s
  | .resultReturn g k => Sys2Proof.Machine.execResultReturn g k s
  | .loadReturn seq => Sys2Proof.Machine.execLoadReturn seq s
  | .automaticTick g => Sys2Proof.Machine.execAutomaticTick g s
  | .spinDemotionEnd g => Sys2Proof.Machine.execSpinDemotionEnd g s
  | .storeBufferDrain seq => Sys2Proof.Machine.execStoreBufferDrain seq s
  | .storeBufferAgeLimit seq => Sys2Proof.Machine.execStoreBufferAgeLimit seq s
  | .scratchStoreArrival seq => Sys2Proof.Machine.execScratchStoreArrival seq s
  | .atomicPerform seq => Sys2Proof.Machine.execAtomicPerform seq s
  | .atomicReturn seq => Sys2Proof.Machine.execAtomicReturn seq s
  | .fenceComplete g => Sys2Proof.Machine.execFenceComplete g s
  | .matrixExecutionStart g => Sys2Proof.Machine.execMatrixExecutionStart g s
  | .batchComplete g => Sys2Proof.Machine.execBatchComplete g s
  | .copyUnitDelivery ch peer => Sys2Proof.Machine.execCopyUnitDelivery ch peer s
  | .contributionArrival seq => Sys2Proof.Machine.execContributionArrival seq s
  | .tableWalkComplete core ctx va => Sys2Proof.Machine.execTableWalkComplete core ctx va s
  | .signatureCompare g => Sys2Proof.Machine.execSignatureCompare g s
  | .launchSubmit vf page slot => Sys2Proof.Machine.execLaunchSubmit vf page slot s
  | .unitPlacement ctx => Sys2Proof.Machine.execUnitPlacement ctx s
  | .launchComplete launch => Sys2Proof.Machine.execLaunchComplete launch s
  | .graphWalkerStep graph => Sys2Proof.Machine.execGraphWalkerStep graph s
  | .timeSliceEnd glade => Sys2Proof.Machine.execTimeSliceEnd glade s
  | .preemption ctx => Sys2Proof.Machine.execPreemption ctx s
  | .groupRestart g => Sys2Proof.Machine.execGroupRestart g s
  | .regionWatchdog g => Sys2Proof.Machine.execRegionWatchdog g s
  | .stewardWaitTimeout g => Sys2Proof.Machine.execStewardWaitTimeout g s
  | .evictionGroupStart ctx => Sys2Proof.Machine.execEvictionGroupStart ctx s
  | .restorePlacement ctx => Sys2Proof.Machine.execRestorePlacement ctx s
  | .rebase => Sys2Proof.Machine.execRebase s
  | .hostWrite fn addr data => Sys2Proof.Machine.execHostWrite fn addr data s
  | .hostRead fn addr len cached => Sys2Proof.Machine.execHostRead fn addr len cached s
  | .birsp port line data => Sys2Proof.Machine.execBirsp port line data s
  | .biconflict port line => Sys2Proof.Machine.execBiconflict port line s
  | .hostEvictionReport port line => Sys2Proof.Machine.execHostEvictionReport port line s
  | .snpinv port addr => Sys2Proof.Machine.execSnpinv port addr s
  | .snpdata port addr => Sys2Proof.Machine.execSnpdata port addr s
  | .snpcur port addr => Sys2Proof.Machine.execSnpcur port addr s
  | .cxlCacheResponse port addr home owned => Sys2Proof.Machine.execCxlCacheResponse port addr home owned s
  | .registerWrite fn off data => Sys2Proof.Machine.execRegisterWrite fn off data s
  | .hbeat vf page => Sys2Proof.Machine.execHbeat vf page s
  | .ntail vf page value => Sys2Proof.Machine.execNtail vf page value s
  | .bind vf page arg0 => Sys2Proof.Machine.execBind vf page arg0 s
  | .set vf page arg0 => Sys2Proof.Machine.execSet vf page arg0 s
  | .assignch vf page arg0 => Sys2Proof.Machine.execAssignch vf page arg0 s
  | .assignchReset vf page arg0 => Sys2Proof.Machine.execAssignchReset vf page arg0 s
  | .assignchUnassign vf page arg0 => Sys2Proof.Machine.execAssignchUnassign vf page arg0 s
  | .setsucc vf page arg0 => Sys2Proof.Machine.execSetsucc vf page arg0 s
  | .share vf page arg0 => Sys2Proof.Machine.execShare vf page arg0 s
  | .join vf page arg0 => Sys2Proof.Machine.execJoin vf page arg0 s
  | .unshare vf page arg0 => Sys2Proof.Machine.execUnshare vf page arg0 s
  | .transfer vf page arg0 => Sys2Proof.Machine.execTransfer vf page arg0 s
  | .adopt vf page arg0 => Sys2Proof.Machine.execAdopt vf page arg0 s
  | .resume vf page arg0 => Sys2Proof.Machine.execResume vf page arg0 s
  | .claim vf page arg0 => Sys2Proof.Machine.execClaim vf page arg0 s
  | .reply vf page arg0 => Sys2Proof.Machine.execReply vf page arg0 s
  | .evict vf page arg0 => Sys2Proof.Machine.execEvict vf page arg0 s
  | .restore vf page arg0 => Sys2Proof.Machine.execRestore vf page arg0 s
  | .release vf page arg0 => Sys2Proof.Machine.execRelease vf page arg0 s
  | .gcreate port arg0 => Sys2Proof.Machine.execGcreate port arg0 s
  | .gdestroy port arg0 => Sys2Proof.Machine.execGdestroy port arg0 s
  | .gset port arg0 => Sys2Proof.Machine.execGset port arg0 s
  | .startCold port arg0 => Sys2Proof.Machine.execStartCold port arg0 s
  | .startWarm port arg0 => Sys2Proof.Machine.execStartWarm port arg0 s
  | .sidebandStartRequest cold => Sys2Proof.Machine.execSidebandStartRequest cold s
  | .guardianLoss ctx port => Sys2Proof.Machine.execGuardianLoss ctx port s
  | .severanceTimeout seq => Sys2Proof.Machine.execSeveranceTimeout seq s
  | .reapTimeout ctx => Sys2Proof.Machine.execReapTimeout ctx s
  | .lockInterfaceRequest vf stream => Sys2Proof.Machine.execLockInterfaceRequest vf stream s
  | .startInterfaceRequest vf => Sys2Proof.Machine.execStartInterfaceRequest vf s
  | .stopInterfaceRequest vf => Sys2Proof.Machine.execStopInterfaceRequest vf s
  | .frozenConfigurationWrite write => Sys2Proof.Machine.execFrozenConfigurationWrite write s
  | .ideStreamFailure port stream => Sys2Proof.Machine.execIdeStreamFailure port stream s
  | .getVersion port => Sys2Proof.Machine.execGetVersion port s
  | .getCapabilities port => Sys2Proof.Machine.execGetCapabilities port s
  | .negotiateAlgorithms port => Sys2Proof.Machine.execNegotiateAlgorithms port s
  | .getDigests port => Sys2Proof.Machine.execGetDigests port s
  | .getCertificate port slot => Sys2Proof.Machine.execGetCertificate port slot s
  | .challenge port slot nonce => Sys2Proof.Machine.execChallenge port slot nonce s
  | .getMeasurements port => Sys2Proof.Machine.execGetMeasurements port s
  | .keyExchange port slot => Sys2Proof.Machine.execKeyExchange port slot s
  | .finish port => Sys2Proof.Machine.execFinish port s
  | .keyUpdate port => Sys2Proof.Machine.execKeyUpdate port s
  | .endSession port => Sys2Proof.Machine.execEndSession port s
  | .setCertificate port slot chain => Sys2Proof.Machine.execSetCertificate port slot chain s
  | .hostIdentityPresentation port key signature => Sys2Proof.Machine.execHostIdentityPresentation port key signature s
  | .linkDown link => Sys2Proof.Machine.execLinkDown link s
  | .linkWheelSlot link dir => Sys2Proof.Machine.execLinkWheelSlot link dir s
  | .peerRequestArrival link addr data len => Sys2Proof.Machine.execPeerRequestArrival link addr data len s
  | .throttleStep slice hot => Sys2Proof.Machine.execThrottleStep slice hot s
  | .thermalStop => Sys2Proof.Machine.execThermalStop s
  | .powerOff => Sys2Proof.Machine.execPowerOff s
  | .illegalInstruction detail => Sys2Proof.Machine.execIllegalInstruction detail s
  | .powerOn => Sys2Proof.Machine.execPowerOn s
  | .startCompletion ok cause => Sys2Proof.Machine.execStartCompletion ok cause s
  | .linkUp link => Sys2Proof.Machine.execLinkUp link s
  | .linkLevelReplay link => Sys2Proof.Machine.execLinkLevelReplay link s
  | .rangeInvalidation ctx base size => Sys2Proof.Machine.execRangeInvalidation ctx base size s
  | .scrubbing slice off outcome => Sys2Proof.Machine.execScrubbing slice off outcome s

end Sys2Proof.Machine
end

