-- ==== Sys2Proof/Machine/Loader.lean ====
section
/-! DEFINITION. A program put in place from outside the machine: what a start, a guardian's commands, a host's writes of
tables and code, and a launch would bring about, at one stroke (log 2). -/

namespace Sys2Proof.Machine

/-- The record of the program: one group of width 32 with 32 registers, its code at 0x3000. -/
def loaderRecord : Record :=
  { (default : Record) with entry := 0x3000, width := 1, reads := [], writes := [] }

/-- The context that runs the program: context 0, guarded from VF 0 of port 0, its tables at 0x1000, a handler at 0x4000. -/
def loaderContext (time : Nat) : Context :=
  let g : Guardian := { port := 0, vf := 0, page := 0, identity := 0, last := time }
  { Context.initial 0 false g 0 with cfg := { Settings.initial with root := 0x1000 }, tvec := 0x4000, nextLid := 1 }

/-- The launch of the program, its one unit placed. -/
def loaderLaunch (gid : Nat) : Launch :=
  { loaderRecord.launch 0 1 0 none with started := true, next := 1, gids := [gid] }

/-- The grove of the program, on core 0. -/
def loaderGrove (launch : Nat) : Grove :=
  let bar : Barrier := { (default : Barrier) with expd := 1 }
  { ctx := 0, launch := launch, grx := 0, copy := 0, core := 0, upper := none, scratch := [],
    bars := (List.range 16).map fun b => (b, bar), alive := 1, placed := true, kept := false, ends := [] }

/-- Tables that map the first GiB of the address space onto the first GiB of the glade (R315, R316): a level-0 entry at
0x1000 to a level-1 table at 0x2000, whose entry 0 is a writable leaf. -/
def Memory.withTables (m : Memory) : Memory := (m.writeN 0x1000 (toBytes 0x2001 8)).writeN 0x2000 (toBytes 0x83 8)

/-- A program of the bytes `code` loaded, and its group about to issue its first word. -/
def State.loaded (s : State) (code : List Byte) : State :=
  let k := s.nextId
  let gid := k + 2
  let s := { s with
    boot := { s.boot with state := .ready, cold := true, powered := true, trained := true },
    glades := [(0, { Glade.initial 1 0 0 with ports := 1 })], contexts := [(0, loaderContext s.time)], ctxKeys := [(0, s.draws + 1)],
    dram := s.dram.withTables.writeN 0x3000 code, keys := s.keys.filter fun e => decide (1024 ≤ e.1) }
  let s := { s with
    pages := s.pages.put 0 ((s.pageAt 0 0).rebind (some 0)), launches := [(k, loaderLaunch gid)], groves := [(k + 1, loaderGrove k)],
    groups := [(gid, newGroup 0 k (k + 1) 0 0 0 0 loaderRecord 0)], nextId := k + 3, draws := s.draws + 1 }
  { s with agenda := [.issue 0 0], cur := none, cores := [], lines := [], loads := [], entries := [], locals := [], atoms := [], contribs := [],
           slotWrites := [], flights := [], prefetches := [], asks := [], conflicts := [], zeroed := [],
           poison := s.poison.filter fun e => decide (4096 ≤ e.1), boot := { s.boot with overs := [], lowered := 0, throttleAt := none, hotAt := none } }

end Sys2Proof.Machine
end

