-- ==== Sys2Proof/Machine/Next.lean ====
section
/-! DEFINITION. What a step does: what is due before anything else; the next choice of the agenda; and with no choice
left, what the device does by itself. -/

namespace Sys2Proof.Machine

/-! ## What is due (R220, R343, R344, R351) -/

/-- A group whose automatic tick is due: no step comes before it. -/
def State.tickOf (s : State) : Option Nat := (s.groups.find? fun e => e.2.tickDue).map (·.1)

/-- A guardian whose orphan moment has come: its context and port. -/
def State.lossOf (s : State) : Option (Nat × Nat) :=
  s.contexts.findSome? fun e => (e.2.guardians.find? fun g => decide (e.2.orphanMoment g ≤ s.time)).map fun g => (e.1, g.port)

/-- A context whose reap timer has ended. -/
def State.reapOf (s : State) : Option Nat :=
  (s.contexts.find? fun e => e.2.reapMoment.any fun t => decide (t ≤ s.time)).map (·.1)

/-- A store-buffer entry whose age has an effect (R218, R309). -/
def State.agedOf (s : State) : Option Nat := (s.entries.find? s.aged).map (·.seq)

/-- Power has stayed above its limit for too long (R376). -/
def State.stopDue (s : State) : Bool := s.boot.stopMoment.any fun t => decide (t ≤ s.time)

/-- The event that comes before every other step. -/
def State.due (s : State) : Option Instr :=
  match s.tickOf with
  | some gid => some (.automaticTick gid)
  | none => match s.lossOf with
    | some (ctx, port) => some (.guardianLoss ctx port)
    | none => match s.reapOf with
      | some ctx => some (.reapTimeout ctx)
      | none => if s.stopDue then some .thermalStop else s.agedOf.map .storeBufferAgeLimit

/-! ## Time -/

/-- The orphan moments and ends of reap timers of a context. -/
def Context.deadlines (x : Context) : List Nat := x.guardians.map x.orphanMoment ++ x.reapMoment.toList

/-- The device time at which an entry will have waited for 4,096 clocks of its core, as its clock now runs (R165, R218). -/
def State.ageMoment (s : State) (e : Entry) : Nat :=
  let c := s.coreAt e.core
  let left := (e.born + 4096) * 800 - c.phase
  s.time + (left + s.stepOf c * 21 - 1) / (s.stepOf c * 21)

/-- The moments past which time does not move on by itself. -/
def State.deadlines (s : State) : List Nat :=
  (s.contexts.flatMap fun e => e.2.deadlines) ++ s.boot.stopMoment.toList ++ s.boot.lowerMoment.toList ++
    (s.entries.filter fun e => !e.draining || e.held).map s.ageMoment

/-- Device time moves on by `ns`, but not past the next moment at which an event is due.  A core's clock runs at
n/40 of 1.05 GHz (R165): in 1 ns it counts 21 n of the 800ths that its phase is held in. -/
def State.elapse (s : State) (ns : Nat) : State :=
  let deadlines := s.deadlines.filter fun t => decide (s.time < t)
  let until_ := deadlines.foldl min (s.time + ns)
  let d := until_ - s.time
  { s with time := until_,
           cores := (List.range 288).foldl (fun t k =>
             let c := (Table.at? t k).getD Core.reset
             Table.put t k { c with phase := c.phase + d * s.stepOf c * 21 }) s.cores }

/-- A lease of the line is live: some group's clock lies within it (R214, R215). -/
def State.leaseLive (s : State) (p : Place) : Bool := s.groups.any fun e => decide (e.2.clk ≤ (s.lineOf p).l)

/-- The home stops tracking a line whose last lease has expired and of which no host has a copy: it is written back (R208,
R212, R239). -/
def State.untrackClean (s : State) (p : Place) : State :=
  if (s.lineOf p).present = 0 ∧ ¬ s.leaseLive p then s.untrack p else s

/-! ## The agenda -/

/-- A choice of the agenda made. -/
def State.choose (s : State) (a : Agendum) : Move :=
  match a with
  | .event i => .run s i
  | .issue core part =>
    match s.chosen core part with
    | some (gid, g) => s.moveGroup gid g
    | none => .moved s
  | .perform seq => .moved (s.performReads seq)
  | .performLane seq lane => .moved (s.performOne seq lane)
  | .readEarly gid f key => .moved { s with groups := s.groups.alter gid fun g : Group => g.withEarly f key }
  | .readChunk gid seq p => .moved (s.readChunk gid seq p)
  | .elapse ns => .moved (s.elapse ns)
  | .dropL1 core sector =>
    .moved (s.setCore core { s.coreAt core with l1 := (s.coreAt core).l1.filter fun x => decide (x.sector ≠ sector) })
  | .dropL2 slice sector =>
    .moved (s.setSlice slice { s.sliceAt slice with l2 := (s.sliceAt slice).l2.filter fun x => decide (x.sector ≠ sector) })
  | .flushTlb core => .moved (s.setCore core { s.coreAt core with tlb := [] })
  | .untrack line => .moved (s.untrackClean line)
  | .hostLook fn off len => .moved (s.hostLook fn off len)
  | .hostStore port addr data => .moved (s.hostStore port addr data)
  | .vfCounts counts => .moved (s.setVfCounts counts)

/-! ## By itself -/

/-- The first partition that has a group ready to move. -/
def State.readyPartition (s : State) : Option (Nat × Group) :=
  s.groups.findSome? fun e => s.chosen e.2.core (e.2.slot / 4)

/-- An event, and what it does. -/
abbrev OwnEvent := Instr × (State → Host.Outcome State Fault Refusal)

/-- The events of a group that may be enabled. -/
def Group.ownEvents (gid : Nat) (g : Group) : List OwnEvent :=
  ((List.range g.results.length).map fun k => (Instr.resultReturn gid k, execResultReturn gid k)) ++
  [(.matrixExecutionStart gid, execMatrixExecutionStart gid), (.batchComplete gid, execBatchComplete gid),
   (.fenceComplete gid, execFenceComplete gid)]

/-- The events that complete what is under way: accesses, results, batches, fences and copies. -/
def State.ownEvents (s : State) : List OwnEvent :=
  (s.groups.flatMap fun e => e.2.ownEvents e.1) ++
  (s.loads.map fun x => (Instr.loadReturn x.seq, execLoadReturn x.seq)) ++
  (s.atoms.map fun a => if a.finished then (Instr.atomicReturn a.seq, execAtomicReturn a.seq)
    else (Instr.atomicPerform a.seq, execAtomicPerform a.seq)) ++
  (s.locals.map fun x => (Instr.scratchStoreArrival x.seq, execScratchStoreArrival x.seq)) ++
  (s.entries.map fun e => (Instr.storeBufferDrain e.seq, execStoreBufferDrain e.seq)) ++
  (s.slotWrites.map fun w => (Instr.storeBufferDrain w.seq, execStoreBufferDrain w.seq)) ++
  (s.flights.map fun f => (Instr.storeBufferDrain f.seq, execStoreBufferDrain f.seq)) ++
  (s.contribs.map fun x => (Instr.contributionArrival x.seq, execContributionArrival x.seq)) ++
  (s.channels.map fun e => (Instr.copyUnitDelivery e.1 none, execCopyUnitDelivery e.1 none)) ++
  (s.cuts.map fun e => (Instr.severanceTimeout e.seq, execSeveranceTimeout e.seq))

/-- The event changes the state. -/
def OwnEvent.counts (e : OwnEvent) (s : State) : Bool :=
  match e.2 s with
  | .next t => decide (t ≠ s)
  | .fault _ | .refused _ => false

/-- An event of the device's own that it takes up when nothing else has been chosen: the first that does something. -/
def State.ownEvent (s : State) : Option Instr :=
  if s.rebaseDue ∧ !s.inFlight then some .rebase
  else (s.ownEvents.find? fun e => e.counts s).map (·.1)

/-! ## The move of a step -/

/-- The next move of the package: first what is due, the lowering of a throttled package's clocks with it (R376). -/
def nextAction (s : State) : Move :=
  match s.due with
  | some i => .run s i
  | none =>
    if s.throttleDue then .moved s.lowerSteps.noteHot
    else match s.agenda with
      | a :: rest => { s with agenda := rest }.choose a
      | [] => match s.readyPartition with
        | some (gid, g) => s.moveGroup gid g
        | none => match s.ownEvent with
          | some i => .run s i
          | none => .moved s

end Sys2Proof.Machine
end

