-- ==== Sys2Proof/Machine/Step.lean ====
section
/-! DEFINITION. One step of the package; and a program placed so that the next step runs one given word. -/

namespace Sys2Proof.Machine

/-- One step: the next move; an instruction's meaning, and then what it leaves for its group. -/
def step (s : State) : Host.Outcome State Fault Refusal :=
  match nextAction s with
  | .moved t => .next t
  | .run t i =>
    match exec i t with
    | .next u => .next (u.finish i)
    | .fault f => .fault f
    | .refused r => .refused r

/-- The state whose next step runs the word with bits `w`, as a guardian, a glade and a launch would bring it about: a
READY package, slice 0 a glade, context 0 on VF 0, its tables mapping the first GiB onto itself, and one group at the
start of a program whose first word is `w` (log 2). -/
def State.withFetchWord (s : State) (_nbits w : Nat) : State := s.loaded (toBytes w 4)

end Sys2Proof.Machine
end

