-- ==== Sys2Proof/Safety.lean ====
section
/-! DEFINITION. The vocabulary of the statements: when a word may take its own effect, what it means that a word has
one more outstanding result and nothing else, which part of the state a step leaves alone, and the invariants that
every step keeps. -/

namespace Sys2Proof.Safety

open Sys2Proof.Machine

/-! ## A word at issue -/

/-- Word `i` is the word at issue of group `g` under `c`, and nothing stands before its effect: it is legal (R56), no
pending matrix instruction holds a register it writes (R255), and its destinations have a generation free (R48). -/
structure Ready (i : Instr) (s : State) (c : Issue) (g : Group) : Prop where
  atIssue : s.cur = some c
  group : s.groupAt c.gid = some g
  legal : illegalDetail s g i = none
  clear : c.mask = 0 ∨ g.regHazard (vectorDests g i) = none
  room : stalled g i = false

/-! ## Outstanding results (R45, R48) -/

/-- `t` is `s` with one more outstanding result `r` of the group at issue: no register, mask, flag, control register,
access or byte has changed, and no other group. -/
structure Issued (s t : State) (c : Issue) (g : Group) (r : Result) : Prop where
  group : ∃ g', t.groupAt c.gid = some g' ∧ g'.results.getLast? = some r ∧
    g'.results.length = g.results.length + 1 ∧
    { g' with results := g.results, gens := g.gens, offGens := g.offGens } = g
  others : ∀ k, k ≠ c.gid → t.groupAt k = s.groupAt k
  rest : { t with groups := s.groups, nextId := s.nextId } = s

/-- The word completes with a scalar result: `v` for field `d`, raising the flags `fl` when it returns. -/
def GivesScalar (i : Instr) (s : State) (c : Issue) (g : Group) (d : Reg) (v : Scalar) (fl : BitVec 5) : Prop :=
  ∃ t r, exec i s = .next t ∧ Issued s t c g r ∧ r.dest = g.dest d 1 ∧ r.svals = [v] ∧ r.flags = fl ∧ r.ready = true

/-- The word completes with a vector result of `n` registers under the issue mask: lane j of register k gets `f k j`; with no
issuing lane it does nothing (R111, R171). -/
def GivesLanes (i : Instr) (s : State) (c : Issue) (g : Group) (d : Reg) (n : Nat) (f : Nat → Nat → Lane) (fl : BitVec 5) : Prop :=
  (c.mask = 0 → exec i s = .next s) ∧
  (c.mask ≠ 0 → ∃ t r, exec i s = .next t ∧ Issued s t c g r ∧ r.dest = g.dest d n ∧ r.mask = c.mask ∧ r.flags = fl ∧ r.ready = true ∧
    ∀ k j, k < n → j < g.width → c.mask.getLsbD j = true → r.vals.at? (64 * k + j) = some (f k j))

/-- Whenever it is ready, word `i` gives scalar field `d` the value `v`, and no flag. -/
def ScalarWord (i : Instr) (d : Reg) (v : State → Issue → Group → Scalar) : Prop :=
  ∀ s c g, Ready i s c g → GivesScalar i s c g d (v s c g) 0

/-- Whenever it is ready, word `i` gives each active lane of vector field `d` the value `f`, and no flag. -/
def LaneWord (i : Instr) (d : Reg) (f : Group → Nat → Lane) : Prop :=
  ∀ s c g, Ready i s c g → GivesLanes i s c g d 1 (fun _ => f g) 0

/-- Whenever it is ready, float word `i` gives lane j of register k of field `d` the code `(f g k j).1`, and raises the
flags `(f g k j).2` of every active lane (R98). -/
def FloatWord (i : Instr) (d : Reg) (n : Nat) (f : Group → Nat → Nat → Nat × BitVec 5) : Prop :=
  ∀ s c g, Ready i s c g →
    GivesLanes i s c g d n (fun k j => BitVec.ofNat 32 (f g k j).1)
      (joinFlags (((List.range n).map fun k => (lanesOf g.width c.mask).map fun j => (f g k j).2).flatten))

/-- Whenever it is ready, word `i` replaces its group by `f s c g` and changes nothing else. -/
def GroupWord (i : Instr) (f : State → Issue → Group → Group) : Prop :=
  ∀ s c g, Ready i s c g → exec i s = .next (s.setGroup c.gid (f s c g))

/-- Word `i` writes CM at issue (R46, R119): bit j of each active lane becomes `p g j`, every other bit stays, FLAGS
gains `fl`, and nothing else changes but the generation of CM, which drops earlier results to it (R46); with no issuing lane
it does nothing (R171). -/
def CompareWord (i : Instr) (p : Group → Nat → Bool) (fl : Group → Mask → BitVec 5) : Prop :=
  ∀ s c g, Ready i s c g → (c.mask = 0 → exec i s = .next s) ∧ (c.mask ≠ 0 → ∃ g', exec i s = .next (s.setGroup c.gid g') ∧
    (∀ j, j < 64 → g'.cm.getLsbD j =
      if j < g.width ∧ c.mask.getLsbD j = true then p g j else g.cm.getLsbD j && !c.mask.getLsbD j) ∧
    g'.flags = g.flags ||| fl g c.mask ∧
    g'.results.map (fun r => { r with past := [] }) = g.results.map (fun r => { r with past := [] }) ∧
    { g' with cm := g.cm, flags := g.flags, gens := g.gens, results := g.results } = g)

/-- Whenever it is ready, word `i` moves the issuing lanes that `sel` picks into the planes that `p` names, at issue
(R46, R182): no other lane moves and nothing else changes. -/
def PlaneWord (i : Instr) (sel : Group → Nat → Bool) (p : Group → Nat → Nat) : Prop :=
  ∀ s c g, Ready i s c g → ∃ g', exec i s = .next (s.setGroup c.gid g') ∧
    (∀ j, j < 64 → g'.planeOf j = if j < g.width ∧ c.mask.getLsbD j = true ∧ sel g j = true then p g j else g.planeOf j) ∧
    { g' with pl := g.pl } = g

/-! ## Numbers (R89 to R106) -/

/-- Element k of the 16-bit pair in lane j of source field `f` (R92). -/
def elem (g : Group) (f : Src) (r : Reg) (j k : Nat) : Nat := (g.srcV f r j).toNat / 2 ^ (16 * k) % 2 ^ 16

/-- A float word whose lanes are pairs: element k of lane j gets `f g j k`, and the flags of both elements count (R127). -/
def PairWord (i : Instr) (d : Reg) (f : Group → Nat → Nat → Nat × BitVec 5) : Prop :=
  FloatWord i d 1 fun g _ j => ((f g j 0).1 + 2 ^ 16 * (f g j 1).1, (f g j 0).2 ||| (f g j 1).2)

/-- A float word whose lanes are four bytes: byte k of lane j gets `f g j k` (R104). -/
def QuadWord (i : Instr) (d : Reg) (f : Group → Nat → Nat → Nat × BitVec 5) : Prop :=
  FloatWord i d 1 fun g _ j =>
    ((f g j 0).1 + 2 ^ 8 * (f g j 1).1 + 2 ^ 16 * (f g j 2).1 + 2 ^ 24 * (f g j 3).1,
      (f g j 0).2 ||| (f g j 1).2 ||| (f g j 2).2 ||| (f g j 3).2)

/-- The number (−1)^neg × m × 2^e. -/
def ratio (neg : Bool) (m : Nat) (e : Int) : Rat := (if neg then -1 else 1) * m * 2 ^ e

/-- The magnitude of a code of a format without its sign, by its exponent and fraction fields (R89); at the code of
infinity, the power of two where the overflow begins. -/
def magnitude (f : Fmt) (c : Nat) : Rat :=
  if c / 2 ^ f.fb = 0 then ratio false c (2 - 2 ^ (f.eb - 1) - f.fb)
  else ratio false (2 ^ f.fb + c % 2 ^ f.fb) (2 - 2 ^ (f.eb - 1) - f.fb + (c / 2 ^ f.fb : Nat) - 1)

/-- The magnitude of an LX8 code without its sign (R100, R101). -/
def lx8Magnitude (c : Nat) : Rat :=
  match lx8Read c with
  | .fin _ m e => ratio false m e
  | .nan _ | .inf _ => 0

/-- `k × 2^q` stands for a number x of which `f` tells the side that a number lies on (below x where `f` gives less than `c`, equal
to it where `f` gives `c`): it is x when `k` is even, and else x lies strictly between its two neighbours, which no format
of 24 bits or fewer can tell from it. -/
def StandsFor (k : Nat) (q : Int) (f : Rat → Rat) (c : Rat) : Prop :=
  2 ^ 32 ≤ k ∧ (k % 2 = 0 → f (ratio false k q) = c) ∧
    (k % 2 = 1 → f (ratio false (k - 1) q) < c ∧ c < f (ratio false (k + 1) q))

/-- A conversion to a one-byte format of greatest code `top`, sign in bit 7 (R97, R103): a zero keeps its sign; a finite number
above the greatest magnitude, and no other, is that magnitude with OF and NX; any other gives a code that none is nearer
to, the even one of the two when it stands half-way, with NX if it is inexact, and UF with it below `least`. -/
def PacksTo (f : Fmt) (top : Nat) (least : Rat) (to_ : Val → Nat × BitVec 5) : Prop :=
  ∀ a m e, let x := ratio false m e
    let sign := if a then 128 else 0
    (m = 0 → to_ (.fin a m e) = (sign, 0)) ∧
    (magnitude f top < x → to_ (.fin a m e) = (sign + top, 0b10100)) ∧
    (m ≠ 0 → x ≤ magnitude f top → ∃ c ≤ top,
      to_ (.fin a m e) = (sign + c, if magnitude f c = x then 0 else if x < least then 0b11000 else 0b10000) ∧
      ∀ k ≤ top, |magnitude f c - x| ≤ |magnitude f k - x| ∧ (|magnitude f c - x| = |magnitude f k - x| → k = c ∨ c % 2 = 0))

/-- The integer that RMODE rounds a number to: the nearest, the even one of two; toward zero; up; down. -/
def RoundsTo (rm : BitVec 2) (x : Rat) (r : Int) : Prop :=
  (rm = 0 → |(r : Rat) - x| ≤ 1 / 2 ∧ (|(r : Rat) - x| = 1 / 2 → r % 2 = 0)) ∧
  (rm = 1 → r = if 0 ≤ x then ⌊x⌋ else ⌈x⌉) ∧ (rm = 2 → r = ⌈x⌉) ∧ (rm = 3 → r = ⌊x⌋)

/-- The FP32 code in lane j of a field, a subnormal as the zero of its sign when FTZ is set (R96). -/
def code32 (ftz : Bool) (c : Nat) : Nat := if ftz ∧ c % 2 ^ 31 < 2 ^ 23 then c / 2 ^ 31 * 2 ^ 31 else c

/-- An FP32 code is a NaN, and is a signalling one (R91). -/
def nan32 (c : Nat) : Bool := decide (0x7F800000 < c % 2 ^ 31)
def signal32 (c : Nat) : BitVec 5 := if nan32 c ∧ c % 2 ^ 23 < 2 ^ 22 then 1 else 0

/-- An integer that orders FP32 codes by value, the zeros equal. -/
def key32 (c : Nat) : Int := if c < 2 ^ 31 then c else 2 ^ 31 - c

/-- One FP32 code lies below another, −0 below +0 (R122). -/
def below32 (a b : Nat) : Bool := decide (key32 a < key32 b ∨ (key32 a = key32 b ∧ b < a))

/-- The lesser and the greater of two FP32 codes: the other operand beside a NaN, the canonical NaN for two (R122). -/
def lesser (ftz : Bool) (a b : Nat) : Nat × BitVec 5 :=
  (if nan32 a ∧ nan32 b then 0x7FC00000 else if nan32 a then code32 ftz b else if nan32 b then code32 ftz a
    else if below32 (code32 ftz a) (code32 ftz b) then code32 ftz a else code32 ftz b, signal32 a ||| signal32 b)
def greater (ftz : Bool) (a b : Nat) : Nat × BitVec 5 :=
  (if nan32 a ∧ nan32 b then 0x7FC00000 else if nan32 a then code32 ftz b else if nan32 b then code32 ftz a
    else if below32 (code32 ftz a) (code32 ftz b) then code32 ftz b else code32 ftz a, signal32 a ||| signal32 b)

/-- The two FP32 operands of a compare in lane j: either is a NaN, and the order of one of them (R124). -/
def eitherNan (g : Group) (a b : Reg) (j : Nat) : Bool := nan32 (g.srcV .a a j).toNat || nan32 (g.srcV .b b j).toNat
def order (g : Group) (f : Src) (r : Reg) (j : Nat) : Int := key32 (code32 g.ftz (g.srcV f r j).toNat)
def signalFlag (g : Group) (f : Src) (r : Reg) (j : Nat) : BitVec 5 := signal32 (g.srcV f r j).toNat

/-- The tree of R106 over 2^n places: place j of the lower half combined with place j + 2^(n−1); an absent place takes
no part. -/
def treeOver {α : Type} (op : α → α → α) : Nat → (Nat → Option α) → Option α
  | 0, f => f 0
  | n + 1, f => treeOver op n fun j => match f j, f (j + 2 ^ n) with
    | none, y => y
    | some x, none => some x
    | some x, some y => some (op x y)

/-- The tree over the lanes of a mask of a field, with the flags of every combination. -/
def laneTree (g : Group) (a : Reg) (m : Mask) (empty : Lane) (op : Nat → Nat → Nat × BitVec 5) : Lane × BitVec 5 :=
  (treeOver (fun (x y : Lane × BitVec 5) =>
      (BitVec.ofNat 32 (op x.1.toNat y.1.toNat).1, x.2 ||| y.2 ||| (op x.1.toNat y.1.toNat).2))
    (Nat.log2 g.width) fun j => if j < g.width ∧ m.getLsbD j = true then some (g.srcV .a a j, 0) else none).getD (empty, 0)

/-! ## Matrix products (R107 to R110, R244 to R251) -/

/-- The number that a finite value is. -/
def number : Val → Rat
  | .fin a m e => ratio a m e
  | .nan _ | .inf _ => 0

/-- A number truncated toward zero to a multiple of a positive one. -/
def truncatedTo (u x : Rat) : Rat := if 0 ≤ x then ⌊x / u⌋ * u else ⌈x / u⌉ * u

/-- `v` is the sum of a K-group of the 32 products of `x` and `y`, and `nv` says whether it is invalid (R107): NaN with a NaN
among the products or two infinities of opposite signs; else an infinity that is among them; else the sum of the
products, each truncated at 40 bits below the leading bit of the greatest, rounded to 24 bits, +0 if it is zero. -/
def SumOfGroup (x y : Nat → Val) (v : Val) (nv : Bool) : Prop :=
  let p (k : Nat) : Val := (Val.mul (x k) (y k)).1
  let isNan : Prop := ∃ k < 32, ∃ q, p k = .nan q
  let holds (neg : Bool) : Prop := ∃ k < 32, p k = .inf neg
  (nv = true ↔ (∃ k < 32, (Val.mul (x k) (y k)).2 ≠ 0) ∨ (holds true ∧ holds false)) ∧
  (isNan ∨ (holds true ∧ holds false) → v = .nan false) ∧
  (∀ neg, ¬ isNan → holds neg → ¬ holds (!neg) → v = .inf neg) ∧
  (¬ isNan → ¬ holds true → ¬ holds false →
    ((∀ k < 32, number (p k) = 0) → v = .fin false 0 0) ∧
    ∀ top : Int, (∃ k < 32, ratio false 1 top ≤ |number (p k)|) → (∀ k < 32, |number (p k)| < ratio false 1 (top + 1)) →
      let sum := ((List.range 32).map fun k => truncatedTo (ratio false 1 (top - 40)) (number (p k))).sum
      (sum = 0 → v = .fin false 0 0) ∧
      ∀ e : Int, ratio false 1 e ≤ |sum| → |sum| < ratio false 1 (e + 1) → ∃ a m f, v = .fin a m f ∧
        ∃ n : Int, RoundsTo 0 (sum / ratio false 1 (e - 23)) n ∧ ratio a m f = n * ratio false 1 (e - 23))

/-- The accumulator of code `acc` plus a group sum times 2^k, rounded once to nearest: NV for infinities of opposite signs, OF when
two finite numbers overflow (R107, R108). -/
def accumulated (acc : Nat) (v : Val) (k : Int) : Nat × BitVec 5 :=
  match fp32.read false acc, v with
  | .nan _, _ | _, .nan _ => (0x7FC00000, 0)
  | .inf a, .inf b => if a = b then (if a then 0xFF800000 else 0x7F800000, 0) else (0x7FC00000, 1)
  | .inf a, .fin _ _ _ => (if a then 0xFF800000 else 0x7F800000, 0)
  | .fin _ _ _, .inf b => (if b then 0xFF800000 else 0x7F800000, 0)
  | .fin a m e, .fin b n f =>
    let r := fp32.write 0 false (Val.add 0 (.fin a m e) (.fin b n (f + k))).1
    (r.1, r.2 &&& 0b100)

/-- The formats of A and of Bt (R246); a NaN of the engine has no signalling state. -/
def formatA (fmt c : Nat) : Val :=
  (match fmt with
    | 1 => lx8Read c
    | 2 => e5m2Read c
    | 5 => bf16.read false c
    | _ => e4m3Read c).quiet
def formatB (fmt c : Nat) : Val :=
  (match fmt with
    | 1 | 3 => lx8Read c
    | 2 => e5m2Read c
    | 5 => bf16.read false c
    | _ => e4m3Read c).quiet

/-- Logical byte o of tile row r, stored from `p` on under rotation c (R248). -/
def logicalByte (s : State) (o : MatOp) (p : Place) (c r b : Nat) : Nat :=
  (s.operandByte o.chunks (p.plus ((b / 16 ^^^ r % 2 ^ c) * 16 + b % 16))).toNat

/-- Element k of that row: a byte, or in BF16 a half-word (R244). -/
def logicalElement (s : State) (o : MatOp) (p : Place) (c r k : Nat) : Nat :=
  if o.fmt = 5 then logicalByte s o p c r (2 * k) + 256 * logicalByte s o p c r (2 * k + 1) else logicalByte s o p c r k

/-- The fields of a descriptor that say where its rows lie (R247). -/
def rotOf (d : Scalar) : Nat := d.toNat / 2 ^ 32 % 16
def tpitchOf (d : Scalar) : Nat := d.toNat / 2 ^ 16 % 2 ^ 16
def rpitchOf (d : Scalar) : Nat := d.toNat % 2 ^ 16

/-- Elements of an operand row. -/
def elementCount (o : MatOp) : Nat := if o.fmt = 5 then 384 else 768

/-- Position n of group j of a metadata row that starts at `p` (R250). -/
def position (s : State) (o : MatOp) (p : Place) (r j n : Nat) : Nat :=
  let size := 12 * (o.aDesc.toNat / 2 ^ 36 % 16)
  ((List.range (6 * size / 8)).map fun b => logicalByte s o p (rotOf o.aDesc) r (j * (6 * size / 8) + b) * 256 ^ b).sum / 2 ^ (6 * n) % 64

/-- Row i of A is `row`: as it is stored (R244), or rebuilt from its values and its metadata (R250); none when its metadata
is ill-formed (R251). -/
def RowOfA (s : State) (o : MatOp) (pa : Place) (i : Nat) (row : Option (Nat → Nat)) : Prop :=
  let c := rotOf o.aDesc
  let r := i % 32
  let size := 12 * (o.aDesc.toNat / 2 ^ 36 % 16)
  let groups := elementCount o / 48
  let values := pa.plus (2 * (i / 32) * tpitchOf o.aDesc + r * rpitchOf o.aDesc)
  let pos (j n : Nat) : Nat := position s o (values.plus (tpitchOf o.aDesc)) r j n
  let good : Prop := ∀ j < groups, (∀ n m, n < m → m < size → pos j n < pos j m) ∧ ∀ n < size, pos j n < 48
  (o.sparse = false → ∃ f, row = some f ∧ ∀ k < elementCount o,
    f k = logicalElement s o (pa.plus (i / 32 * tpitchOf o.aDesc + r * rpitchOf o.aDesc)) c r k) ∧
  (o.sparse = true → good → ∃ f, row = some f ∧ ∀ j < groups,
    (∀ n < size, f (48 * j + pos j n) = logicalElement s o values c r (j * size + n)) ∧
    ∀ e < 48, (∀ n < size, pos j n ≠ e) → f (48 * j + e) = 0) ∧
  (o.sparse = true → ¬ good → row = none)

/-- A byte as a signed number. -/
def signedByte (c : Nat) : Int := if c < 128 then c else c - 256

/-- Element i, j of the product of row `row` of A and a row of Bt, `acc` being the accumulator as earlier instructions leave it, with
its flags (R107 to R110). -/
def ElementOf (g : Group) (o : MatOp) (row : Option (Nat → Nat)) (b : Nat → Nat) (acc : Lane) (i j : Nat) (r : Lane × BitVec 5) : Prop :=
  let sa := (g.vlane (o.acc + 32) i).toNat / 2 ^ (8 * (o.bsel.toNat % 4)) % 256
  let sb := (g.vlane (o.acc + 33) j).toNat / 2 ^ (8 * (o.bsel.toNat / 4)) % 256
  match row with
  | none => r = (if o.fmt = 4 then 0x80000000 else 0x7FC00000, 1)
  | some a =>
    if o.fmt = 4 then r = (acc + BitVec.ofInt 32 ((List.range (elementCount o)).map fun k => signedByte (a k) * signedByte (b k)).sum, 0)
    else if sa = 255 ∨ sb = 255 then r = (0x7FC00000, 1)
    else ∃ v : Nat → Val × Bool,
      (∀ k < elementCount o / 32, SumOfGroup (fun n => formatA o.fmt (a (32 * k + n))) (fun n => formatB o.fmt (b (32 * k + n))) (v k).1 (v k).2) ∧
      let sum := (List.range (elementCount o / 32)).foldl (fun (r : Nat × BitVec 5) k =>
        let x := accumulated r.1 (v k).1 ((sa : Int) - 127 + ((sb : Int) - 127))
        (x.1, r.2 ||| x.2 ||| if (v k).2 then 1 else 0)) (acc.toNat, 0)
      r = (BitVec.ofNat 32 sum.1, sum.2)

/-- `t` and `fl` are the result of matrix instruction `o`, `before` being the group's earlier ones: register j of the
accumulator, in lane i, has element i, j of the product; the flags are those of its elements (R244, R252). -/
def ProductOf (s : State) (gid : Nat) (g : Group) (before : List MatOp) (o : MatOp) (t : Table Lane) (fl : BitVec 5) : Prop :=
  (o.zero = true → (∀ i j, i < g.width → j < 32 → t.at? (64 * j + i) = some 0) ∧ fl = 0) ∧
  (o.zero = false → ∀ pa na pb nb, s.operandPlace gid g o.aAddr = some (pa, na) → s.operandPlace gid g o.bAddr = some (pb, nb) →
    ∃ (row : Nat → Option (Nat → Nat)) (f : Nat → Nat → Lane × BitVec 5),
      (∀ i < g.width, RowOfA s o pa i (row i)) ∧
      (∀ i j, i < g.width → j < 32 → t.at? (64 * j + i) = some (f i j).1 ∧
        ElementOf g o (row i) (logicalElement s o (pb.plus (j * rpitchOf o.bDesc)) (rotOf o.bDesc) j) (g.accumulator before (o.acc + j) i)
          i j (f i j)) ∧
      ∀ k < 5, fl.getLsbD k = true ↔ ∃ i < g.width, ∃ j < 32, (f i j).2.getLsbD k = true)

/-! ## Accesses of a word (R77 to R88, R228) -/

/-- The accesses `la` (lane and address) of a word pass the checks of R78 and are translated without a fault; `t` is
the state after the translations, and `good` gives each its place. -/
structure Reaches (s : State) (c : Issue) (g : Group) (scalar write regs : Bool) (size : Nat) (la : List (Nat × Scalar))
    (t : State) (good : List Located) : Prop where
  mapped : s.addressTrap c g scalar regs size la = none
  located : s.locateAll c g write la = (t, good, [])

/-- The issuing lanes of a word and their addresses: each lane, ascending. -/
def eachLane (c : Issue) (g : Group) (addr : Nat → Scalar) : List (Nat × Scalar) :=
  ((List.range g.width).filter fun j => c.mask.getLsbD j).map fun j => (j, addr j)

/-- S[a] + zext(V[b][j]), and V[a] of the pair plus imm10 times the size (R77). -/
def laneBase (g : Group) (a b : Reg) (j : Nat) : Scalar := g.srcS .a a + (g.srcV .b b j).zeroExtend 64
def laneOffset (g : Group) (a : Reg) (imm : BitVec 10) (size j : Nat) : Scalar :=
  (g.srcVk .a a 1 j ++ g.srcVk .a a 0 j : BitVec 64) + imm.signExtend 64 * BitVec.ofNat 64 size

/-- `u` is `t` with a load issued: one more result outstanding, not yet ready, and the reads of its lanes on their way with CLK and
LEASE of its issue.  No register, byte or mask has changed. -/
def LoadIssued (t u : State) (c : Issue) (g : Group) (d : Reg) (n size : Nat) (w : Widen) (good : List Located) : Prop :=
  ∃ v r, Issued t v c g r ∧ r.dest = g.dest d n ∧ r.ready = false ∧ r.flags = 0 ∧ r.mask = maskOf (good.map (·.1)) ∧
    u = { v with loads := t.loads ++
      [{ seq := r.seq, gid := c.gid, size := size, widen := w, lanes := sectorsAlike (good.map (t.loadLane c.gid g size)),
         clk := g.clk, lease := g.lease.toNat, rest := sectorsAlike (good.map (t.loadLane c.gid g size)), data := [], w := 0, hit := true,
         poison := none, own := false }] }

/-- Load word `i` of accesses `la`: with no lane it does nothing; else it issues a load of its accesses; of those that fault,
if some do, the good ones alone are loaded, and then the trap of R294 is taken. -/
def LoadWord (i : Instr) (scalar : Bool) (d : Reg) (n size : Nat) (w : Widen) (la : Issue → Group → List (Nat × Scalar)) : Prop :=
  ∀ s c g, Ready i s c g →
    (la c g = [] → exec i s = .next s) ∧
    (∀ t good, la c g ≠ [] → Reaches s c g scalar false true size (la c g) t good →
      ∃ u, exec i s = .next u ∧ LoadIssued t u c g d n size w good) ∧
    ∀ t good bad, s.addressTrap c g scalar true size (la c g) = none → s.locateAll c g false (la c g) = (t, good, bad) → bad ≠ [] →
      ∃ u, exec i s = .next (u.accessFault c scalar bad) ∧ (good = [] → u = t) ∧
        (good ≠ [] → LoadIssued t u c g d n size w good)

/-- Store word `i` of accesses `la`, storing `data` of each lane: with no lane it does nothing; else, when its accesses
may be performed, no pending matrix instruction uses the bytes, and the store buffer has room, it issues those stores, in
that order; of accesses that fault in part the good ones alone are stored, and then the trap of R294 is taken. -/
def StoreWord (i : Instr) (scalar : Bool) (size : Nat) (la : Issue → Group → List (Nat × Scalar))
    (data : Group → Nat → List Byte) : Prop :=
  ∀ s c g, Ready i s c g →
    (la c g = [] → exec i s = .next s) ∧
    ∀ t good bad, la c g ≠ [] → s.addressTrap c g scalar true size (la c g) = none →
      s.locateAll c g true (la c g) = (t, good, bad) →
      g.memHazard c.gid (good.map fun e => (e.1, e.2.2, size)) = none →
      s.bufferRoom c.gid g.core ((good.filter fun e => e.2.2.isGlobal).map fun e => e.2.2.line) = true →
      let u := t.issueStore c { g with wait := .none } (good.map fun e => (e.2.1, e.2.2, data g e.1))
      (bad = [] → exec i s = .next u) ∧
      (bad ≠ [] → exec i s = .next ((if good = [] then t else u).accessFault c scalar bad))

/-- The low `size` bytes of lane j of the registers of a data field, the low register first (R85). -/
def laneBytes (g : Group) (d : Reg) (size j : Nat) : List Byte :=
  (List.range size).map fun k => (g.srcVk .d d (k / 4) j).extractLsb' (8 * (k % 4)) 8

/-- The low `size` bytes of a scalar. -/
def scalarBytes (g : Group) (d : Reg) (size : Nat) : List Byte :=
  (List.range size).map fun k => (g.srcS .d d).extractLsb' (8 * k) 8

/-- The state in which an atomic or reduction of places `ps` issues: the group's store-buffer entries of their lines
have begun to drain (R228). -/
def draining (s : State) (gid : Nat) (ps : List Place) : State :=
  { s with entries := s.entries.map fun e : Entry =>
      if e.gid = gid ∧ (ps.map Place.line).contains e.line then { e with draining := true } else e }

/-- The accesses of an atomic pass the checks of its issue: those of R78, and no pending matrix instruction uses the bytes
(R255). -/
def ChecksPass (s : State) (c : Issue) (g : Group) (scalar : Bool) (size : Nat) (la : List (Nat × Scalar)) : Prop :=
  s.addressTrap c g scalar false size la = none ∧
  g.memHazard c.gid ((s.locateAll c g true la).2.1.map fun e => (e.1, e.2.2, size)) = none

/-- Word `i` waits as a fence does (R223, R298, R321), the checks of its issue passed: those of R78 and R231 for `sqopen`, of
R232 for `sqred`, of R78 and R255 for a value-returning atomic. -/
def WaitsAsFence (i : Instr) (s : State) (c : Issue) (g : Group) : Prop :=
  i ∈ [.fenceG, .fenceC, .fenceD, .fenceP, .fenceS] ∨ (∃ l, i = .svc l ∧ g.mode = .user) ∨
  (∃ d a b, i = .sqopen d a b ∧ s.addressTrap c g true false 4 [(0, g.srcS .a a)] = none ∧
    (∃ va, s.mapAddr c.gid g (g.srcS .a a) = some (.global va)) ∧ (g.srcS .b b).toNat < 2 ^ 53) ∨
  (∃ d a b, i ∈ [.sqredAddf d a b, .sqredAdd d a b] ∧ lanesOf g.width c.mask ≠ [] ∧ (g.srcS .a a).toNat / 2 ^ 62 ≠ 0 ∧
    ∀ j ∈ lanesOf g.width c.mask, (g.srcV .b b j - (g.srcS .a a).setWidth 32).toNat ≤ (g.srcS .a a).toNat / 2 ^ 32 % 2 ^ 20) ∨
  (∃ d a b, i ∈ [.vatomAdd d a b, .vatomAddf d a b, .vatomMinI d a b, .vatomMaxI d a b, .vatomAnd d a b, .vatomOr d a b,
      .vatomXor d a b, .vatomXchg d a b, .vatomCas d a b] ∧ lanesOf g.width c.mask ≠ [] ∧
    ChecksPass s c g false 4 (eachLane c g (laneBase g a b))) ∨
  (∃ d a b, i ∈ [.satomAdd d a b, .satomCas d a b] ∧ ChecksPass s c g true 8 [(0, g.srcS .a a + g.srcS .b b)])

/-- Value-returning atomic `i`: an address that fails the checks of R78 traps at issue, before any wait; once its fence
waits are over, and its accesses may be performed on bytes that no pending matrix instruction uses, it has a result of `n`
registers outstanding, each lane is on its way to its home with its operands, and the group has no restart point. -/
def AtomicWord (i : Instr) (scalar : Bool) (op : AtomOp) (size : Nat) (d : Reg) (n : Nat)
    (la : Issue → Group → List (Nat × Scalar)) (v v2 : Group → Nat → Nat) : Prop :=
  (∀ s c g code a m, Ready i s c g → g.wait ≠ .fenced → s.addressTrap c g scalar false size (la c g) = some (code, a, m) →
    exec i s = .next (s.trapWord c g code 0 a m)) ∧
  ∀ s c g t good, Ready i s c g → g.wait = .fenced → la c g ≠ [] →
    Reaches (s.setGroup c.gid { g with wait := .none }) c { g with wait := .none } scalar true false size (la c g) t good →
    g.memHazard c.gid (good.map fun e => (e.1, e.2.2, size)) = none →
    ∃ u r, Issued (draining t c.gid (good.map (·.2.2))) u c
        (t.signAll { g with wait := .none } (good.map fun e => (e.2.1, e.2.2, toBytes (v g e.1) size))) r ∧
      r.dest = g.dest d n ∧ r.ready = false ∧ r.flags = 0 ∧ r.mask = maskOf (good.map (·.1)) ∧
      exec i s = .next (({ u with atoms := t.atoms ++
        [{ seq := r.seq, gid := c.gid, ctx := g.ctx, core := g.core, op := op, size := size,
           lanes := good.map fun e => { lane := e.1, va := e.2.1.toNat, place := e.2.2, v := v g e.1, v2 := v2 g e.1 },
           did := [], clk := g.clk, returns := true, old := [], t := 0 }] } : State).spoilRestart c.gid)

/-- Far reduction `i`: a reduction that a restart replays is skipped and only counted; else it is counted, and each lane
is on its way to its home, with no result. -/
def ReductionWord (i : Instr) (op : AtomOp) (d a b : Reg) : Prop :=
  ∀ s c g, Ready i s c g → g.replay = none →
    (eachLane c g (laneBase g a b) = [] → exec i s = .next s) ∧
    (eachLane c g (laneBase g a b) ≠ [] → g.gredCount < g.gredSkip →
      exec i s = .next (s.setGroup c.gid { g with gredCount := g.gredCount + 1 })) ∧
    ∀ t good, eachLane c g (laneBase g a b) ≠ [] → g.gredSkip ≤ g.gredCount →
      Reaches s c g false true false 4 (eachLane c g (laneBase g a b)) t good →
      g.memHazard c.gid (good.map fun e => (e.1, e.2.2, 4)) = none →
      exec i s = .next { ((draining t c.gid (good.map (·.2.2))).fresh.setGroup c.gid
          (t.signAll { g with gredCount := g.gredCount + 1 }
            (good.map fun e => (e.2.1, e.2.2, toBytes (g.srcV .d d e.1).toNat 4)))) with
        atoms := t.atoms ++
          [{ seq := t.nextId, gid := c.gid, ctx := g.ctx, core := g.core, op := op, size := 4,
             lanes := good.map fun e => { lane := e.1, va := e.2.1.toNat, place := e.2.2, v := (g.srcV .d d e.1).toNat, v2 := 0 },
             did := [], clk := g.clk, returns := false, old := [], t := 0 }] }

/-! ## Control flow (R67 to R70) -/

/-- `g'` is `g` with field `a` written at issue: the scalar, or CM below the width; every other field discards it.
Earlier results to the register no longer write it (R46 to R48). -/
def WroteField (g g' : Group) (a : Reg) (v : Scalar) : Prop :=
  match a with
  | .s k => g'.scalar k.val = v ∧ (∀ j, j ≠ k.val → g'.scalar j = g.scalar j) ∧
      g'.results.map (fun r => { r with past := [] }) = g.results.map (fun r => { r with past := [] }) ∧
      { g' with sregs := g.sregs, gens := g.gens, results := g.results } = g
  | .cm => (∀ j, j < 64 → g'.cm.getLsbD j = (decide (j < g.width) && v.getLsbD j)) ∧
      g'.results.map (fun r => { r with past := [] }) = g.results.map (fun r => { r with past := [] }) ∧
      { g' with cm := g.cm, gens := g.gens, results := g.results } = g
  | .v _ | .nul | .lane | .plane | .xm | .gix | .grx | .clk => g' = g

/-- The word at issue leaves its group to go on at an offset, and the word at issue leaves nothing more to do. -/
def goesTo (s : State) (c : Issue) (off : Nat) : State := { s with cur := some { c with fate := .goto off } }
def leaves (s : State) (c : Issue) : State := { s with cur := some { c with fate := .left } }

/-- A branch (R69): not taken, it goes on; taken, to its own offset plus the displacement, or it traps with CODE 15 and
that target as TADDR when the target lies outside the program, before anything is written. -/
def BranchWord (i : Instr) (off : BitVec 17) (taken : Group → Prop) (wrote : Group → Group → Prop) : Prop :=
  ∀ s c g, Ready i s c g →
    (¬ taken g → ∃ g', wrote g g' ∧ exec i s = .next (s.setGroup c.gid g')) ∧
    (taken g → (g.off : Int) + off.toInt < 0 ∨ 2 ^ 20 ≤ (g.off : Int) + off.toInt →
      exec i s = .next (s.trapWord c g 15 0 (BitVec.ofInt 64 (g.off + off.toInt)) 0)) ∧
    ∀ n : Nat, taken g → (n : Int) = g.off + off.toInt → n < 2 ^ 20 →
      ∃ g', wrote g g' ∧ exec i s = .next (goesTo (s.setGroup c.gid g') c n)

/-! ## Waiting (R45, R223, R298) -/

/-- The word at issue waits: its group holds it as `w` says, and nothing else has changed. -/
def waits (s : State) (c : Issue) (g : Group) (w : Wait) : State :=
  { s.setGroup c.gid { g with wait := w } with cur := some { c with fate := .hold } }

/-- The group's store-buffer entries have begun to drain. -/
def drained (s : State) (gid : Nat) : State :=
  { s with entries := s.entries.map fun e : Entry => if e.gid = gid then { e with draining := true } else e }

/-- The word at issue ends its run (R45). -/
def endsRun (s : State) (c : Issue) : State := { s with cur := some { c with mark := true } }

/-! ## A word's own read (R169, R282, R285, R306) -/

/-- The read `y` of word `i` has been performed in `u`: the word goes on as `after` says; or it consumes the poison that it has met
(R302). -/
def GoesOn (i : Instr) (s : State) (c : Issue) (g : Group) (after : State → Load → State → Prop) (u : State) (y : Load) : Prop :=
  (y.poison = none → ∃ w, exec i s = .next w ∧ after u y w) ∧
  ∀ q, y.poison = some q →
    exec i s = .next (((u.setGroup c.gid { g with wait := .none, held := none }).consumeError c.gid q).fate .left)

/-- Word `i` comes, in state `t`, to a read `x` of its own: it is performed at once where its bytes can be read, and the word goes on as
`after` says; else the read is under way, its homes asked for what they need, and the word waits for it. -/
def StartsRead (i : Instr) (s t : State) (c : Issue) (g : Group) (x : Load) (after : State → Load → State → Prop) : Prop :=
  (t.loadReady x = false → exec i s = .next (waits
    (({ t with nextId := t.nextId + 1, loads := t.loads ++ [{ x with own := true }] } : State).askLoad { x with own := true })
    c g (.reading x.seq))) ∧
  ∀ u y, t.loadReady x = true → t.performLoad g.ctx g.core x = (u, y) → GoesOn i s c g after u y

/-- Word `i` waits for a read of its own, which no severed port keeps from its bytes: it waits on while they cannot be read, and else
goes on as `after` says, the read done with. -/
def EndsRead (i : Instr) (s : State) (c : Issue) (g : Group) (after : State → Load → State → Prop) : Prop :=
  ∀ q x, g.wait = .reading q → s.loads.find? (fun y => decide (y.seq = q)) = some x → x.rest.any (s.cutLane x) = false →
    (s.loadReady x = false → exec i s = .next { s.askLoad x with cur := some { c with fate := .hold } }) ∧
    ∀ u y, s.loadReady x = true → s.performLoad g.ctx g.core x = (u, y) →
      GoesOn i s c g after { u with loads := u.loads.filter fun z => decide (z.seq ≠ q) } y

/-! ## Barriers (R54, R184) -/

/-- The barrier that a literal names: grove barriers 0 to 15, copse barriers 16 to 19, launch barriers from 20 on. -/
def barrierOf (l : BitVec 7) : Nat :=
  l.toNat % 32 + if l.toNat < 32 then 0 else if l.toNat < 64 then 16 else 20

/-- A count has reached another, by their difference modulo 2^32 (R184). -/
def notBefore (have_ want : BitVec 32) : Bool := decide ((have_ - want).toNat < 2 ^ 31)

/-- `len` bytes from address `a` on lie within the global space, or within one vault of the vault space (R269). -/
def inExtent (a len : Nat) : Prop :=
  (a / 2 ^ 48 = 0 ∧ a + len ≤ 2 ^ 48) ∨
  (a / 2 ^ 48 = 0xFFF4 ∧ a % 2 ^ 48 / 2 ^ 23 < 72 ∧ a % 2 ^ 23 + len ≤ 2 ^ 23)

/-! ## Translation entries (R316) -/

/-- The target, the backing and the frame or next table of an entry. -/
def tgtOf (e : Scalar) : Nat := e.toNat / 2 ^ 60
def backOf (e : Scalar) : Nat := e.toNat / 2 ^ 3 % 4
def frameOf (e : Scalar) : Nat := e.toNat / 2 ^ 8 % 2 ^ 48 * 2 ^ 8

/-- A valid entry of a level whose entries map `span` bytes is ill-formed in a glade with `bytes` of device memory: a reserved bit; a
leaf at level 0, of a reserved backing, not aligned, of a target out of range or beyond the device memory; a table entry at level
3, not aligned or beyond the device memory. -/
def IllFormed (level span bytes : Nat) (e : Scalar) : Prop :=
  e.getLsbD 56 = true ∨ e.getLsbD 2 = true ∨
  (e.getLsbD 7 = true ∧ (level = 0 ∨ frameOf e % span ≠ 0 ∨ backOf e = 3 ∨ (backOf e = 0 ∧ (tgtOf e ≠ 0 ∨ bytes ≤ frameOf e)) ∨
    (backOf e = 1 ∧ 4 ≤ tgtOf e) ∨ (backOf e = 2 ∧ 12 ≤ tgtOf e))) ∨
  (e.getLsbD 7 = false ∧ (level = 3 ∨ bytes ≤ frameOf e ∨ frameOf e % (if level = 2 then 2 ^ 8 else 2 ^ 12) ≠ 0))

/-! ## Tensors (R281, R283) -/

/-- The element of the patch with offsets `e`: its dense offset. -/
def denseOffset (sh : Shape) (e : Nat → Nat) : Nat :=
  e 0 * sh.esize + sh.pitch * (e 1 + (axis sh.pat 1 + 1) * (e 2 + (axis sh.pat 2 + 1) * (e 3 + (axis sh.pat 3 + 1) * e 4)))

/-- An element with coordinates `q` lies in the array; its address. -/
def insideArray (sh : Shape) (q : Nat → Int) : Prop := ∀ k < sh.rank, 0 ≤ q k ∧ q k ≤ (axis sh.ext k : Int)
def elementAt (sh : Shape) (q : Nat → Int) : Nat :=
  (((sh.base : Int) + q 0 * sh.esize + (q 1 * axis sh.stride 1 + q 2 * axis sh.stride 2 + q 3 * axis sh.stride 3 + q 4 * axis sh.stride 4) * 16)
    % 2 ^ 64).toNat

/-! ## A step (R161, R175) -/

/-- The next move of the package is group `gid`'s, in state `s'`: nothing is due, and the choice at hand, or with none the
first partition that has a ready group, picks it. -/
def Picks (s s' : State) (gid : Nat) (g : Group) : Prop :=
  s.due = none ∧ s.throttleDue = false ∧
  ((∃ core part rest, s.agenda = .issue core part :: rest ∧ s' = { s with agenda := rest } ∧
      s'.chosen core part = some (gid, g)) ∨
    (s.agenda = [] ∧ s' = s ∧ s.readyPartition = some (gid, g)))

/-- What the step of instruction `i` comes to: its meaning, and then what it leaves for its group. -/
def outcome (i : Instr) (u : State) : Host.Outcome State Fault Refusal :=
  match exec i u with
  | .next v => .next (v.finish i)
  | .fault f => .fault f
  | .refused r => .refused r

/-- Word `w` of plane `p` at issue (R176, R178): under XM if it is of the uniform class, else under the mask of its plane. -/
def atIssue (t : State) (gid : Nat) (g : Group) (p : Nat) (w : BitVec 32) : State :=
  let c : Issue :=
    { gid := gid, core := g.core, slot := g.slot, plane := p, mask := if wordUniform w then g.xm else g.issueMask p, uniform := wordUniform w,
      addr := t.wordAddr g p, mark := parkMark w, again := false, fate := .done }
  { t.setGroup gid { g with wait := .none } with cur := some c }

/-! ## Invariants -/

/-- The memories of the package and its hosts are in canonical form. -/
def Canonical (s : State) : Prop := s.dram.wf = true ∧ s.hostMem.wf = true ∧ s.vaultMem.wf = true

/-- The scratch of every grove is in canonical form. -/
def ScratchCanonical (s : State) : Prop := ∀ e ∈ s.groves, e.2.scratch.wf = true

/-! ## Returns (R47, R48) -/

/-- Result `r` still writes the register with this key, as its k-th: its generation is the register's, and no write of it
was issued later. -/
def stillWrites (g : Group) (r : Result) (k key : Nat) : Prop := r.tag.getD k 0 = g.genOf key ∧ key ∉ r.past

/-- `g'` is `g` after the return of result `r`: the registers it still writes hold its data in the lanes of its mask,
its flags are merged, it is outstanding no more, and nothing else of the group has changed. -/
structure Returned (g g' : Group) (r : Result) : Prop where
  results : g'.results = g.results.filter fun x => x.seq ≠ r.seq
  flags : g'.flags = g.flags ||| r.flags
  vec : ∀ p n, r.dest = .vec p n → p + n ≤ 1024 → (∀ j, g'.scalar j = g.scalar j) ∧ g'.cm = g.cm ∧ ∀ k i, i < 64 →
    (k < n → stillWrites g r k (p + k) → i < g.width → r.mask.getLsbD i = true →
      g'.vlane (p + k) i = (r.vals.at? (64 * k + i)).getD 0) ∧
    (¬ (k < n ∧ stillWrites g r k (p + k) ∧ i < g.width ∧ r.mask.getLsbD i = true) → g'.vlane (p + k) i = g.vlane (p + k) i) ∧
    ∀ q, q < p → g'.vlane q i = g.vlane q i
  scal : ∀ p n, r.dest = .scal p n → p + n ≤ 1024 → g'.vregs = g.vregs ∧ g'.cm = g.cm ∧ ∀ j,
    (p ≤ j → j < p + n → stillWrites g r (j - p) (1024 + j) → g'.scalar j = r.svals.getD (j - p) 0) ∧
    (¬ (p ≤ j ∧ j < p + n ∧ stillWrites g r (j - p) (1024 + j)) → g'.scalar j = g.scalar j)
  mask : r.dest = .cm → g'.vregs = g.vregs ∧ g'.sregs = g.sregs ∧
    (stillWrites g r 0 2048 → g'.cm = widthMask g.width (r.svals.getD 0 0)) ∧ (¬ stillWrites g r 0 2048 → g'.cm = g.cm)
  discard : r.dest = .nul → g'.vregs = g.vregs ∧ g'.sregs = g.sregs ∧ g'.cm = g.cm
  rest : { g' with results := g.results, flags := g.flags, vregs := g.vregs, sregs := g.sregs, cm := g.cm } = g

/-- What the package holds in its memories is as it was. -/
def SameMemory (s t : State) : Prop := t.dram = s.dram ∧ t.hostMem = s.hostMem ∧ t.vaultMem = s.vaultMem ∧ t.keys = s.keys

/-- The cell of storage that a place names: the same for a byte of a host's memory whichever home holds it. -/
def cellOf : Place → Nat × Nat × Nat
  | .dram sl o => (0, 0, sl * sliceBytes + o)
  | .host q _ a => (1, 0, q * 2 ^ 56 + a)
  | .scratch g o => (2, g, o)
  | .regs g o => (3, g, o)
  | .vault d v o => (4, 0, (d * 72 + v) * vaultBytes + o)

/-- A place without times whose storage exists: scratch of a grove, registers of a group, a vault. -/
def Stored (s : State) : Place → Prop
  | .dram _ _ | .host _ _ _ => False
  | .scratch g _ => (s.groves.at? g).isSome = true
  | .regs gid _ => ∃ g, s.groupAt gid = some g ∧ g.width ≤ 64
  | .vault _ _ _ => True

/-- The device line of a number: byte 0 of its 128. -/
def deviceLine (n : Nat) : Place := .dram (n * 128 / sliceBytes) (n * 128 % sliceBytes)

/-! ## Commands of a context page (R336, R337) -/

/-- A host's write reaches CMD of a page: the package is READY, and the VF is presented by a port and not in ERROR. -/
structure Calls (s : State) (vf page port : Nat) : Prop where
  ready : s.isReady = true
  page : page < 4
  port : s.vfPort vf = some port
  usable : (s.vfAt vf).tdisp ≠ .error

/-- The page holds a guardian role of the context whose lease stands. -/
structure Guards (s : State) (vf page port ctx : Nat) (x : Context) (g : Guardian) : Prop where
  calls : Calls s vf page port
  caller : s.caller vf page = some (ctx, g)
  context : s.contexts.at? ctx = some x

/-- The page holds the primary guardian's role. -/
structure Primary (s : State) (vf page port ctx : Nat) (x : Context) (g : Guardian) : Prop where
  guards : Guards s vf page port ctx x g
  first : x.guardians.head? = some g

/-- `t` with CMD of the page as a command of this code and argument leaves it, GO clear and its status given. -/
def replied (t : State) (vf page code : Nat) (arg0 : BitVec 32) (status : Nat) : State :=
  t.setPage vf page { t.pageAt vf page with arg0 := arg0, code := BitVec.ofNat 8 code, status := BitVec.ofNat 8 status }

/-- CMD of a PF as a command leaves it. -/
def portReplied (t : State) (port code : Nat) (arg0 : BitVec 32) (status : Nat) : State :=
  t.setPort port { t.portAt port with arg0 := arg0, code := BitVec.ofNat 8 code, status := BitVec.ofNat 8 status }

end Sys2Proof.Safety
end

