-- ==== Sys2Proof/Certificates/Slice0/Obligations.lean ====
section
/-! DEFINITION. The statements about the model that are to be proved. -/

open Sys2Proof Sys2Proof.Machine Sys2Proof.Safety

/-! ## Scalar integer words -/

/-- R60, R61, R63, R64, R323: the scalar sums, products, logic and moves, shifts, minima, maxima, comparisons and bit counts, their
immediate forms and the long immediates.  `saddpc` adds to the entry base and the plane's stride of the launch (R64); in steward mode the
entry base is TVEC's and the plane is 0 (R323), and the TVEC that is meant is the one that stood at the entry (log 71, DEDUCED). -/
def Obligations.ScalarArithmetic : Prop :=
  (∀ d a b, ScalarWord (.sadd d a b) d fun _ _ g => g.srcS .a a + g.srcS .b b) ∧
  (∀ d a b, ScalarWord (.ssub d a b) d fun _ _ g => g.srcS .a a - g.srcS .b b) ∧
  (∀ d a b, ScalarWord (.smul d a b) d fun _ _ g => g.srcS .a a * g.srcS .b b) ∧
  (∀ d a b, ScalarWord (.smulhI d a b) d fun _ _ g => BitVec.ofInt 64 ((g.srcS .a a).toInt * (g.srcS .b b).toInt / 2 ^ 64)) ∧
  (∀ d a b, ScalarWord (.smulhN d a b) d fun _ _ g => BitVec.ofNat 64 ((g.srcS .a a).toNat * (g.srcS .b b).toNat / 2 ^ 64)) ∧
  (∀ d a b, ScalarWord (.sand d a b) d fun _ _ g => g.srcS .a a &&& g.srcS .b b) ∧
  (∀ d a b, ScalarWord (.sor d a b) d fun _ _ g => g.srcS .a a ||| g.srcS .b b) ∧
  (∀ d a b, ScalarWord (.sxor d a b) d fun _ _ g => g.srcS .a a ^^^ g.srcS .b b) ∧
  (∀ d a b, ScalarWord (.sandn d a b) d fun _ _ g => g.srcS .a a &&& ~~~(g.srcS .b b)) ∧
  (∀ d a, ScalarWord (.smov d a) d fun _ _ g => g.srcS .a a) ∧
  (∀ d a k, ScalarWord (.saddi d a k) d fun _ _ g => g.srcS .a a + k.signExtend 64) ∧
  (∀ d a k, ScalarWord (.sandi d a k) d fun _ _ g => g.srcS .a a &&& k.signExtend 64) ∧
  (∀ d a k, ScalarWord (.sori d a k) d fun _ _ g => g.srcS .a a ||| k.signExtend 64) ∧
  (∀ d a k, ScalarWord (.sxori d a k) d fun _ _ g => g.srcS .a a ^^^ k.signExtend 64) ∧
  (∀ d k, ScalarWord (.smovi d k) d fun _ _ _ => k.signExtend 64) ∧
  (∀ d k, ScalarWord (.slui d k) d fun _ _ g => (g.srcS .d d <<< 17) ||| k.zeroExtend 64) ∧
  (∀ d k, ScalarWord (.saddpc d k) d fun s c g =>
    (match g.mode with
      | .user => BitVec.ofNat 64 ((s.recordOf g).entry + c.plane * ((s.recordOf g).pstride * 256))
      | .steward => BitVec.ofNat 64 g.vec) + (BitVec.ofNat 64 g.off + k.signExtend 64) * 4) ∧
  (∀ d a b, ScalarWord (.sshl d a b) d fun _ _ g => g.srcS .a a <<< ((g.srcS .b b).toNat % 64)) ∧
  (∀ d a b, ScalarWord (.sshr d a b) d fun _ _ g => g.srcS .a a >>> ((g.srcS .b b).toNat % 64)) ∧
  (∀ d a b, ScalarWord (.ssra d a b) d fun _ _ g => (g.srcS .a a).sshiftRight ((g.srcS .b b).toNat % 64)) ∧
  (∀ d a b, ScalarWord (.sminI d a b) d fun _ _ g => if (g.srcS .a a).toInt ≤ (g.srcS .b b).toInt then g.srcS .a a else g.srcS .b b) ∧
  (∀ d a b, ScalarWord (.sminN d a b) d fun _ _ g => if (g.srcS .a a).toNat ≤ (g.srcS .b b).toNat then g.srcS .a a else g.srcS .b b) ∧
  (∀ d a b, ScalarWord (.smaxI d a b) d fun _ _ g => if (g.srcS .a a).toInt ≤ (g.srcS .b b).toInt then g.srcS .b b else g.srcS .a a) ∧
  (∀ d a b, ScalarWord (.smaxN d a b) d fun _ _ g => if (g.srcS .a a).toNat ≤ (g.srcS .b b).toNat then g.srcS .b b else g.srcS .a a) ∧
  (∀ d a b, ScalarWord (.ssltI d a b) d fun _ _ g => if (g.srcS .a a).toInt < (g.srcS .b b).toInt then 1 else 0) ∧
  (∀ d a b, ScalarWord (.ssltN d a b) d fun _ _ g => if (g.srcS .a a).toNat < (g.srcS .b b).toNat then 1 else 0) ∧
  (∀ d a b, ScalarWord (.sseq d a b) d fun _ _ g => if g.srcS .a a = g.srcS .b b then 1 else 0) ∧
  (∀ d a, ScalarWord (.sclz d a) d fun _ _ g =>
    BitVec.ofNat 64 (if (g.srcS .a a).toNat = 0 then 64 else 63 - Nat.log2 (g.srcS .a a).toNat)) ∧
  (∀ d a, ScalarWord (.spop d a) d fun _ _ g =>
    BitVec.ofNat 64 ((List.range 64).filter fun k => (g.srcS .a a).getLsbD k).length) ∧
  (∀ d a n, ScalarWord (.sshli d a n) d fun _ _ g => g.srcS .a a <<< n.toNat) ∧
  (∀ d a n, ScalarWord (.sshri d a n) d fun _ _ g => g.srcS .a a >>> n.toNat) ∧
  (∀ d a n, ScalarWord (.ssrai d a n) d fun _ _ g => (g.srcS .a a).sshiftRight n.toNat) ∧
  (∀ d a k, ScalarWord (.sslti d a k) d fun _ _ g => if (g.srcS .a a).toInt < k.toInt then 1 else 0)

/-- R62: quotients and remainders for every operand, division by zero and the overflow of the most negative value among them. -/
def Obligations.ScalarDivision : Prop :=
  (∀ d a b, ScalarWord (.sdivI d a b) d fun _ _ g =>
    if g.srcS .b b = 0 then BitVec.allOnes 64 else BitVec.ofInt 64 ((g.srcS .a a).toInt.tdiv (g.srcS .b b).toInt)) ∧
  (∀ d a b, ScalarWord (.sdivN d a b) d fun _ _ g =>
    if g.srcS .b b = 0 then BitVec.allOnes 64 else BitVec.ofNat 64 ((g.srcS .a a).toNat / (g.srcS .b b).toNat)) ∧
  (∀ d a b, ScalarWord (.smodI d a b) d fun _ _ g =>
    if g.srcS .b b = 0 then g.srcS .a a else BitVec.ofInt 64 ((g.srcS .a a).toInt.tmod (g.srcS .b b).toInt)) ∧
  (∀ d a b, ScalarWord (.smodN d a b) d fun _ _ g =>
    if g.srcS .b b = 0 then g.srcS .a a else BitVec.ofNat 64 ((g.srcS .a a).toNat % (g.srcS .b b).toNat))

/-! ## Lane integer words -/

/-- R116 to R118, R120: lane sums, products, logic, minima, maxima and their immediate forms; lane shifts by counts
up to 63, bit counts and reversal, select by CM, and the byte dot products. -/
def Obligations.LaneArithmetic : Prop :=
  (∀ d a b, LaneWord (.vadd d a b) d fun g j => g.srcV .a a j + g.srcV .b b j) ∧
  (∀ d a b, LaneWord (.vsub d a b) d fun g j => g.srcV .a a j - g.srcV .b b j) ∧
  (∀ d a b, LaneWord (.vmul d a b) d fun g j => g.srcV .a a j * g.srcV .b b j) ∧
  (∀ d a b, LaneWord (.vmulhI d a b) d fun g j => BitVec.ofInt 32 ((g.srcV .a a j).toInt * (g.srcV .b b j).toInt / 2 ^ 32)) ∧
  (∀ d a b, LaneWord (.vmulhN d a b) d fun g j => BitVec.ofNat 32 ((g.srcV .a a j).toNat * (g.srcV .b b j).toNat / 2 ^ 32)) ∧
  (∀ d a b, LaneWord (.vmad d a b) d fun g j => g.srcV .a a j * g.srcV .b b j + g.srcV .d d j) ∧
  (∀ d a b, LaneWord (.vminI d a b) d fun g j => if (g.srcV .a a j).toInt ≤ (g.srcV .b b j).toInt then g.srcV .a a j else g.srcV .b b j) ∧
  (∀ d a b, LaneWord (.vminN d a b) d fun g j => if (g.srcV .a a j).toNat ≤ (g.srcV .b b j).toNat then g.srcV .a a j else g.srcV .b b j) ∧
  (∀ d a b, LaneWord (.vmaxI d a b) d fun g j => if (g.srcV .a a j).toInt ≤ (g.srcV .b b j).toInt then g.srcV .b b j else g.srcV .a a j) ∧
  (∀ d a b, LaneWord (.vmaxN d a b) d fun g j => if (g.srcV .a a j).toNat ≤ (g.srcV .b b j).toNat then g.srcV .b b j else g.srcV .a a j) ∧
  (∀ d a, LaneWord (.vabs d a) d fun g j => BitVec.ofInt 32 (g.srcV .a a j).toInt.natAbs) ∧
  (∀ d a b, LaneWord (.vand d a b) d fun g j => g.srcV .a a j &&& g.srcV .b b j) ∧
  (∀ d a b, LaneWord (.vor d a b) d fun g j => g.srcV .a a j ||| g.srcV .b b j) ∧
  (∀ d a b, LaneWord (.vxor d a b) d fun g j => g.srcV .a a j ^^^ g.srcV .b b j) ∧
  (∀ d a b, LaneWord (.vandn d a b) d fun g j => g.srcV .a a j &&& ~~~(g.srcV .b b j)) ∧
  (∀ d a k, LaneWord (.vaddi d a k) d fun g j => g.srcV .a a j + k.signExtend 32) ∧
  (∀ d a k, LaneWord (.vandi d a k) d fun g j => g.srcV .a a j &&& k.signExtend 32) ∧
  (∀ d a k, LaneWord (.vori d a k) d fun g j => g.srcV .a a j ||| k.signExtend 32) ∧
  (∀ d a k, LaneWord (.vxori d a k) d fun g j => g.srcV .a a j ^^^ k.signExtend 32) ∧
  (∀ d k, LaneWord (.vmovi d k) d fun _ _ => k.signExtend 32) ∧
  (∀ d a b, LaneWord (.vshl d a b) d fun g j => g.srcV .a a j <<< ((g.srcV .b b j).toNat % 64)) ∧
  (∀ d a b, LaneWord (.vshr d a b) d fun g j => g.srcV .a a j >>> ((g.srcV .b b j).toNat % 64)) ∧
  (∀ d a b, LaneWord (.vsra d a b) d fun g j => (g.srcV .a a j).sshiftRight ((g.srcV .b b j).toNat % 64)) ∧
  (∀ d a n, LaneWord (.vshli d a n) d fun g j => g.srcV .a a j <<< n.toNat) ∧
  (∀ d a n, LaneWord (.vshri d a n) d fun g j => g.srcV .a a j >>> n.toNat) ∧
  (∀ d a n, LaneWord (.vsrai d a n) d fun g j => (g.srcV .a a j).sshiftRight n.toNat) ∧
  (∀ d a, LaneWord (.vclz d a) d fun g j =>
    BitVec.ofNat 32 (if (g.srcV .a a j).toNat = 0 then 32 else 31 - Nat.log2 (g.srcV .a a j).toNat)) ∧
  (∀ d a, LaneWord (.vpop d a) d fun g j => BitVec.ofNat 32 ((List.range 32).filter fun k => (g.srcV .a a j).getLsbD k).length) ∧
  (∀ d a, LaneWord (.vbrev d a) d fun g j => (g.srcV .a a j).reverse) ∧
  (∀ d a b, LaneWord (.vsel d a b) d fun g j => if g.cm.getLsbD j then g.srcV .a a j else g.srcV .b b j) ∧
  (∀ d a b, LaneWord (.vdp4I d a b) d fun g j => g.srcV .d d j +
    BitVec.ofInt 32 (((List.range 4).map fun k =>
      ((g.srcV .a a j).extractLsb' (8 * k) 8).toInt * ((g.srcV .b b j).extractLsb' (8 * k) 8).toInt).sum)) ∧
  (∀ d a b, LaneWord (.vdp4N d a b) d fun g j => g.srcV .d d j +
    BitVec.ofNat 32 (((List.range 4).map fun k =>
      ((g.srcV .a a j).extractLsb' (8 * k) 8).toNat * ((g.srcV .b b j).extractLsb' (8 * k) 8).toNat).sum))

/-- R119, R124: a compare sets the CM bit of each active lane and keeps the others, at issue; it changes nothing else;
the float compares set the CM bit of each active lane by value (a NaN is unordered) and merge their flags at issue:
NV for any NaN from `lt` and `le`, for a signalling NaN from `eq` and `un`. -/
def Obligations.LaneCompares : Prop :=
  (∀ a b, CompareWord (.vcmpEq a b) (fun g j => decide (g.srcV .a a j = g.srcV .b b j)) fun _ _ => 0) ∧
  (∀ a b, CompareWord (.vcmpNe a b) (fun g j => decide (g.srcV .a a j ≠ g.srcV .b b j)) fun _ _ => 0) ∧
  (∀ a b, CompareWord (.vcmpLtI a b) (fun g j => decide ((g.srcV .a a j).toInt < (g.srcV .b b j).toInt)) fun _ _ => 0) ∧
  (∀ a b, CompareWord (.vcmpLtN a b) (fun g j => decide ((g.srcV .a a j).toNat < (g.srcV .b b j).toNat)) fun _ _ => 0) ∧
  (∀ a b, CompareWord (.vcmpLeI a b) (fun g j => decide ((g.srcV .a a j).toInt ≤ (g.srcV .b b j).toInt)) fun _ _ => 0) ∧
  (∀ a b, CompareWord (.vcmpLeN a b) (fun g j => decide ((g.srcV .a a j).toNat ≤ (g.srcV .b b j).toNat)) fun _ _ => 0) ∧
  (∀ a b, CompareWord (.vfcmpEq a b) (fun g j => !eitherNan g a b j && decide (order g .a a j = order g .b b j))
    fun g m => joinFlags ((lanesOf g.width m).map fun j => signalFlag g .a a j ||| signalFlag g .b b j)) ∧
  (∀ a b, CompareWord (.vfcmpUn a b) (fun g j => eitherNan g a b j)
    fun g m => joinFlags ((lanesOf g.width m).map fun j => signalFlag g .a a j ||| signalFlag g .b b j)) ∧
  (∀ a b, CompareWord (.vfcmpLt a b) (fun g j => !eitherNan g a b j && decide (order g .a a j < order g .b b j))
    fun g m => joinFlags ((lanesOf g.width m).map fun j => if eitherNan g a b j then 1 else 0)) ∧
  (∀ a b, CompareWord (.vfcmpLe a b) (fun g j => !eitherNan g a b j && decide (order g .a a j ≤ order g .b b j))
    fun g m => joinFlags ((lanesOf g.width m).map fun j => if eitherNan g a b j then 1 else 0))

/-! ## Float words -/

/-- R121, R127, R122, R123, R125, R126: the lane float sums, products and fused forms, on FP32 lanes and on FP16 and
BF16 pairs; minimum and maximum return an operand unrounded, the other operand beside a NaN, −0 below +0; the sign
operations change bit 31 alone and raise nothing; the reciprocal and the square root are rounded in RMODE, the other
functions to nearest whatever RMODE holds; each gives one result and its flags. -/
def Obligations.FloatArithmetic : Prop :=
  (∀ d a b, FloatWord (.vfadd d a b) d 1 fun g _ j => fp32.addc g.rounding (g.srcV .a a j).toNat (g.srcV .b b j).toNat) ∧
  (∀ d a b, FloatWord (.vfsub d a b) d 1 fun g _ j => fp32.subc g.rounding (g.srcV .a a j).toNat (g.srcV .b b j).toNat) ∧
  (∀ d a b, FloatWord (.vfmul d a b) d 1 fun g _ j => fp32.mulc g.rounding (g.srcV .a a j).toNat (g.srcV .b b j).toNat) ∧
  (∀ d a b, FloatWord (.vffma d a b) d 1 fun g _ j =>
    fp32.fmac g.rounding (g.srcV .a a j).toNat (g.srcV .b b j).toNat (g.srcV .d d j).toNat) ∧
  (∀ d a b, PairWord (.vhadd d a b) d fun g j k => fp16.addc g.rounding (elem g .a a j k) (elem g .b b j k)) ∧
  (∀ d a b, PairWord (.vhmul d a b) d fun g j k => fp16.mulc g.rounding (elem g .a a j k) (elem g .b b j k)) ∧
  (∀ d a b, PairWord (.vhfma d a b) d fun g j k => fp16.fmac g.rounding (elem g .a a j k) (elem g .b b j k) (elem g .d d j k)) ∧
  (∀ d a b, PairWord (.vbadd d a b) d fun g j k => bf16.addc g.rounding (elem g .a a j k) (elem g .b b j k)) ∧
  (∀ d a b, PairWord (.vbmul d a b) d fun g j k => bf16.mulc g.rounding (elem g .a a j k) (elem g .b b j k)) ∧
  (∀ d a b, PairWord (.vbfma d a b) d fun g j k => bf16.fmac g.rounding (elem g .a a j k) (elem g .b b j k) (elem g .d d j k)) ∧
  (∀ d a b, FloatWord (.vfmin d a b) d 1 fun g _ j => lesser g.ftz (g.srcV .a a j).toNat (g.srcV .b b j).toNat) ∧
  (∀ d a b, FloatWord (.vfmax d a b) d 1 fun g _ j => greater g.ftz (g.srcV .a a j).toNat (g.srcV .b b j).toNat) ∧
  (∀ d a, LaneWord (.vfabs d a) d fun g j => (g.srcV .a a j).setWidth 31 |>.zeroExtend 32) ∧
  (∀ d a, LaneWord (.vfneg d a) d fun g j => BitVec.ofBool (!(g.srcV .a a j).getLsbD 31) ++ (g.srcV .a a j).setWidth 31) ∧
  (∀ d a, FloatWord (.vfrcp d a) d 1 fun g _ j => fp32.op g.rounding (Val.recip (fp32.read g.ftz (g.srcV .a a j).toNat))) ∧
  (∀ d a, FloatWord (.vfsqrt d a) d 1 fun g _ j => fp32.op g.rounding (Val.sqrt (fp32.read g.ftz (g.srcV .a a j).toNat))) ∧
  (∀ d a, FloatWord (.vfrsq d a) d 1 fun g _ j => fp32.op ⟨0, g.ftz⟩ (Val.rsqrt (fp32.read g.ftz (g.srcV .a a j).toNat))) ∧
  (∀ d a, FloatWord (.vfexp2 d a) d 1 fun g _ j => fp32.op ⟨0, g.ftz⟩ (Val.exp2 (fp32.read g.ftz (g.srcV .a a j).toNat))) ∧
  (∀ d a, FloatWord (.vflog2 d a) d 1 fun g _ j => fp32.op ⟨0, g.ftz⟩ (Val.log2 (fp32.read g.ftz (g.srcV .a a j).toNat))) ∧
  (∀ d a, FloatWord (.vftanh d a) d 1 fun g _ j => fp32.op ⟨0, g.ftz⟩ (Val.tanh (fp32.read g.ftz (g.srcV .a a j).toNat)))

/-- R93, R95, R125, R126: the sum and the product that the float words round are exact, and so is the negation of a difference;
a zero sum has the sign that R95 gives it.  What the functions of R125 round: the reciprocal and the roots, told from every
number of the formats; the results of R126 for its special operands and exact cases; and for the rest of `exp2`, `log2`
and `tanh`, which the model computes in fixed point (log 45), numbers that lie where the function does and rise with it. -/
def Obligations.FloatValuesExact : Prop :=
  (∀ rm a m e b n f, ∃ c k q, Val.add rm (.fin a m e) (.fin b n f) = (.fin c k q, 0) ∧
    ratio c k q = ratio a m e + ratio b n f ∧
    (ratio a m e + ratio b n f = 0 → c = if a = b then a else decide (rm = 3))) ∧
  (∀ a m e b n f, ∃ c k q, Val.mul (.fin a m e) (.fin b n f) = (.fin c k q, 0) ∧
    ratio c k q = ratio a m e * ratio b n f ∧ c = (a != b)) ∧
  (∀ a m e, ∃ c, Val.neg (.fin a m e) = .fin c m e ∧ ratio c m e = -ratio a m e) ∧
  (∀ m e, 0 < m → m < 2 ^ 24 →
    (∀ a, ∃ k q, Val.recip (.fin a m e) = (.fin a k q, 0) ∧ StandsFor k q (fun y => y * ratio false m e) 1) ∧
    (∃ k q, Val.sqrt (.fin false m e) = (.fin false k q, 0) ∧ StandsFor k q (fun y => y * y) (ratio false m e)) ∧
    ∃ k q, Val.rsqrt (.fin false m e) = (.fin false k q, 0) ∧ StandsFor k q (fun y => y * y * ratio false m e) 1) ∧
  (∀ a e, Val.recip (.fin a 0 e) = (.inf a, 0b10) ∧ Val.rsqrt (.fin a 0 e) = (.inf a, 0b10) ∧ Val.sqrt (.fin a 0 e) = (.fin a 0 0, 0) ∧
    Val.exp2 (.fin a 0 e) = (.fin false 1 0, 0) ∧ Val.log2 (.fin a 0 e) = (.inf true, 0b10) ∧ Val.tanh (.fin a 0 e) = (.fin a 0 0, 0)) ∧
  (∀ a, Val.recip (.inf a) = (.fin a 0 0, 0) ∧ Val.exp2 (.inf a) = (if a then .fin false 0 0 else .inf false, 0) ∧
    Val.tanh (.inf a) = (.fin a 1 0, 0)) ∧
  Val.rsqrt (.inf false) = (.fin false 0 0, 0) ∧ Val.sqrt (.inf false) = (.inf false, 0) ∧ Val.log2 (.inf false) = (.inf false, 0) ∧
  (∀ f ∈ [Val.sqrt, Val.rsqrt, Val.log2], f (.inf true) = (.nan false, 1) ∧ ∀ m e, m ≠ 0 → f (.fin true m e) = (.nan false, 1)) ∧
  (∀ f ∈ [Val.recip, Val.sqrt, Val.rsqrt, Val.exp2, Val.log2, Val.tanh], ∀ q, f (.nan q) = (.nan false, if q then 1 else 0)) ∧
  (∀ a m e, m ≠ 0 → -149 ≤ e → let x := ratio a m e
    (128 ≤ x → Val.exp2 (.fin a m e) = (.inf false, 0b10100)) ∧
    (x ≤ -150 → Val.exp2 (.fin a m e) = (.fin false 0 0, 0b11000)) ∧
    (∀ n : Int, x = n → -150 < n → n < 128 → Val.exp2 (.fin a m e) = (.fin false 1 n, 0)) ∧
    ((⌊x⌋ : Rat) ≠ x → -150 < x → x < 128 → ∃ k q, Val.exp2 (.fin a m e) = (.fin false k q, 0) ∧
      ratio false 1 ⌊x⌋ < ratio false k q ∧ ratio false k q < ratio false 1 (⌊x⌋ + 1) ∧
      ∀ b n f k' q', n ≠ 0 → -149 ≤ f → x ≤ ratio b n f → Val.exp2 (.fin b n f) = (.fin false k' q', 0) →
        ratio false k q ≤ ratio false k' q')) ∧
  (∀ m e, 0 < m → m < 2 ^ 24 → let k := Nat.log2 m
    (m = 2 ^ k → ∃ c n, Val.log2 (.fin false m e) = (.fin c n 0, 0) ∧ ratio c n 0 = e + k) ∧
    (m ≠ 2 ^ k → ∃ c n q, Val.log2 (.fin false m e) = (.fin c n q, 0) ∧
      (e + k : Rat) < ratio c n q ∧ ratio c n q ≤ (e + k : Rat) + 1 + ratio false 1 (-200) ∧
      ∀ m' c' n' q', m ≤ m' → m' < 2 ^ (k + 1) → Val.log2 (.fin false m' e) = (.fin c' n' q', 0) →
        ratio c n q ≤ ratio c' n' q')) ∧
  ∀ m e, m ≠ 0 → let x := ratio false m e
    (9 ≤ x → ∀ a, Val.tanh (.fin a m e) = (.fin a 1 0, 0b10000)) ∧
    (x < ratio false 1 (-12) → ∀ a, Val.tanh (.fin a m e) = (.fin a m e, if x < ratio false 1 (-126) then 0b11000 else 0b10000)) ∧
    (ratio false 1 (-12) ≤ x → x < 9 → ∃ k q, (∀ a, Val.tanh (.fin a m e) = (.fin a k q, 0)) ∧
      0 < ratio false k q ∧ ratio false k q < 1 ∧
      ∀ n f k' q', x ≤ ratio false n f → ratio false n f < 9 → Val.tanh (.fin false n f) = (.fin false k' q', 0) →
        ratio false k q ≤ ratio false k' q')

/-- R89, R90, R91, R93, R94, R95, R96, R97, R121: a nonzero number is rounded to the nearest magnitude of the format in RNE, the even code of two that
are as near; toward zero in RZ, up in RU and down in RD, to the next magnitude that the format holds.  From where a mode's result
would exceed the largest finite magnitude, that mode gives what R94 gives, with OF and NX; below, NX says that the result is not
exact, with UF where the number, rounded to the format's precision alone, is below the least normal magnitude.  A code reads as
its magnitude and its sign, and a value that a format holds is written as its own code, in every mode and with no flag.  With FTZ a
subnormal code reads as the zero of its sign, and a result below the least normal magnitude is that zero, with UF and NX (R96).
The sums, differences, products and fused forms of codes are the exact number of the codes read, rounded once (R93, R95); a NaN
operand, and an invalid operation with NV, give the canonical NaN (R90), and NV is raised for a signalling one (R91, R121). -/
def Obligations.FloatRounding : Prop :=
  (fp32.nanCode = 0x7FC00000 ∧ fp16.nanCode = 0x7E00 ∧ bf16.nanCode = 0x7FC0) ∧
  (∀ f ∈ [fp32, fp16, bf16],
    (∀ ftz c, c < 2 * f.signBit →
      (f.infCode < c % f.signBit → f.read ftz c = .nan (decide (c % 2 ^ f.fb < 2 ^ (f.fb - 1)))) ∧
      (c % f.signBit = f.infCode → f.read ftz c = .inf (decide (f.signBit ≤ c))) ∧
      (c % f.signBit < 2 ^ f.fb → ∃ e, f.read true c = .fin (decide (f.signBit ≤ c)) 0 e) ∧
      (2 ^ f.fb ≤ c % f.signBit → f.read true c = f.read false c)) ∧
    (∀ rm neg m e, m ≠ 0 → f.round rm true neg m e =
      if (f.round rm false neg m e).1 < 2 ^ f.fb then (0, 0b11000) else f.round rm false neg m e) ∧
    let inf (neg : Bool) : Nat := (if neg then f.signBit else 0) + f.infCode
    (∀ rm ftz, (∀ q, f.write rm ftz (.nan q) = (f.nanCode, 0)) ∧ (∀ neg, f.write rm ftz (.inf neg) = (inf neg, 0)) ∧
      ∀ neg m e, f.write rm ftz (.fin neg m e) = if m = 0 then (if neg then f.signBit else 0, 0)
        else ((if neg then f.signBit else 0) + (f.round rm ftz neg m e).1, (f.round rm ftz neg m e).2)) ∧
    (∀ (r : Rounding) v fl, f.op r (v, fl) = ((f.write r.rm r.ftz v).1, fl ||| (f.write r.rm r.ftz v).2) ∧
      f.convert r v = ((f.write r.rm r.ftz v).1, (if v = .nan true then 1 else 0) ||| (f.write r.rm r.ftz v).2)) ∧
    ∀ (r : Rounding) a b d,
      let x := f.read r.ftz a
      let y := f.read r.ftz b
      let z := f.read r.ftz d
      let isNan (v : Val) : Prop := ∃ q, v = .nan q
      let signals (p : Prop) [Decidable p] : BitVec 5 := if p then 1 else 0
      (isNan x ∨ isNan y →
        let result := (f.nanCode, signals (x = .nan true ∨ y = .nan true))
        f.addc r a b = result ∧ f.subc r a b = result ∧ f.mulc r a b = result) ∧
      (∀ s t, x = .inf s → y = .inf t →
        f.addc r a b = (if s = t then (inf s, 0) else (f.nanCode, 1)) ∧ f.subc r a b = (if s = t then (f.nanCode, 1) else (inf s, 0)) ∧
        f.mulc r a b = (inf (s != t), 0)) ∧
      (∀ s t n e, x = .inf s → y = .fin t n e →
        f.addc r a b = (inf s, 0) ∧ f.addc r b a = (inf s, 0) ∧ f.subc r a b = (inf s, 0) ∧ f.subc r b a = (inf (!s), 0) ∧
        ∀ p ∈ [f.mulc r a b, f.mulc r b a], p = if n = 0 then (f.nanCode, 1) else (inf (s != t), 0)) ∧
      (∀ s m e t n q, x = .fin s m e → y = .fin t n q →
        (∃ c k p, ratio c k p = ratio s m e + ratio t n q ∧ (ratio c k p = 0 → c = if s = t then s else decide (r.rm = 3)) ∧
          f.addc r a b = f.write r.rm r.ftz (.fin c k p)) ∧
        (∃ c k p, ratio c k p = ratio s m e - ratio t n q ∧ (ratio c k p = 0 → c = if s = !t then s else decide (r.rm = 3)) ∧
          f.subc r a b = f.write r.rm r.ftz (.fin c k p)) ∧
        ∃ k p, ratio (s != t) k p = ratio s m e * ratio t n q ∧ f.mulc r a b = f.write r.rm r.ftz (.fin (s != t) k p)) ∧
      let zeroTimesInf : Prop := ∃ s t e, (x = .inf s ∧ y = .fin t 0 e) ∨ (y = .inf s ∧ x = .fin t 0 e)
      let infProduct (s : Bool) : Prop := ∃ u v, s = (u != v) ∧ ((x = .inf u ∧ y = .inf v) ∨
        ∃ n e, n ≠ 0 ∧ ((x = .inf u ∧ y = .fin v n e) ∨ (y = .inf u ∧ x = .fin v n e)))
      (zeroTimesInf → f.fmac r a b d = (f.nanCode, 1)) ∧
      (¬ zeroTimesInf → isNan x ∨ isNan y ∨ isNan z →
        f.fmac r a b d = (f.nanCode, signals (x = .nan true ∨ y = .nan true ∨ z = .nan true))) ∧
      (∀ s, infProduct s → (∀ t, z = .inf t → f.fmac r a b d = if s = t then (inf s, 0) else (f.nanCode, 1)) ∧
        ∀ t n e, z = .fin t n e → f.fmac r a b d = (inf s, 0)) ∧
      ∀ s m e t n q, x = .fin s m e → y = .fin t n q →
        (∀ u, z = .inf u → f.fmac r a b d = (inf u, 0)) ∧
        ∀ u l w, z = .fin u l w → ∃ c k p, ratio c k p = ratio s m e * ratio t n q + ratio u l w ∧
          (ratio c k p = 0 → c = if (s != t) = u then u else decide (r.rm = 3)) ∧
          f.fmac r a b d = f.write r.rm r.ftz (.fin c k p)) ∧
  (∀ f ∈ [fp32, fp16, bf16], ∀ rm neg m e c fl, m ≠ 0 → f.round rm false neg m e = (c, fl) →
     let x := ratio false m e
     let top := magnitude f (f.infCode - 1)
     let limit := magnitude f f.infCode
     let normal := magnitude f (2 ^ f.fb)
     let ulp := normal / 2 ^ (f.fb + 1)
     let flags (tiny : Prop) [Decidable tiny] : BitVec 5 := if magnitude f c = x then 0 else if tiny then 0b11000 else 0b10000
     (rm = 0 →
       ((top + limit) / 2 ≤ x → c = f.infCode ∧ fl = 0b10100) ∧
       (x < (top + limit) / 2 → c < f.infCode ∧ fl = flags (x < normal - ulp / 2) ∧
         ∀ k < f.infCode, |magnitude f c - x| ≤ |magnitude f k - x| ∧
           (|magnitude f c - x| = |magnitude f k - x| → k = c ∨ c % 2 = 0))) ∧
     (rm = 1 ∨ (rm = 2 ∧ neg = true) ∨ (rm = 3 ∧ neg = false) →
       (limit ≤ x → c = f.infCode - 1 ∧ fl = 0b10100) ∧
       (x < limit → c < f.infCode ∧ fl = flags (x < normal) ∧ magnitude f c ≤ x ∧
         ∀ k < f.infCode, magnitude f k ≤ x → magnitude f k ≤ magnitude f c)) ∧
     ((rm = 2 ∧ neg = false) ∨ (rm = 3 ∧ neg = true) →
       (top < x → c = f.infCode ∧ fl = 0b10100) ∧
       (x ≤ top → c < f.infCode ∧ fl = flags (x ≤ normal - ulp) ∧ x ≤ magnitude f c ∧
         ∀ k < f.infCode, x ≤ magnitude f k → magnitude f c ≤ magnitude f k))) ∧
  (∀ f ∈ [fp32, fp16, bf16],
     (∀ c < f.infCode, ∃ m e, f.read false c = .fin false m e ∧ f.read false (f.signBit + c) = .fin true m e ∧
       ratio false m e = magnitude f c) ∧
     ∀ rm c, c < 2 * f.signBit → c % f.signBit ≤ f.infCode → f.write rm false (f.read false c) = (c, 0))

/-! ## Conversions and cross-lane words -/

/-- R103, R104: the conversions: INT32 and FP32, one register to a pair or quad and back, element k of a lane
with register k; what an FP32 number becomes as an INT32, in E4M3 and in E5M2, and what the codes of those two read as. -/
def Obligations.Conversions : Prop :=
  (∀ d a, FloatWord (.vcvtFI d a) d 1 fun g _ j =>
    fp32.write g.rmode g.ftz (.fin (decide ((g.srcV .a a j).toInt < 0)) (g.srcV .a a j).toInt.natAbs 0)) ∧
  (∀ d a, FloatWord (.vcvtIF d a) d 1 fun g _ j =>
    let r := (fp32.read g.ftz (g.srcV .a a j).toNat).toInt32 g.rmode
    (r.1.toNat, r.2)) ∧
  (∀ d a, FloatWord (.vcvtFH d a) d 2 fun g k j => fp32.convert g.rounding (fp16.read g.ftz (elem g .a a j k))) ∧
  (∀ d a, FloatWord (.vcvtFB d a) d 2 fun g k j => fp32.convert g.rounding (bf16.read g.ftz (elem g .a a j k))) ∧
  (∀ d a, PairWord (.vcvtHF d a) d fun g j k => fp16.convert g.rounding (fp32.read g.ftz (g.srcVk .a a k j).toNat)) ∧
  (∀ d a, PairWord (.vcvtBF d a) d fun g j k => bf16.convert g.rounding (fp32.read g.ftz (g.srcVk .a a k j).toNat)) ∧
  (∀ d a, QuadWord (.vpackE4 d a) d fun g j k => toE4m3 (fp32.read false (g.srcVk .a a k j).toNat)) ∧
  (∀ d a, QuadWord (.vpackE5 d a) d fun g j k => toE5m2 (fp32.read false (g.srcVk .a a k j).toNat)) ∧
  (∀ d a, QuadWord (.vpackLx d a) d fun g j k => toLx8 (fp32.read false (g.srcVk .a a k j).toNat)) ∧
  (∀ d a, FloatWord (.vunpkE4 d a) d 4 fun g k j =>
    ((fp32.write 0 false (e4m3Read ((g.srcV .a a j).toNat / 2 ^ (8 * k) % 256))).1, 0)) ∧
  (∀ d a, FloatWord (.vunpkE5 d a) d 4 fun g k j =>
    ((fp32.write 0 false (e5m2Read ((g.srcV .a a j).toNat / 2 ^ (8 * k) % 256))).1, 0)) ∧
  (∀ d a, FloatWord (.vunpkLx d a) d 4 fun g k j =>
    ((fp32.write 0 false (lx8Read ((g.srcV .a a j).toNat / 2 ^ (8 * k) % 256))).1, 0)) ∧
  (∀ rm q a, Val.toInt32 rm (.nan q) = (0, 1) ∧ Val.toInt32 rm (.inf a) = (if a then 0x80000000 else 0x7FFFFFFF, 1)) ∧
  (∀ rm a m e, ∃ r : Int, RoundsTo rm (ratio a m e) r ∧ Val.toInt32 rm (.fin a m e) =
    if 2 ^ 31 ≤ r then (0x7FFFFFFF, 1) else if r < -(2 ^ 31) then (0x80000000, 1)
    else (BitVec.ofInt 32 r, if (r : Rat) = ratio a m e then 0 else 0b10000)) ∧
  PacksTo e4m3 0x7E (ratio false 1 (-6)) toE4m3 ∧ PacksTo e5m2 0x7B (ratio false 1 (-14)) toE5m2 ∧
  (∀ q, toE4m3 (.nan q) = (0x7F, if q then 1 else 0) ∧ toE5m2 (.nan q) = (0x7E, if q then 1 else 0)) ∧
  (∀ a, toE4m3 (.inf a) = ((if a then 128 else 0) + 0x7E, 0b10100) ∧ toE5m2 (.inf a) = ((if a then 128 else 0) + 0x7C, 0)) ∧
  ∀ c < 256,
    (c % 128 = 0x7F → e4m3Read c = .nan false) ∧ (0x7C < c % 128 → e5m2Read c = .nan false) ∧
    (c % 128 = 0x7C → e5m2Read c = .inf (decide (128 ≤ c))) ∧
    (c % 128 < 0x7F → ∃ m e, e4m3Read c = .fin (decide (128 ≤ c)) m e ∧ ratio false m e = magnitude e4m3 (c % 128)) ∧
    (c % 128 < 0x7C → ∃ m e, e5m2Read c = .fin (decide (128 ≤ c)) m e ∧ ratio false m e = magnitude e5m2 (c % 128))

/-- R101, R102: packing any LX8 code's value gives that code back with no flag, so that `vpack.lx` reads what `vunpk.lx` writes.
A NaN packs as 0x80, with NV if it is signalling; a zero of either sign as 0x00; a magnitude above 8,192, and an infinity, as the
greatest code of its sign, with OF and NX; any other number as the code nearest to it: of two as near the one whose bit 0 is clear, or
the smaller where neither's is; a number that rounds to 0 loses its sign.  NX says that the result is not exact, with UF
below 2^−15. -/
def Obligations.Lx8RoundTrip : Prop :=
  (∀ c < 256, toLx8 (fp32.read false (fp32.write 0 false (lx8Read c)).1) = (c, 0)) ∧
  (∀ q, toLx8 (.nan q) = (0x80, if q = true then 1 else 0)) ∧
  (∀ a, toLx8 (.inf a) = (if a = true then 0x83 else 0x03, 0b10100)) ∧
  (∀ a e, toLx8 (.fin a 0 e) = (0, 0)) ∧
  ∀ a m e, m ≠ 0 →
    let x := ratio false m e
    (8192 < x → toLx8 (.fin a m e) = (if a = true then 0x83 else 0x03, 0b10100)) ∧
    (x ≤ 8192 → ∃ k < 128, ∃ v : Rat, lx8Magnitude k = v ∧
      toLx8 (.fin a m e) = (if k = 0 then 0 else if a = true then k + 128 else k,
        if v = x then 0 else if x < ratio false 1 (-15) then 0b11000 else 0b10000) ∧
      ∀ j < 128, |v - x| ≤ |lx8Magnitude j - x| ∧
        (|v - x| = |lx8Magnitude j - x| → j ≠ k → k % 2 = 0 ∨ (j % 2 = 1 ∧ v < lx8Magnitude j)))

/-- R129, R130, R132, R134: the cross-lane words: an active lane receives its source lane's value whatever that lane's
own activity, zero from a lane at or above the width; the prefix sum over the active lanes; moves between lanes and
scalars. -/
def Obligations.CrossLaneWords : Prop :=
  (∀ d a b, LaneWord (.vshfl d a b) d fun g j => if (g.srcV .b b j).toNat < g.width then g.srcV .a a (g.srcV .b b j).toNat else 0) ∧
  (∀ d a b, LaneWord (.vrot d a b) d fun g j =>
    g.srcV .a a ((j + (g.srcS .b b).toNat) % g.width)) ∧
  (∀ d a b, LaneWord (.vbcast d a b) d fun g _ => if (g.srcS .b b).toNat < g.width then g.srcV .a a (g.srcS .b b).toNat else 0) ∧
  (∀ d a, LaneWord (.vmovs d a) d fun g _ => (g.srcS .a a).setWidth 32) ∧
  (∀ d a s c g, Ready (.vscanAddI d a) s c g → GivesLanes (.vscanAddI d a) s c g d 1
    (fun _ j => (((List.range (j + 1)).filter fun i => c.mask.getLsbD i).map (g.srcV .a a)).sum) 0) ∧
  (∀ d a b, ScalarWord (.smovv d a b) d fun _ _ g =>
    if (g.srcS .b b).toNat < g.width then (g.srcV .a a (g.srcS .b b).toNat).zeroExtend 64 else 0) ∧
  (∀ d a s c g, Ready (.vballot d a) s c g → ∃ m, GivesScalar (.vballot d a) s c g d m 0 ∧
    ∀ j < 64, m.getLsbD j = (decide (j < g.width) && c.mask.getLsbD j && decide (g.srcV .a a j ≠ 0)))

/-- R106, R131: the reductions give one scalar by the fixed tree over the lanes of the issue mask: the sum, the least
and the greatest of the active lanes, the value of the empty mask when there is none. -/
def Obligations.Reductions : Prop :=
  ∀ d a s c g, g.width ∈ [16, 32, 64] →
    (Ready (.vredAddI d a) s c g → GivesScalar (.vredAddI d a) s c g d
      (((lanesOf g.width c.mask).map (g.srcV .a a)).sum.zeroExtend 64) 0) ∧
    (Ready (.vredMinI d a) s c g → ∃ v : Lane, GivesScalar (.vredMinI d a) s c g d (v.zeroExtend 64) 0 ∧
      (v = 0x7FFFFFFF ∨ v ∈ (lanesOf g.width c.mask).map (g.srcV .a a)) ∧
      ∀ j ∈ lanesOf g.width c.mask, v.toInt ≤ (g.srcV .a a j).toInt) ∧
    (Ready (.vredMaxI d a) s c g → ∃ v : Lane, GivesScalar (.vredMaxI d a) s c g d (v.zeroExtend 64) 0 ∧
      (v = 0x80000000 ∨ v ∈ (lanesOf g.width c.mask).map (g.srcV .a a)) ∧
      ∀ j ∈ lanesOf g.width c.mask, (g.srcV .a a j).toInt ≤ v.toInt) ∧
    (Ready (.vredAddF d a) s c g → GivesScalar (.vredAddF d a) s c g d
      ((laneTree g a c.mask 0 (fp32.addc g.rounding)).1.zeroExtend 64) (laneTree g a c.mask 0 (fp32.addc g.rounding)).2) ∧
    (Ready (.vredMaxF d a) s c g → GivesScalar (.vredMaxF d a) s c g d
      ((laneTree g a c.mask 0xFF800000 (greater g.ftz)).1.zeroExtend 64) (laneTree g a c.mask 0xFF800000 (greater g.ftz)).2)

/-! ## The mask stack and the planes -/

/-- R39, R167, R168, R172: `vif` pushes XM and narrows it to CM, `velse` turns to the other lanes of the entry's mask,
`vendif` restores it, each at issue and changing nothing else, and each with zero in the bits at the width and above; a
full stack traps with CODE 3, an empty one with CODE 4; `xmset` and `xmget` write and read XM. -/
def Obligations.MaskStackWords : Prop :=
  (∀ s c g, Ready .vif s c g → exec .vif s = .next (if g.stack.length = 8 then s.trapWord c g 3 0 0 0
    else s.setGroup c.gid { g with stack := g.stack ++ [g.xm], xm := g.xm &&& g.cm })) ∧
  (∀ s c g, Ready .velse s c g →
    (g.stack = [] → exec .velse s = .next (s.trapWord c g 4 0 0 0)) ∧
    (∀ l m, g.stack = l ++ [m] → exec .velse s = .next (s.setGroup c.gid
      { g with xm := BitVec.ofNat 64 ((m &&& ~~~g.xm).toNat % 2 ^ g.width) }))) ∧
  (∀ s c g, Ready .vendif s c g →
    (g.stack = [] → exec .vendif s = .next (s.trapWord c g 4 0 0 0)) ∧
    (∀ l m, g.stack = l ++ [m] → exec .vendif s = .next (s.setGroup c.gid
      { g with xm := BitVec.ofNat 64 (m.toNat % 2 ^ g.width), stack := l }))) ∧
  (∀ a, GroupWord (.xmset a) fun _ _ g =>
    { g with xm := BitVec.ofNat 64 ((g.srcS .a a).toNat % 2 ^ g.width) }) ∧
  (∀ d, ScalarWord (.xmget d) d fun _ _ g => g.xm)

/-- R182: the plane words at issue: `plset`, `plsel` and `pljoin` move issuing lanes and no other, `plmask` writes every
bit of CM below the width, `plocc` reads the occupied planes of XM. -/
def Obligations.PlaneWords : Prop :=
  (∀ a, PlaneWord (.plset a) (fun _ _ => true) fun g j => (g.srcV .a a j).toNat % 4 % g.planes) ∧
  (∀ l, PlaneWord (.plsel l) (fun g j => g.cm.getLsbD j) fun _ _ => l.toNat) ∧
  PlaneWord .pljoin (fun _ _ => true) (fun _ _ => 0) ∧
  (∀ l s c g, Ready (.plmask l) s c g → ∃ g', exec (.plmask l) s = .next (s.setGroup c.gid g') ∧
    (∀ j < 64, g'.cm.getLsbD j = (decide (j < g.width) && g.xm.getLsbD j && decide (g.planeOf j = l.toNat))) ∧
    g'.results.map (fun r => { r with past := [] }) = g.results.map (fun r => { r with past := [] }) ∧
    { g' with cm := g.cm, gens := g.gens, results := g.results } = g) ∧
  (∀ d s c g, Ready (.plocc d) s c g → ∃ m, GivesScalar (.plocc d) s c g d m 0 ∧
    ∀ p < 64, m.getLsbD p = true ↔ ∃ j < g.width, g.xm.getLsbD j = true ∧ g.planeOf j = p)

/-! ## Memory words -/

/-- R78, R79, R204, R205, R206, R294, R315, R316, R317, R319: the accesses that pass the checks are located in the order of the word, each with its own address;
a place outside global memory is the one that the map names, and nothing but the translations that the group's core
caches has changed: every byte reads as before.  When some accesses fault, the word traps by the lowest lane whose fault
is not replayable, else by the lowest, with the address of the lowest lane that faults and TLANE naming every lane that
does; a replayable fault parks the group for its guardian, any other is delivered to its handler.

A global address goes through the context's tables (R315, R316, R317): the walk reads the entry of each level from 0 on, and stops at
one that is not valid (CODE 7, DETAIL 0x01) or is ill-formed (0x03), and else at the leaf; the leaf is judged in the order severance
(0x05), broken placement (R206, 0x04), peer page used by a group (R204, CODE 8), write without W (0x02 with DT, else CODE 8); device
memory lies where R205 puts it, and a host's page at the home that R204 names.  A core that has cached a leaf uses it where it permits the
access, and else walks; it caches a good leaf and no fault (R319). -/
def Obligations.AccessesLocated : Prop :=
  (∀ (s : State) glade pa, let x := s.gladeAt glade
    let shared := x.len * x.shareB * 2 ^ 30
    let part := (48 - x.shareB) * 2 ^ 30
    (pa < shared → s.dramPlace glade pa = .dram (glade + pa / 2 ^ 12 % x.len) (pa / 2 ^ 12 / x.len * 2 ^ 12 + pa % 2 ^ 12)) ∧
    (shared ≤ pa → x.shareB < 48 →
      s.dramPlace glade pa = .dram (glade + (pa - shared) / part) (x.shareB * 2 ^ 30 + (pa - shared) % part))) ∧
  (∀ (s : State) ctx va, s.walk ctx va = s.walkFrom ctx va 4 0 (s.contextAt ctx).cfg.root) ∧
  (∀ (s : State) ctx va fuel level table, level < 4 →
    let glade := (s.contextAt ctx).glade
    let bytes := (s.gladeAt glade).len * (48 * 2 ^ 30)
    let span := 2 ^ [39, 30, 21, 16].getD level 0
    let index := va / span % [512, 512, 512, 32].getD level 0
    let e : Scalar := BitVec.ofNat 64 (fromBytes (s.bytesAt (s.keyOf ctx) (s.dramPlace glade (table + 8 * index)) 8))
    (e.getLsbD 0 = false → s.walkFrom ctx va (fuel + 1) level table = .error 0x01) ∧
    (e.getLsbD 0 = true → IllFormed level span bytes e → s.walkFrom ctx va (fuel + 1) level table = .error 0x03) ∧
    (e.getLsbD 0 = true → ¬ IllFormed level span bytes e →
      (e.getLsbD 7 = true → s.walkFrom ctx va (fuel + 1) level table = .ok { entry := e, base := va / span * span, size := span }) ∧
      (e.getLsbD 7 = false → s.walkFrom ctx va (fuel + 1) level table = s.walkFrom ctx va fuel (level + 1) (frameOf e)))) ∧
  (∀ (s : State) ctx (l : Leaf) va write byGroup,
    let e := l.entry
    let x := s.contextAt ctx
    let gl := s.gladeAt x.glade
    let shared := gl.len * gl.shareB * 2 ^ 30
    let severed : Prop := (backOf e = 1 ∧ x.sevp.getLsbD (tgtOf e) = true) ∨ (e.getLsbD 5 = true ∧ x.sevgb = true)
    let placed : Prop := if e.getLsbD 59 = true then shared ≤ frameOf e ∧
        (x.glade + (frameOf e - shared) / ((48 - gl.shareB) * 2 ^ 30)) / 3 = e.toNat / 2 ^ 57 % 4
      else frameOf e < shared
    let a := frameOf e + (va - l.base)
    (severed → s.judge ctx l va write byGroup = .error (7, 0x05)) ∧
    (¬ severed →
      (backOf e = 0 → ¬ placed → s.judge ctx l va write byGroup = .error (7, 0x04)) ∧
      ((backOf e = 0 → placed) →
        (backOf e = 2 → byGroup = true → s.judge ctx l va write byGroup = .error (8, 0)) ∧
        (¬ (backOf e = 2 ∧ byGroup = true) →
          (write = true → e.getLsbD 1 = false → s.judge ctx l va write byGroup = .error (if e.getLsbD 6 then (7, 0x02) else (8, 0))) ∧
          (¬ (write = true ∧ e.getLsbD 1 = false) →
            (backOf e = 0 → s.judge ctx l va write byGroup = .ok (.place (s.dramPlace x.glade a))) ∧
            (backOf e = 1 → s.judge ctx l va write byGroup = .ok (.place (.host (tgtOf e) (x.glade + a / 2 ^ 12 % gl.len) a))) ∧
            (backOf e = 2 → s.judge ctx l va write byGroup = .ok (.peer (tgtOf e) a))))))) ∧
  (∀ (s : State) core ctx va write,
    let anew : Prop :=
      (∀ d, s.walk ctx va = .error d → s.translate core ctx va write = (s, .error (7, d))) ∧
      ∀ l, s.walk ctx va = .ok l → (∀ e, s.judge ctx l va write true = .error e → s.translate core ctx va write = (s, .error e)) ∧
        ∀ t, s.judge ctx l va write true = .ok t →
          s.translate core ctx va write = (s.setCore core ((s.coreAt core).cacheLeaf ctx l), .ok t)
    ((s.coreAt core).cached ctx va = none → anew) ∧
    ∀ l, (s.coreAt core).cached ctx va = some l →
      (∀ t, s.judge ctx l va write true = .ok t → s.translate core ctx va write = (s, .ok t)) ∧
      (∀ e, s.judge ctx l va write true = .error e → anew)) ∧
  (∀ s c g scalar write regs size la t good, Reaches s c g scalar write regs size la t good →
    good.map (fun e => (e.1, e.2.1)) = la ∧
    (∀ e ∈ good, e.2.1.toNat % size = 0 ∧ ∀ p, s.mapAddr c.gid g e.2.1 = some (.here p) → e.2.2 = p) ∧
    (∀ k, (t.coreAt k).l1 = (s.coreAt k).l1 ∧ (t.coreAt k).phase = (s.coreAt k).phase) ∧
    { t with cores := s.cores } = s) ∧
  ∀ (s : State) (c : Issue) (g : Machine.Group) scalar (bad : List Faulted) i a code d rest, s.cur = some c → s.groupAt c.gid = some g →
    g.mode = .user → (s.contextAt g.ctx).tvec ≠ 0 → (s.contextAt g.ctx).state = .guarded ∨ (s.contextAt g.ctx).state = .shared →
    bad = (i, a, code, d) :: rest → (∀ f ∈ bad, f.2.2.1 < 32 ∧ f.2.2.2 < 256 ∧ ¬ (f.2.2.1 = 7 ∧ f.2.2.2 = 3)) →
    let retry (f : Faulted) : Bool := decide (f.2.2.1 = 7 ∧ (f.2.2.2 = 1 ∨ f.2.2.2 = 2 ∨ f.2.2.2 = 5))
    let e : Faulted := (bad.find? fun f => !retry f).getD (i, a, code, d)
    let t := s.accessFault c scalar bad
    ∃ g', t.groupAt c.gid = some g' ∧ t.cur = some { c with fate := .left } ∧ (∀ k, k ≠ c.gid → t.groupAt k = s.groupAt k) ∧
      g'.tcause = BitVec.ofNat 64 (e.2.2.2 * 256 + e.2.2.1) ∧ g'.taddr = a ∧
      g'.tlane = (if scalar then 0 else maskOf (bad.map (·.1))) ∧ (e.2.2.1 = 7 ∨ e.2.2.1 = 8 → g'.laneTrap = !scalar) ∧
      g'.toff = BitVec.ofNat 20 g.off ∧ g'.tdone = g.doneP ∧ g'.tplane = BitVec.ofNat 2 c.plane ∧ g'.vregs = g.vregs ∧
      g'.results = g.results ∧ t.loads = s.loads ∧ t.entries = s.entries ∧ t.locals = s.locals ∧ SameMemory s t ∧
      (retry e = true → g'.mode = .user ∧ g'.wait = .guardian (s.contextAt g.ctx).nextNotice) ∧
      (retry e = false → g.results ≠ [] → g'.mode = .user ∧ g'.wait = .trap) ∧
      (retry e = false → g.results = [] → g'.mode = .steward ∧ g'.off = 0 ∧ g'.wait = .none)

/-- R80, R83, R84, R294: the vector and scalar loads of every width and form, those of which some lanes fault among them. -/
def Obligations.Loads : Prop :=
  (∀ d a b, LoadWord (.vldB d a b) false d 1 1 .zero8 fun c g => eachLane c g (laneBase g a b)) ∧
  (∀ d a b, LoadWord (.vldBI d a b) false d 1 1 .sign8 fun c g => eachLane c g (laneBase g a b)) ∧
  (∀ d a b, LoadWord (.vldH d a b) false d 1 2 .zero16 fun c g => eachLane c g (laneBase g a b)) ∧
  (∀ d a b, LoadWord (.vldHI d a b) false d 1 2 .sign16 fun c g => eachLane c g (laneBase g a b)) ∧
  (∀ d a b, LoadWord (.vldW d a b) false d 1 4 .word fun c g => eachLane c g (laneBase g a b)) ∧
  (∀ d a b, LoadWord (.vldD d a b) false d 2 8 .dword fun c g => eachLane c g (laneBase g a b)) ∧
  (∀ d a b, LoadWord (.vldQ d a b) false d 4 16 .qword fun c g => eachLane c g (laneBase g a b)) ∧
  (∀ d a k, LoadWord (.vldWO d a k) false d 1 4 .word fun c g => eachLane c g (laneOffset g a k 4)) ∧
  (∀ d a k, LoadWord (.vldDO d a k) false d 2 8 .dword fun c g => eachLane c g (laneOffset g a k 8)) ∧
  (∀ d a b, LoadWord (.sldW d a b) true d 1 4 .word fun _ g => [(0, g.srcS .a a + g.srcS .b b)]) ∧
  (∀ d a b, LoadWord (.sldD d a b) true d 1 8 .dword fun _ g => [(0, g.srcS .a a + g.srcS .b b)]) ∧
  (∀ d a k, LoadWord (.sldWO d a k) true d 1 4 .word fun _ g => [(0, g.srcS .a a + k.signExtend 64 * 4)]) ∧
  (∀ d a k, LoadWord (.sldDO d a k) true d 1 8 .dword fun _ g => [(0, g.srcS .a a + k.signExtend 64 * 8)])

/-- R80, R81, R85, R86, R294: the vector and scalar stores of every width and form, with the address and the bytes of each, those of
which some lanes fault among them. -/
def Obligations.Stores : Prop :=
  (∀ d a b, StoreWord (.vstB d a b) false 1 (fun c g => eachLane c g (laneBase g a b)) fun g j => laneBytes g d 1 j) ∧
  (∀ d a b, StoreWord (.vstH d a b) false 2 (fun c g => eachLane c g (laneBase g a b)) fun g j => laneBytes g d 2 j) ∧
  (∀ d a b, StoreWord (.vstW d a b) false 4 (fun c g => eachLane c g (laneBase g a b)) fun g j => laneBytes g d 4 j) ∧
  (∀ d a b, StoreWord (.vstD d a b) false 8 (fun c g => eachLane c g (laneBase g a b)) fun g j => laneBytes g d 8 j) ∧
  (∀ d a b, StoreWord (.vstQ d a b) false 16 (fun c g => eachLane c g (laneBase g a b)) fun g j => laneBytes g d 16 j) ∧
  (∀ d a k, StoreWord (.vstWO d a k) false 4 (fun c g => eachLane c g (laneOffset g a k 4)) fun g j => laneBytes g d 4 j) ∧
  (∀ d a k, StoreWord (.vstDO d a k) false 8 (fun c g => eachLane c g (laneOffset g a k 8)) fun g j => laneBytes g d 8 j) ∧
  (∀ d a b, StoreWord (.sstW d a b) true 4 (fun _ g => [(0, g.srcS .a a + g.srcS .b b)]) fun g _ => scalarBytes g d 4) ∧
  (∀ d a b, StoreWord (.sstD d a b) true 8 (fun _ g => [(0, g.srcS .a a + g.srcS .b b)]) fun g _ => scalarBytes g d 8) ∧
  (∀ d a k, StoreWord (.sstWO d a k) true 4 (fun _ g => [(0, g.srcS .a a + k.signExtend 64 * 4)]) fun g _ => scalarBytes g d 4) ∧
  (∀ d a k, StoreWord (.sstDO d a k) true 8 (fun _ g => [(0, g.srcS .a a + k.signExtend 64 * 8)]) fun g _ => scalarBytes g d 8)

/-- R201, R218, R309: the stores of a word change no byte of memory at issue: those to places without times are on their
way, those to global memory are in the group's store-buffer entries; no entry of another group, of another line, or
that drains, has changed, nor any register, and only a redundant copy signs them; a global store merges into its
group's entry for the line, or makes a new one: the entry holds the stored bytes at their offsets, any other byte of
it comes from the entry it merged into, and its clock is the greatest CLK of its stores. -/
def Obligations.StoresIssued : Prop :=
  (∀ (s : State) (c : Issue) (g : Machine.Group) (ws : List (Scalar × Place × List Byte)), (∀ w ∈ ws, w.2.1.offset % 128 + w.2.2.length ≤ 128) →
     let t := s.issueStore c g ws
     t.locals = s.locals ++ (ws.filter fun w => !w.2.1.isGlobal).map (fun w =>
       { seq := s.nextId, gid := c.gid, ctx := g.ctx, place := w.2.1, size := w.2.2.length, data := fromBytes w.2.2 }) ∧
     (∀ e, (e.gid ≠ c.gid ∨ e.draining = true ∨ ∀ w ∈ ws, w.2.1.isGlobal = true → w.2.1.line ≠ e.line) →
       (e ∈ t.entries ↔ e ∈ s.entries)) ∧
     (∃ g', t.groupAt c.gid = some g' ∧ { g' with sig := g.sig, sigCount := g.sigCount, sigLog := g.sigLog } = g ∧
       (s.redundant g = false → g' = g)) ∧
     { t with locals := s.locals, entries := s.entries, groups := s.groups, nextId := s.nextId } = s) ∧
  (∀ (s : State) gid (g : Machine.Group) seq (a : Scalar) (p : Place) (bytes : List Byte), p.offset % 128 + bytes.length ≤ 128 →
     let t := s.bufferStore gid g seq a p bytes
     (∃ e ∈ t.entries, e.gid = gid ∧ e.line = p.line ∧ e.draining = false) ∧
     (∀ e ∈ t.entries, e.gid = gid → e.line = p.line → e.draining = false →
       e.seq = seq ∧ g.clk ≤ e.clk ∧
       (∀ k < bytes.length, e.bytes.at? (p.offset % 128 + k) = bytes[k]?) ∧
       ((e.va = a.toNat - p.offset % 128 ∧ ∀ o, (o < p.offset % 128 ∨ p.offset % 128 + bytes.length ≤ o) → e.bytes.at? o = none) ∨
         ∃ f ∈ s.entries, f.gid = gid ∧ f.line = p.line ∧ f.draining = false ∧ e.clk = max f.clk g.clk ∧ e.va = f.va ∧
           ∀ o, (o < p.offset % 128 ∨ p.offset % 128 + bytes.length ≤ o) → e.bytes.at? o = f.bytes.at? o)) ∧
     { t with entries := s.entries } = s)

/-- R169, R87, R209: `dsave` stores the bottom entry of the stack as 8 bytes at S[a] and removes it; `dload` reads 8
bytes at S[a] into a new bottom entry, all 64 bits, once they can be read; an empty stack and a full one make them do
nothing; `vpref`, whatever register it names, changes no register, mask, flag, clock or byte of memory
and never traps: only the times of lines, what the core and its slice hold cached, and what homes ask of hosts change. -/
def Obligations.StackSpills : Prop :=
  (∀ a s c g, c.fate = .done →
     (Ready (.dsave a) s c g →
       (g.stack = [] → exec (.dsave a) s = .next s) ∧
       ∀ m rest t p, g.stack = m :: rest → Reaches s c g true true true 8 [(0, g.srcS .a a)] t [(0, g.srcS .a a, p)] →
         g.memHazard c.gid [(0, p, 8)] = none →
         s.bufferRoom c.gid g.core (if p.isGlobal then [p.line] else []) = true →
         exec (.dsave a) s = .next
           (let u := t.issueStore c { g with wait := .none } [(g.srcS .a a, p, toBytes m.toNat 8)]
            { u with groups := u.groups.alter c.gid fun x => { x with stack := rest } })) ∧
     (Ready (.dload a) s c g →
       let pushed (u : State) (y : Load) (w : State) : Prop := ∀ v, y.data = [(0, v)] →
         w.groupAt c.gid = some { ({ g with wait := .none } : Machine.Group).loadClock y with stack := BitVec.ofNat 64 v :: g.stack } ∧
         (∀ k, k ≠ c.gid → w.groupAt k = u.groupAt k) ∧ { w with groups := u.groups } = u
       (g.stack.length = 8 → exec (.dload a) s = .next s) ∧
       (g.stack.length ≠ 8 → (∀ q, g.wait ≠ .reading q) →
         ∀ t p, Reaches s c g true false true 8 [(0, g.srcS .a a)] t [(0, g.srcS .a a, p)] →
           StartsRead (.dload a) s t c g (t.newLoad c g 8 .dword [(0, g.srcS .a a, p)]) pushed) ∧
       (g.stack.length ≠ 8 → EndsRead (.dload a) s c g pushed))) ∧
  (∀ a b s c g, s.cur = some c → s.groupAt c.gid = some g → (Instr.vpref a b).detail = none → ∃ t, exec (.vpref a b) s = .next t ∧
     { t with lines := s.lines, cores := s.cores, slices := s.slices, prefetches := s.prefetches, asks := s.asks } = s)

/-! ## Atomics, reductions and streams -/

/-- R78, R227, R228, R298, R299: the value-returning atomics, per lane and scalar, with their operands, and their address traps
at issue; the far reductions, and those that a restart skips. -/
def Obligations.Atomics : Prop :=
  (∀ e ∈ [(Instr.vatomAdd, AtomOp.add), (Instr.vatomAddf, .addf), (Instr.vatomMinI, .minI), (Instr.vatomMaxI, .maxI),
      (Instr.vatomAnd, .and), (Instr.vatomOr, .or), (Instr.vatomXor, .xor), (Instr.vatomXchg, .xchg)],
    ∀ d a b, AtomicWord (e.1 d a b) false e.2 4 d 1 (fun c g => eachLane c g (laneBase g a b))
      (fun g j => (g.srcV .d d j).toNat) fun _ _ => 0) ∧
  (∀ d a b, AtomicWord (.vatomCas d a b) false .cas 4 d 2 (fun c g => eachLane c g (laneBase g a b))
    (fun g j => (g.srcVk .d d 0 j).toNat) fun g j => (g.srcVk .d d 1 j).toNat) ∧
  (∀ d a b, AtomicWord (.satomAdd d a b) true .add 8 d 1 (fun _ g => [(0, g.srcS .a a + g.srcS .b b)])
    (fun g _ => (g.srcS .d d).toNat) fun _ _ => 0) ∧
  (∀ d a b, AtomicWord (.satomCas d a b) true .cas 8 d 2 (fun _ g => [(0, g.srcS .a a + g.srcS .b b)])
    (fun g _ => (g.srcSk .d d 0).toNat) fun g _ => (g.srcSk .d d 1).toNat) ∧
  (∀ d a b, ReductionWord (.gredAdd d a b) .add d a b ∧ ReductionWord (.gredAddf d a b) .addf d a b ∧
     ReductionWord (.gredMaxI d a b) .maxI d a b)

/-- R223, R228, R231, R232, R298, R321, R224: a word that waits as a fence does, the checks of its issue passed, first lets
its group's store-buffer entries drain and parks; it stays parked while the wait lasts; once its waits are over a fence
goes on; `fence.s` also has the homes write back the host-backed lines that the group wrote, which stay tracked with
their times. -/
def Obligations.FenceWords : Prop :=
  (∀ i s c g, Ready i s c g → WaitsAsFence i s c g →
     (g.wait = .none → exec i s = .next (if s.redundant g then waits s c g .compare else waits (drained s c.gid) c g .fence)) ∧
     (g.wait = .compared → exec i s = .next (waits (drained s c.gid) c g .fence)) ∧
     (g.wait = .fence → exec i s = .next { s with cur := some { c with fate := .hold } })) ∧
  (∀ i ∈ [Instr.fenceG, .fenceC, .fenceD, .fenceP], ∀ s c g, Ready i s c g → g.wait = .fenced →
    exec i s = .next (s.setGroup c.gid { g with wait := .none })) ∧
  (∀ s c g, Ready .fenceS s c g → g.wait = .fenced → ∃ t, exec .fenceS s = .next t ∧
    t.groupAt c.gid = some { g with wait := .none, hostWrote := [] } ∧ (∀ k, k ≠ c.gid → t.groupAt k = s.groupAt k) ∧
    (∀ k, t.lines.at? k = (s.lines.at? k).map fun x =>
      if (g.hostWrote.filterMap Place.lineKey).contains k then { x with dirty := false } else x) ∧
    { t with groups := s.groups, lines := s.lines } = s)

/-- R231, R232, R235, R298: `sqopen` allots a free slot of the target's home (the lowest, which is the model's choice, log 42)
and returns its handle, 0 when there is none; `sqred` traps with CODE 10 at issue, or sends one contribution for each issuing lane, ascending; `sqclose` goes on
at once when no such stream is open, parks while indices are missing, and else frees the slot and raises CLK. -/
def Obligations.StreamWords : Prop :=
  (∀ d a b s c g t p, Ready (.sqopen d a b) s c g → g.wait = .fenced →
    (∃ va, s.mapAddr c.gid { g with wait := .none } (g.srcS .a a) = some (.global va)) →
    Reaches (s.setGroup c.gid { g with wait := .none }) c { g with wait := .none } true true false 4 [(0, g.srcS .a a)] t
      [(0, g.srcS .a a, p)] →
    (g.srcS .b b).toNat < 2 ^ 53 →
    let sl := t.sliceAt (homeSlice p)
    let x : Machine.Stream :=
      { gen := 0, isOpen := true, ctx := g.ctx, base := (g.srcS .b b).setWidth 32,
        cntm1 := (g.srcS .b b).toNat / 2 ^ 32 % 2 ^ 20, fp := (g.srcS .b b).getLsbD 52, target := p,
        va := (g.srcS .a a).toNat, next := 0, buf := [], cut := [] }
    ((∀ k < 64, (sl.streamAt k).isOpen = true) → ∃ u r, Issued t u c { g with wait := .none } r ∧ r.dest = g.dest d 1 ∧
      r.svals = [0] ∧ r.ready = true ∧ exec (.sqopen d a b) s = .next (u.spoilRestart c.gid)) ∧
    ∀ k < 64, (sl.streamAt k).isOpen = false → (∀ j < k, (sl.streamAt j).isOpen = true) →
      ∃ u r, Issued (t.setSlice (homeSlice p) { sl with streams := sl.streams.put k { x with gen := (sl.streamAt k).gen } })
          u c { g with wait := .none } r ∧ r.dest = g.dest d 1 ∧ r.ready = true ∧
        r.svals = [BitVec.ofNat 64 ((sl.streamAt k).gen * 2 ^ 62 + k * 2 ^ 56 + homeSlice p * 2 ^ 52 + x.cntm1 * 2 ^ 32 + x.base.toNat)] ∧
        exec (.sqopen d a b) s = .next (u.spoilRestart c.gid)) ∧
  (∀ d a b, ∀ i ∈ [Instr.sqredAddf d a b, .sqredAdd d a b], ∀ s c g, Ready i s c g →
    (lanesOf g.width c.mask = [] → exec i s = .next s) ∧
    (lanesOf g.width c.mask ≠ [] →
      let s' := s.setGroup c.gid { g with wait := .none }
      let pos (j : Nat) : Nat := (g.srcV .b b j - (g.srcS .a a).setWidth 32).toNat
      let bad := (lanesOf g.width c.mask).filter fun j => decide ((g.srcS .a a).toNat / 2 ^ 32 % 2 ^ 20 < pos j)
      (g.wait ≠ .fenced → (g.srcS .a a).toNat / 2 ^ 62 = 0 → exec i s = .next (s.trapWord c g 10 0x31 (g.srcS .a a) c.mask)) ∧
      (g.wait ≠ .fenced → (g.srcS .a a).toNat / 2 ^ 62 ≠ 0 → bad ≠ [] →
        exec i s = .next (s.trapWord c g 10 0x32 (g.srcS .a a) (maskOf bad))) ∧
      (g.wait = .fenced → (g.srcS .a a).toNat / 2 ^ 62 ≠ 0 → bad = [] → ∃ u : State, exec i s = .next (u.spoilRestart c.gid) ∧
        u.contribs = s.contribs ++ (lanesOf g.width c.mask).zipIdx.map (fun (j, n) =>
          { seq := s.nextId + n, gid := c.gid, ctx := g.ctx, handle := g.srcS .a a, j := pos j, data := g.srcV .d d j,
            clk := g.clk, refused := false }) ∧
        { u with contribs := s.contribs, nextId := s.nextId } = s'))) ∧
  (∀ a s c g, Ready (.sqclose a) s c g →
    (g.wait = .over → exec (.sqclose a) s = .next (endsRun s c)) ∧
    (g.wait = .none → (g.srcS .a a).toNat / 2 ^ 62 ≠ 0 →
      (s.streamOf g.ctx (g.srcS .a a) = none → exec (.sqclose a) s = .next s) ∧
      ∀ x, s.streamOf g.ctx (g.srcS .a a) = some x →
        (x.next ≤ x.cntm1 → exec (.sqclose a) s = .next (waits s c g (.stream (g.srcS .a a)))) ∧
        (x.cntm1 < x.next → ∃ u, exec (.sqclose a) s = .next (endsRun u c) ∧
          u.groupAt c.gid = some { g with clk := max g.clk (s.lineOf x.target).w } ∧
          u.streamOf g.ctx (g.srcS .a a) = none ∧ { u with groups := s.groups, slices := s.slices } = s)))

/-! ## Barriers -/

/-- R165, R184, R185, R189: `bar.arr` counts the group's arrival, or skips it after a restart, or parks until the phase that
holds its earlier arrival completes; `bar.wt` goes on when PH has reached N, with CLK at least T, and else parks;
`bar.sync` arrives and waits; `bar.q` reads PH, EXP and C; an arrival at a grove barrier raises A of the group and C
of the barrier and records CLK; when every group that has not exited has arrived, PH rises by one, C returns to 0
and T is the greatest CLK recorded.  A copse barrier is one for the groves of a copse, a launch barrier one for the
launch, each copy's its own; the completion of either, and of a barrier of a grove that spans a pair, moves the core that
arrived last one step up and the first one down. -/
def Obligations.BarrierWords : Prop :=
  (∀ l s c g, Ready (.barArr l) s c g →
    let b := barrierOf l
    let n := g.issued b + 1
    let g' := { g with barN := g.barN.put b n }
    (g.wait = .none → notBefore (g.counted b) n = true → exec (.barArr l) s = .next (s.setGroup c.gid g')) ∧
    (g.wait = .none → notBefore (g.counted b) n = false → notBefore (s.barrierAt g b).ph (g.counted b) = true →
      exec (.barArr l) s = .next (s.countArrival c.gid g' b)) ∧
    (g.wait = .none → notBefore (g.counted b) n = false → notBefore (s.barrierAt g b).ph (g.counted b) = false →
      exec (.barArr l) s = .next (waits s c g' (.arrive b (g.counted b)))) ∧
    (∀ m, g.wait = .arrive b m → exec (.barArr l) s = .next (endsRun (s.countArrival c.gid g b) c))) ∧
  (∀ l s c g, Ready (.barWt l) s c g →
    let b := barrierOf l
    (notBefore (s.barrierAt g b).ph (g.issued b) = true → exec (.barWt l) s =
      .next (endsRun (s.setGroup c.gid { g with clk := max g.clk (s.barrierAt g b).t, wait := .none }) c)) ∧
    (notBefore (s.barrierAt g b).ph (g.issued b) = false →
      exec (.barWt l) s = .next (waits s c g (.barrier b (g.issued b))))) ∧
  (∀ l s c g, Ready (.barSync l) s c g →
    let b := barrierOf l
    let n := g.issued b + 1
    let g' := { g with barN := g.barN.put b n }
    (g.wait = .none → notBefore (g.counted b) n = true →
      exec (.barSync l) s = .next ((s.setGroup c.gid g').await c.gid b)) ∧
    (g.wait = .none → notBefore (g.counted b) n = false → notBefore (s.barrierAt g b).ph (g.counted b) = true →
      exec (.barSync l) s = .next ((s.countArrival c.gid g' b).await c.gid b)) ∧
    (g.wait = .none → notBefore (g.counted b) n = false → notBefore (s.barrierAt g b).ph (g.counted b) = false →
      exec (.barSync l) s = .next (waits s c g' (.arrive b (g.counted b)))) ∧
    (∀ m, g.wait = .arrive b m → exec (.barSync l) s = .next ((endsRun (s.countArrival c.gid g b) c).await c.gid b)) ∧
    (∀ m, g.wait = .barrier b m → notBefore (s.barrierAt g b).ph (g.issued b) = true → exec (.barSync l) s =
      .next (endsRun (s.setGroup c.gid { g with clk := max g.clk (s.barrierAt g b).t, wait := .none }) c))) ∧
  (∀ d l, ScalarWord (.barQ d l) d fun s _ g =>
    (s.barrierAt g (barrierOf l)).ph.setWidth 16 ++ (s.barrierAt g (barrierOf l)).expd.setWidth 24 ++
      (s.barrierAt g (barrierOf l)).c.setWidth 24) ∧
  (∀ (s : State) gid (g : Machine.Group) b v, b < 16 → s.groves.at? g.grove = some v → v.upper = none →
     let x := (v.bars.at? b).getD default
     let t := s.countArrival gid g b
     let y := t.barrierAt g b
     t.groupAt gid = some { g with barA := g.barA.put b (g.counted b + 1), wait := .none } ∧
     (∀ k, k ≠ gid → t.groupAt k = s.groupAt k) ∧
     (x.c + 1 ≠ x.expd → y = { x with c := x.c + 1, open_ := max x.open_ g.clk, order := y.order }) ∧
     (x.c + 1 = x.expd → y = { x with c := 0, ph := x.ph + 1, t := max x.open_ g.clk, open_ := 0, order := [] }) ∧
     (∀ k, k ≠ b → k < 16 → t.barrierAt g k = s.barrierAt g k) ∧
     { t with groups := s.groups, groves := s.groves } = s) ∧
  (∀ (s : State) gid (g : Machine.Group) b, b < 22 → (16 ≤ b → (s.launches.at? g.launch).isSome = true) →
     (b < 16 → ∃ v, s.groves.at? g.grove = some v ∧ v.upper.isSome = true) →
     let x := s.barrierAt g b
     let t := s.countArrival gid g b
     let early := (x.order.filter fun k => decide (k ≠ g.core)).headD g.core
     t.groupAt gid = some { g with barA := g.barA.put b (g.counted b + 1), wait := .none } ∧
     (∀ k, k ≠ gid → t.groupAt k = s.groupAt k) ∧
     (x.c + 1 ≠ x.expd → t.barrierAt g b =
         { x with c := x.c + 1, open_ := max x.open_ g.clk, order := (x.order.filter fun k => decide (k ≠ g.core)) ++ [g.core] } ∧
       { t with groups := s.groups, groves := s.groves, launches := s.launches } = s) ∧
     (x.c + 1 = x.expd → t.barrierAt g b = { x with c := 0, ph := x.ph + 1, t := max x.open_ g.clk, open_ := 0, order := [] } ∧
       { t with groups := s.groups, groves := s.groves, launches := s.launches, cores := s.cores, draws := s.draws } = s ∧
       (early ≠ g.core → Config.powerRoom s.draws = true → s.boot.throttleAt = none →
         (t.coreAt g.core).step = min 48 ((s.coreAt g.core).step + 1) ∧ (t.coreAt early).step = max 32 ((s.coreAt early).step - 1) ∧
         ∀ k, k ≠ g.core → k ≠ early → t.coreAt k = s.coreAt k) ∧
       (early = g.core ∨ Config.powerRoom s.draws = false ∨ s.boot.throttleAt ≠ none → t.cores = s.cores)) ∧
     ∀ h : Machine.Group, h.launch = g.launch → s.copyOf h < 2 → s.copyOf g < 2 →
       let same := decide (s.copyOf h = s.copyOf g)
       let copse (y : Machine.Group) : Nat := y.grx / ((s.launchAt g.launch).rcd.copse + 1)
       (20 ≤ b → t.barrierAt h b = if same then t.barrierAt g b else s.barrierAt h b) ∧
       (16 ≤ b → b < 20 → t.barrierAt h b = if same && decide (copse h = copse g) then t.barrierAt g b else s.barrierAt h b))

/-! ## Control flow -/

/-- R67, R68, R69, R70: the branches with their conditions and the scalar that `bloop` and `bcall` write at issue, and
the two indirect transfers. -/
def Obligations.ControlTransfers : Prop :=
  (∀ off, BranchWord (.bra off) off (fun _ => True) fun g g' => g' = g) ∧
  (∀ a off, BranchWord (.bz a off) off (fun g => g.srcS .a a = 0) fun g g' => g' = g) ∧
  (∀ a off, BranchWord (.bnz a off) off (fun g => g.srcS .a a ≠ 0) fun g g' => g' = g) ∧
  (∀ a off, BranchWord (.bneg a off) off (fun g => (g.srcS .a a).toInt < 0) fun g g' => g' = g) ∧
  (∀ a off, BranchWord (.bnn a off) off (fun g => 0 ≤ (g.srcS .a a).toInt) fun g g' => g' = g) ∧
  (∀ a off, BranchWord (.bloop a off) off (fun g => g.srcS .a a - 1 ≠ 0) fun g g' => WroteField g g' a (g.srcS .a a - 1)) ∧
  (∀ a off, BranchWord (.bcall a off) off (fun _ => True) fun g g' => WroteField g g' a (BitVec.ofNat 64 (g.off + 1))) ∧
  (∀ off, BranchWord (.bany off) off (fun g => g.xm &&& g.cm ≠ 0) fun g g' => g' = g) ∧
  (∀ a, ∀ i ∈ [Instr.jmp a, .ret a], ∀ s c g, Ready i s c g →
    ((g.srcS .a a).toNat < 2 ^ 20 → exec i s = .next (goesTo s c (g.srcS .a a).toNat)) ∧
    (2 ^ 20 ≤ (g.srcS .a a).toNat → exec i s = .next (s.trapWord c g 15 0 (g.srcS .a a) 0)))

/-- R72, R73, R75, R76, R221, R74, R187, R257: `nop` has no effect, `park` ends the run, `wbase` and `wget` write and
read WINB, `tick` raises CLK by at most 65,535, and `spin` by LEASE + 1 and demotes the group for 64 clocks of its
partition; `exit` waits until nothing of the group is outstanding, then ends it: the group is gone, every other
group is as before, and no byte of DRAM, host memory or vault has changed; for every barrier of its units, while its grove
has another group, C falls by its arrival in the open phase, EXP by one, and the phase completes if what is left has
arrived (that its core stays in the order that decides the early and the late core is log 88). -/
def Obligations.WindowClockAndExitWords : Prop :=
  ((∀ s c g, Ready .nop s c g → exec .nop s = .next s) ∧
   (∀ s c g, Ready .park s c g → exec .park s = .next (endsRun s c)) ∧
   (∀ l, GroupWord (.wbase l) fun _ _ g => { g with winb := 16 * l.toNat }) ∧
   (∀ d, ScalarWord (.wget d) d fun _ _ g => BitVec.ofNat 64 g.winb) ∧
   (∀ a, GroupWord (.tick a) fun _ _ g => { g with clk := g.clk + if (g.srcS .a a).toNat ≤ 65535 then (g.srcS .a a).toNat else 65535 }) ∧
   GroupWord .spin fun s _ g =>
     { g with clk := g.clk + g.lease.toNat + 1, demoted := some ((s.coreAt g.core).phase / 800 + 64) }) ∧
  (∀ s c g, Ready .exit s c g → g.role = .kernel → s.redundant g = false →
     (g.results ≠ [] ∨ g.batches ≠ [] ∨ (∃ o ∈ g.openOps, o.result = none) → exec .exit s = .next (waits s c g .quiet)) ∧
     (g.results = [] → g.batches = [] → (∀ o ∈ g.openOps, o.result ≠ none) → ∃ t, exec .exit s = .next t ∧ t.groupAt c.gid = none ∧
       (∀ k, k ≠ c.gid → t.groupAt k = s.groupAt k) ∧ t.cur = some { c with fate := .left } ∧
       t.dram = s.dram ∧ t.hostMem = s.hostMem ∧ t.vaultMem = s.vaultMem ∧ t.lines = s.lines ∧ t.entries = s.entries ∧
       ∀ v b, s.groves.at? g.grove = some v → 2 ≤ v.alive → b < 22 → (16 ≤ b → (s.launches.at? g.launch).isSome = true) →
         let x := s.barrierAt g b
         let k := if notBefore x.ph (g.counted b) then x.c else x.c - 1
         t.barrierAt g b = if k ≠ 0 ∧ k = x.expd - 1
           then { x with c := 0, ph := x.ph + 1, t := x.open_, open_ := 0, order := [], expd := x.expd - 1 }
           else { x with c := k, expd := x.expd - 1 }))

/-! ## Regions, traps and the system words -/

/-- R257, R297, R298, R303: `region` without a slot is a handle fault; it closes an open batch and waits until nothing is
outstanding; then it writes the slot, at once where the homes of its lines can take it, and else when they have been asked; the group's
restart point is then the next word, with every count of replayed words at 0.  WDOG is kept when the entry is that of the restart point in force, and
is else 0: R303 says only that it is 0 when the group passes its entry, and the rest is the model's reading (log 67). -/
def Obligations.RegionWord : Prop :=
  ∀ a b s c g, Ready (.region a b) s c g → s.redundant g = false →
    let restart (u : State) : State := u.setGroup c.gid
      { g with rgnoff := BitVec.ofNat 20 (g.off + 1), rstate := 1, based := true,
               wdog := if g.based ∧ g.rgnoff.toNat = g.off + 1 then g.wdog else 0,
               cpyCount := 0, cpyDone := 0, cpySkip := 0, gredCount := 0, gredSkip := 0, svcSeq := 0,
               sigBase := g.sigCount, wait := .none }
    (g.wait = .writing → g.evictSince = none → s.cuts = [] → ∀ e f, s.flightsOf c.gid = [e, f] →
      let t := ((s.land c.gid).writePlaces e.ctx e.va e.pieces (e.bytes.getD []) g.clk).1
      let u := (t.writePlaces f.ctx f.va f.pieces (f.bytes.getD []) g.clk).1
      u.groupAt c.gid ≠ none → exec (.region a b) s = .next (restart u)) ∧
    (g.wait ≠ .writing →
    (s.slotOf g = 0 → ∃ v m, exec (.region a b) s = .next (s.draw.draw.trapWord c g 10 0x20 v m)) ∧
    (s.slotOf g ≠ 0 → g.openOps ≠ [] → g.batches.length < 4 →
      exec (.region a b) s = .next (waits s c
        { g with batches := g.batches ++ [{ k := g.closed, number := g.mlast + 1, ops := g.openOps }],
                 closed := g.closed + 1, mlast := g.mlast + 1, openOps := [] } .quiet)) ∧
    (s.slotOf g ≠ 0 → g.openOps = [] → (g.results ≠ [] ∨ g.batches ≠ []) →
      exec (.region a b) s = .next (waits s c g .quiet)) ∧
    ∀ regs head p q, s.slotOf g ≠ 0 → g.openOps = [] → g.results = [] → g.batches = [] → g.evictSince = none →
      regs = (if windowField a ≤ windowField b then g.fieldBytes (windowField a) (windowField b) else []) →
      head = g.slotHead s.epoch (g.off + 1) (windowField a) (windowField b)
        (if g.based ∧ g.rgnoff.toNat = g.off + 1 then g.wdog else 0) →
      s.placesOf g.ctx (s.slotOf g) 0x400 true = .ok p →
      s.placesOf g.ctx (s.slotOf g + 0x400 + windowField a * g.width * 4) regs.length true = .ok q →
      (s.placesReady g.ctx (p ++ q) true = false ∨ s.slotLeft c.gid = true →
        exec (.region a b) s = .next (waits ((s.takeOff g.ctx c.gid (s.slotOf g) p (some head)).takeOff g.ctx c.gid
          (s.slotOf g + 0x400 + windowField a * g.width * 4) q (some regs)) c g .writing)) ∧
      (s.placesReady g.ctx (p ++ q) true = true → s.slotLeft c.gid = false →
        let t := (s.writePlaces g.ctx (s.slotOf g) p head g.clk).1
        let u := (t.writePlaces g.ctx (s.slotOf g + 0x400 + windowField a * g.width * 4) q regs g.clk).1
        u.groupAt c.gid ≠ none →
        exec (.region a b) s = .next (restart u)))

/-- R56, R80, R87, R171, R289, R320: an illegal word, fetched as such or refused in the machine's state, traps with CODE 1 at its
address and has no other effect, but for a memory word of the issuing lanes with no lane issuing, which does nothing,
and `vpref`; `trap` traps with CODE 9 and DETAIL 0x80 + its literal, `brk` with its literal, and in steward mode `brk` does
nothing. -/
def Obligations.WordsThatTrap : Prop :=
  (∀ i s c g d w, encode false i = some w → s.cur = some c → s.groupAt c.gid = some g → illegalDetail s g i = some d →
    c.mask ≠ 0 ∨ lanesAlone i = false → (∀ a b, i ≠ .vpref a b) →
    exec i s = .next (s.trapWord c g 1 d.toNat (BitVec.ofNat 64 c.addr) 0)) ∧
  (∀ i s c g, lanesAlone i = true → s.cur = some c → s.groupAt c.gid = some g → c.mask = 0 → i.detail = none →
    stalled g i = false → exec i s = .next s) ∧
  (∀ d s c g, s.cur = some c → s.groupAt c.gid = some g →
    exec (.illegalInstruction d) s = .next (s.trapWord c g 1 d.toNat (BitVec.ofNat 64 c.addr) 0)) ∧
  (∀ l s c g, Ready (.trap l) s c g → exec (.trap l) s = .next (s.trapWord c g 9 (128 + l.toNat) (BitVec.ofNat 64 c.addr) 0)) ∧
  (∀ l s c g, Ready (.brk l) s c g →
    (g.mode = .user → exec (.brk l) s = .next (s.trapWord c g 9 l.toNat (BitVec.ofNat 64 c.addr) 0)) ∧
    (g.mode = .steward → exec (.brk l) s = .next s))

/-- R50, R179, R289, R290, R291: a trap in user mode with a handler records TCAUSE, TADDR, TLANE, TOFF and TPLN; when no result
is outstanding the group enters its handler at offset 0 in steward mode, s20 to s23 saved and s20 naming the slot, and
else it waits; no other register, mask, flag or clock changes, and no byte of memory.  A cause in steward mode, or with no
handler, is a steward fault: the same is recorded, the group stops for good, and the error is logged as class 10 for
CODE 11 and 12 and as class 4 for every other; an eviction or restore that the group served is abandoned: its context is off
its cores, and none of its serving groups is left. -/
def Obligations.TrapEntry : Prop :=
  (∀ (s : State) c (g : Machine.Group) code detail taddr tlane, s.cur = some c → g.mode = .steward ∨ (s.contextAt g.ctx).tvec = 0 →
    code < 32 → detail < 256 →
    ∃ g', g'.wait = .stopped ∧ g'.held = none ∧ g'.tcause = BitVec.ofNat 64 (detail * 256 + code) ∧ g'.taddr = taddr ∧
      g'.tlane = tlane ∧ g'.toff = BitVec.ofNat 20 g.off ∧ g'.tdone = g.doneP ∧ g'.tplane = BitVec.ofNat 2 c.plane ∧
      g'.tocc = g.occ.getD 0 ∧ g'.vregs = g.vregs ∧ g'.sregs = g.sregs ∧ g'.xm = g.xm ∧ g'.cm = g.cm ∧ g'.clk = g.clk ∧
      g'.mode = g.mode ∧ g'.off = g.off ∧ g'.frame = g.frame ∧ g'.rmode = g.rmode ∧ g'.ftz = g.ftz ∧ g'.lease = g.lease ∧
      g'.atick = g.atick ∧ g'.rgnoff = g.rgnoff ∧ g'.stack = g.stack ∧ g'.winb = g.winb ∧ g'.mlast = g.mlast ∧
      g'.batches = g.batches ∧ g'.flags = g.flags ∧
      let u := s.setGroup c.gid g'
      let stopped (t : State) : State :=
        { t.error (if code = 11 ∨ code = 12 then 10 else 4) 0 g.ctx taddr (BitVec.ofNat 32 (detail * 256 + code)) with
          cur := some { c with fate := .left } }
      (g.role = .kernel → s.trapWord c g code detail taddr tlane = stopped u) ∧
      (g.role ≠ .kernel → (s.contextAt g.ctx).asked = [] → ∃ v, s.trapWord c g code detail taddr tlane = stopped v ∧
        v.groups = u.groups.filter (fun e => !(decide (e.2.ctx = g.ctx) && decide (e.2.role ≠ .kernel))) ∧
        (∀ x, s.contexts.at? g.ctx = some x →
          v.contexts.at? g.ctx = some { x with evicting := false, restoring := false, evicted := true }) ∧
        (∀ k, k ≠ g.ctx → v.contexts.at? k = s.contexts.at? k) ∧
        { v with groups := s.groups, contexts := s.contexts, groves := s.groves, loads := s.loads } = s)) ∧
  ∀ (s : State) c (g : Machine.Group) code detail taddr tlane, s.cur = some c → g.mode = .user → (s.contextAt g.ctx).tvec ≠ 0 →
    code < 32 → detail < 256 →
    ∃ t g', t = s.trapWord c g code detail taddr tlane ∧ t.groupAt c.gid = some g' ∧ t.cur = some { c with fate := .left } ∧
      (∀ k, k ≠ c.gid → t.groupAt k = s.groupAt k) ∧ { t with groups := s.groups, cur := s.cur } = s ∧
      g'.tcause = BitVec.ofNat 64 (detail * 256 + code) ∧ g'.taddr = taddr ∧ g'.tlane = tlane ∧
      g'.toff = BitVec.ofNat 20 g.off ∧ g'.tdone = g.doneP ∧ g'.tplane = BitVec.ofNat 2 c.plane ∧
      g'.tocc = g.occ.getD 0 ∧ g'.laneTrap = !decide (code = 7 ∨ code = 8) ∧
      g'.vregs = g.vregs ∧ g'.winb = g.winb ∧ g'.xm = g.xm ∧ g'.cm = g.cm ∧ g'.pl = g.pl ∧ g'.stack = g.stack ∧
      g'.clk = g.clk ∧ g'.flags = g.flags ∧ g'.batches = g.batches ∧ g'.openOps = g.openOps ∧ g'.mlast = g.mlast ∧
      g'.rmode = g.rmode ∧ g'.ftz = g.ftz ∧ g'.lease = g.lease ∧ g'.atick = g.atick ∧ g'.rgnoff = g.rgnoff ∧
      (∀ k, k ≠ 20 → g'.scalar k = g.scalar k) ∧
      (g.results = [] → g'.mode = .steward ∧ g'.vec = (s.contextAt g.ctx).tvec ∧ g'.off = 0 ∧ g'.wait = .none ∧ g'.scalar 20 = BitVec.ofNat 64 (s.slotOf g) ∧
        g'.frame = [g.scalar 20, g.scalar 21, g.scalar 22, g.scalar 23]) ∧
      (g.results ≠ [] → g'.mode = .user ∧ g'.off = g.off ∧ g'.wait = .trap ∧ g'.scalar 20 = g.scalar 20 ∧
        g'.results = g.results)

/-- R49, R179, R180, R289, R292, R301, R303: `tret` brings back s20 to s23 and user mode; the group resumes at TOFF, at the planes of TPLN
that are not done, the trapping plane among the done ones when the CODE that TCAUSE holds resumes at the next word (9 and 13), or past it
when every occupied plane is done; a word whose CODE resumes the lanes of TLANE alone (7 and 8) issues under TLANE and XM in the plane of
TPLN, unless what trapped was a fetch or a scalar access, which resume whole (log 96, DEDUCED); every other scalar and every vector
register is as the handler left it; a park mark of the offset's words, that of a word that its trap completed among them, is not
lost.  After the watchdog trap that comes before a restart, and after a preemption that waited for the handler, the group is discarded. -/
def Obligations.TrapReturn : Prop :=
  (∀ s c g w20 w21 w22 w23, Ready .tret s c g → g.frame = [w20, w21, w22, w23] → ∃ g',
      let discarded : Prop := g.tcause.setWidth 16 = (0x010E : BitVec 16) ∨ (g.evictSince ≠ none ∧ g.rstate ≠ 2)
      (¬ discarded → exec .tret s = .next (leaves (s.setGroup c.gid g') c)) ∧
      (discarded → exec .tret s = .next (((s.setGroup c.gid g').discard c.gid).fate .left)) ∧
      let code := g.tcause.toNat % 32
      let next := decide (code = 9 ∨ code = 13)
      let done := if next then g.tdone ||| BitVec.ofNat 4 (2 ^ g.tplane.toNat) else g.tdone
      let confined := if g.laneTrap = true ∧ (code = 7 ∨ code = 8) then some (g.tplane.toNat, g.tlane) else none
      g'.mode = .user ∧ g'.scalar 20 = w20 ∧ g'.scalar 21 = w21 ∧ g'.scalar 22 = w22 ∧ g'.scalar 23 = w23 ∧
      (∀ k, k < 20 ∨ 23 < k → g'.scalar k = g.scalar k) ∧ g'.vregs = g.vregs ∧ g'.xm = g.xm ∧ g'.cm = g.cm ∧
      g'.clk = g.clk ∧ g'.stack = g.stack ∧ (c.mark = true → g'.wait = .run) ∧
      let mark := g.trapMark || (next && g.trapOwn)
      (done = 0 → g'.off = g.toff.toNat ∧ g'.occ = none ∧ g'.doneP = 0 ∧ g'.replay = confined) ∧
      (done ≠ 0 → g.tocc &&& ~~~done = 0 → g'.off = g.toff.toNat + 1 ∧ g'.occ = none ∧ g'.doneP = 0 ∧ g'.replay = none ∧
        (mark = true → g'.wait = .run) ∧ (mark = false → c.mark = false → g'.wait = .none)) ∧
      (done ≠ 0 → g.tocc &&& ~~~done ≠ 0 → g'.off = g.toff.toNat ∧ g'.occ = some g.tocc ∧ g'.doneP = done ∧ g'.mark = mark ∧
        g'.replay = confined)) ∧
  ∀ (g : Machine.Group) p j, j < 64 → g.mode = .user → (g.issueMask p).getLsbD j =
    (decide (j < g.width) && g.xm.getLsbD j && decide (g.planeOf j = p) && match g.replay with
      | some (q, m) => decide (q ≠ p) || m.getLsbD j
      | none => true)

/-- R40 to R43, R56, R98, R322: `ctlrd` reads each control register as its fields lie; `ctlwr` writes the writable fields of
one at issue and nothing else, and clears the bits of FLAGS that its value sets, of which a word that was issued before and returns after
may set those again that it raises (which of them is a free value); a write of RGNOFF also stores it in
the group's slot, if it has one.  A register that the group's mode may neither read nor write (DETAIL 0x08), one that it may only read
(0x06), a reserved index (0x09), and a value that sets a reserved bit or lies outside its field (0x0A) make an illegal word: it
traps with CODE 1 and that DETAIL, at its address, and changes no control register but those that the trap records. -/
def Obligations.ControlRegisterWords : Prop :=
  (∀ d, ScalarWord (.ctlrd d 0x00) d (fun _ _ g => BitVec.ofNat 64
       (g.rmode.toNat + (if g.ftz then 4 else 0) + 16 * (if g.planes = 1 then 0 else if g.planes = 2 then 1 else 2) +
         64 * (if g.width = 16 then 0 else if g.width = 32 then 1 else 2))) ∧
     ScalarWord (.ctlrd d 0x01) d (fun _ _ g => g.lease.zeroExtend 64) ∧
     ScalarWord (.ctlrd d 0x02) d (fun _ _ g => g.atick.zeroExtend 64) ∧
     ScalarWord (.ctlrd d 0x03) d (fun s _ g => BitVec.ofNat 64 (s.contextAt g.ctx).ckpt) ∧
     ScalarWord (.ctlrd d 0x04) d (fun _ _ g => g.rgnoff.zeroExtend 64) ∧
     ScalarWord (.ctlrd d 0x05) d (fun s _ g => BitVec.ofNat 64 (s.contextAt g.ctx).tvec) ∧
     ScalarWord (.ctlrd d 0x06) d (fun _ _ g => g.tcause) ∧
     ScalarWord (.ctlrd d 0x07) d (fun _ _ g => g.taddr) ∧
     ScalarWord (.ctlrd d 0x08) d (fun _ _ g => g.tlane) ∧
     ScalarWord (.ctlrd d 0x09) d (fun _ _ g => g.toff.zeroExtend 64) ∧
     ScalarWord (.ctlrd d 0x0A) d (fun _ _ g => (g.tdone ++ (0 : BitVec 2) ++ g.tplane ++ g.tocc).zeroExtend 64) ∧
     ScalarWord (.ctlrd d 0x0B) d (fun _ _ g => BitVec.ofNat 64 g.stack.length) ∧
     ScalarWord (.ctlrd d 0x0C) d (fun _ _ g => BitVec.ofNat 64 g.winb) ∧
     ScalarWord (.ctlrd d 0x0D) d (fun _ _ g => BitVec.ofNat 64 (g.mlast.toNat + 16 * g.batches.length)) ∧
     ScalarWord (.ctlrd d 0x0E) d (fun s _ g => BitVec.ofNat 64 (s.contextAt g.ctx).sealctr) ∧
     ScalarWord (.ctlrd d 0x0F) d (fun s _ g => (s.contextAt g.ctx).gdn) ∧
     ScalarWord (.ctlrd d 0x10) d (fun _ _ g => g.flags.zeroExtend 64) ∧
     ScalarWord (.ctlrd d 0x11) d (fun s _ _ => BitVec.ofNat 64 s.time) ∧
     ScalarWord (.ctlrd d 0x12) d (fun s _ g => match (s.contextAt g.ctx).eclass with
       | none => 0
       | some (source, cls) => BitVec.ofNat 64 (4096 + 256 * source + cls))) ∧
  (∀ a, GroupWord (.ctlwr a 0x00) (fun _ _ g => { g with rmode := (g.srcS .a a).extractLsb' 0 2, ftz := (g.srcS .a a).getLsbD 2 }) ∧
     GroupWord (.ctlwr a 0x01) (fun _ _ g => { g with lease := (g.srcS .a a).extractLsb' 0 8 }) ∧
     GroupWord (.ctlwr a 0x02) (fun _ _ g => { g with atick := (g.srcS .a a).extractLsb' 0 8 }) ∧
     (∀ s c g, Ready (.ctlwr a 0x03) s c g → exec (.ctlwr a 0x03) s = .next
       { s with contexts := s.contexts.alter g.ctx fun x => { x with ckpt := (g.srcS .a a).toNat } }) ∧
     (∀ s c g, Ready (.ctlwr a 0x04) s c g → let g' := { g with rgnoff := (g.srcS .a a).extractLsb' 0 20 }
       (s.slotOf g = 0 → exec (.ctlwr a 0x04) s = .next (s.setGroup c.gid g')) ∧
       (s.slotOf g ≠ 0 → g.wait = .writing → s.cuts = [] → ∀ e, s.flightsOf c.gid = [e] → exec (.ctlwr a 0x04) s = .next
         ((((s.setGroup c.gid { g' with wait := .none }).land c.gid).writePlaces e.ctx e.va e.pieces (e.bytes.getD []) g.clk).1)) ∧
       ∀ p, s.slotOf g ≠ 0 → g.wait ≠ .writing → s.placesOf g.ctx (s.slotOf g + 28) 4 true = .ok p →
         (s.placesReady g.ctx p true = true → s.slotLeft c.gid = false → exec (.ctlwr a 0x04) s = .next
           ((s.setGroup c.gid { g' with wait := .none }).writePlaces g.ctx (s.slotOf g + 28) p (toBytes (g.srcS .a a).toNat 4) g.clk).1) ∧
         (s.placesReady g.ctx p true = false ∨ s.slotLeft c.gid = true →
           exec (.ctlwr a 0x04) s = .next
             (waits (s.takeOff g.ctx c.gid (s.slotOf g + 28) p (some (toBytes (g.srcS .a a).toNat 4))) c g .writing))) ∧
     (∀ s c g, Ready (.ctlwr a 0x05) s c g → exec (.ctlwr a 0x05) s = .next
       { s with contexts := s.contexts.alter g.ctx fun x => { x with tvec := (g.srcS .a a).toNat } }) ∧
     GroupWord (.ctlwr a 0x06) (fun _ _ g => { g with tcause := g.srcS .a a }) ∧
     GroupWord (.ctlwr a 0x07) (fun _ _ g => { g with taddr := g.srcS .a a }) ∧
     GroupWord (.ctlwr a 0x08) (fun _ _ g => { g with tlane := g.srcS .a a }) ∧
     GroupWord (.ctlwr a 0x09) (fun _ _ g => { g with toff := (g.srcS .a a).extractLsb' 0 20 }) ∧
     GroupWord (.ctlwr a 0x0A) (fun _ _ g =>
       { g with tdone := (g.srcS .a a).extractLsb' 8 4, tplane := (g.srcS .a a).extractLsb' 4 2, tocc := (g.srcS .a a).extractLsb' 0 4 }) ∧
     ∀ s c g, Ready (.ctlwr a 0x10) s c g → ∃ free : Nat → BitVec 5,
       let v := (g.srcS .a a).extractLsb' 0 5
       let left (seq : Nat) (fl : BitVec 5) : BitVec 5 := fl &&& (~~~v ||| free seq)
       let op (o : MatOp) : MatOp := { o with raises := left o.seq o.raises }
       exec (.ctlwr a 0x10) s = .next (({ s with draws := s.draws + s.nextId } : State).setGroup c.gid
         { g with flags := g.flags &&& ~~~v, results := g.results.map fun r => { r with flags := left r.seq r.flags },
                  openOps := g.openOps.map op, batches := g.batches.map fun b => { b with ops := b.ops.map op } })) ∧
  (∀ s c (g : Machine.Group), s.cur = some c → s.groupAt c.gid = some g →
     let refused (i : Instr) (detail : Nat) : Prop := exec i s = .next (s.trapWord c g 1 detail (BitVec.ofNat 64 c.addr) 0)
     (∀ d, (Instr.ctlrd d 0).detail = none →
       (g.mode = .user → ∀ l ∈ [(0x03 : BitVec 7), 0x05], refused (.ctlrd d l) 0x08) ∧
       ∀ l : BitVec 7, 0x13 ≤ l.toNat → l.toNat < 0x40 → refused (.ctlrd d l) 0x09) ∧
     (∀ a, (Instr.ctlwr a 0).detail = none →
       let v := (g.srcS .a a).toNat
       (g.mode = .user → ∀ l ∈ [(0x03 : BitVec 7), 0x05], refused (.ctlwr a l) 0x08) ∧
       (g.mode = .user → ∀ l ∈ [(0x04 : BitVec 7), 0x06, 0x07, 0x08, 0x09, 0x0A, 0x0B, 0x0C, 0x0D, 0x0E, 0x0F, 0x11, 0x12],
         refused (.ctlwr a l) 0x06) ∧
       (g.mode = .steward → ∀ l ∈ [(0x0B : BitVec 7), 0x0C, 0x0D, 0x0E, 0x0F, 0x11, 0x12], refused (.ctlwr a l) 0x06) ∧
       (∀ l : BitVec 7, 0x13 ≤ l.toNat → l.toNat < 0x40 → refused (.ctlwr a l) 0x09) ∧
       (2 ^ 8 ≤ v ∨ v / 2 ^ 3 % 2 = 1 → refused (.ctlwr a 0x00) 0x0A) ∧
       (2 ^ 8 ≤ v ∨ v % 2 ^ 8 = 0 → refused (.ctlwr a 0x01) 0x0A ∧ refused (.ctlwr a 0x02) 0x0A) ∧
       (2 ^ 5 ≤ v → refused (.ctlwr a 0x10) 0x0A) ∧
       (g.mode = .steward →
         (v % 2 ^ 8 ≠ 0 → refused (.ctlwr a 0x03) 0x0A ∧ refused (.ctlwr a 0x05) 0x0A) ∧
         (2 ^ 20 ≤ v → refused (.ctlwr a 0x04) 0x0A ∧ refused (.ctlwr a 0x09) 0x0A) ∧
         (2 ^ 16 ≤ v ∨ v / 2 ^ 5 % 2 ^ 3 ≠ 0 ∨ 16 ≤ v % 2 ^ 5 → refused (.ctlwr a 0x06) 0x0A) ∧
         (2 ^ 12 ≤ v ∨ v / 2 ^ 6 % 2 ^ 2 ≠ 0 → refused (.ctlwr a 0x0A) 0x0A))) ∧
     (g.mode = .user → refused .tret 0x08)) ∧
  ∀ (s : State) (c : Issue) (g : Machine.Group) detail, s.cur = some c → s.groupAt c.gid = some g → g.mode = .user →
    (s.contextAt g.ctx).tvec ≠ 0 → detail < 256 →
    let t := s.trapWord c g 1 detail (BitVec.ofNat 64 c.addr) 0
    ∃ g', t.groupAt c.gid = some g' ∧ g'.tcause = BitVec.ofNat 64 (256 * detail + 1) ∧ g'.taddr = BitVec.ofNat 64 c.addr ∧ g'.tlane = 0 ∧
      g'.toff = BitVec.ofNat 20 g.off ∧ g'.tplane = BitVec.ofNat 2 c.plane ∧ g'.tdone = g.doneP ∧ g'.tocc = g.occ.getD 0 ∧
      g'.rmode = g.rmode ∧ g'.ftz = g.ftz ∧ g'.lease = g.lease ∧ g'.atick = g.atick ∧ g'.rgnoff = g.rgnoff ∧ g'.stack = g.stack ∧
      g'.winb = g.winb ∧ g'.mlast = g.mlast ∧ g'.batches = g.batches ∧ g'.flags = g.flags ∧ t.contexts = s.contexts ∧ t.time = s.time

/-- R289, R291, R296, R298, R321, R346, R347: in steward mode `svc` is a fault of CODE 13; in user mode, once its fence waits are
over, it parks the group, whose restart point is gone, counts in its slot's SVCSEQ, and raises a notice of type 2 with the
literal, the sequence number and s16 to s19. -/
def Obligations.ServiceRequest : Prop :=
  ∀ l s c g, Ready (.svc l) s c g →
    (g.mode = .steward → exec (.svc l) s = .next (s.trapWord c g 13 l.toNat 0 0)) ∧
    (g.mode = .user → g.wait = .over → exec (.svc l) s = .next s) ∧
    (g.mode = .user → g.wait = .fenced → g.evictSince = none →
      let g' := { g with wait := .none, svcSeq := g.svcSeq + 1, rstate := 2,
                         tcause := BitVec.ofNat 64 (256 * l.toNat + 13), taddr := 0, tlane := 0, toff := BitVec.ofNat 20 g.off,
                         tdone := g.doneP, tplane := BitVec.ofNat 2 c.plane, tocc := g.occ.getD 0 }
      let u := (s.setGroup c.gid g').spoilRestart c.gid
      let v := if s.slotOf g = 0 then u else u.slotWrite c.gid g' 0x3C (toBytes (g.svcSeq + 1).toNat 4)
      u.groupAt c.gid ≠ none → u.slotOf g' = s.slotOf g → v.groupAt c.gid ≠ none → (v.contextAt g.ctx).state ≠ .orphaned →
      exec (.svc l) s = .next ((waits v c g' (.svc (v.contextAt g.ctx).nextNotice)).raise g.ctx
        { (default : Notice) with
          type := 2, gix := g.gix, grx := g.grx, toff := g.off, svcSeq := g.svcSeq + 1, tcause := g'.tcause,
          args := [g.scalar 16, g.scalar 17, g.scalar 18, g.scalar 19], gid := some c.gid }))

/-! ## Matrix words and batches -/

/-- R243, R247, R249, R252, R258, R260, R253, R261, R262, R263: `mma`, `mmas` and `mzero` wait for the results that are outstanding
to the registers they name, and to the registers whose bytes their operands lie in, and append one instruction to the open
batch, with the operands of its issue; the checks trap in their order: the A descriptor, the B descriptor, the alignment
of A and of B, and each operand's extent.  That the wait for the registers a word names comes before its checks is the
model's choice (log 43), and so is A before B in the alignment check (log 80); `mbatch` closes the open batch
as the next number, modulo 16, and returns it, or waits while four batches are pending, which ends its run (log 33); `mwait` waits for the batch
of its number while one is pending; `mquery` reads LAST, PEND, the open batch's length up to 255 and whether the
batch is complete. -/
def Obligations.MatrixWords : Prop :=
  (∀ sparse d sa sb (fmt : BitVec 3) bsel, ∀ s c g,
    let i : Instr := if sparse then .mmas d sa sb fmt bsel else .mma d sa sb fmt bsel
    Ready i s c g →
    let aAddr := g.scalar sa.toNat
    let aDesc := g.scalar (sa.toNat + 1)
    let bAddr := g.scalar sb.toNat
    let bDesc := g.scalar (sb.toNat + 1)
    let own := (List.range (if fmt = 4 then 32 else 34)).map (g.winb + windowField d + ·)
    let named := [sa.toNat, sa.toNat + 1, sb.toNat, sb.toNat + 1].map (1024 + ·) ++ own
    let open_ (ks : List Nat) : Prop := ∃ r ∈ g.results, ∃ k ∈ r.dest.keys, k ∈ ks
    (open_ named → exec i s = .next (waits s c g (.registers named))) ∧
    (¬ open_ named →
      (descOk sparse aDesc = false → exec i s = .next (s.trapWord c g 10 1 aDesc 0)) ∧
      (descOk sparse aDesc = true → descOk false bDesc = false → exec i s = .next (s.trapWord c g 10 2 bDesc 0)) ∧
      (descOk sparse aDesc = true → descOk false bDesc = true →
        (aAddr.toNat % 16 ≠ 0 → exec i s = .next (s.trapWord c g 6 0 aAddr 0)) ∧
        (aAddr.toNat % 16 = 0 → bAddr.toNat % 16 ≠ 0 → exec i s = .next (s.trapWord c g 6 0 bAddr 0)) ∧
        (aAddr.toNat % 16 = 0 → bAddr.toNat % 16 = 0 →
          (∀ a, s.footprint c.gid g aAddr aDesc (rowsA g.width sparse aDesc) = .error a →
            exec i s = .next (s.trapWord c g 15 0 a 0)) ∧
          ∀ fa, s.footprint c.gid g aAddr aDesc (rowsA g.width sparse aDesc) = .ok fa →
            (∀ b, s.footprint c.gid g bAddr bDesc (rowsB bDesc) = .error b → exec i s = .next (s.trapWord c g 15 0 b 0)) ∧
            ∀ fb, s.footprint c.gid g bAddr bDesc (rowsB bDesc) = .ok fb →
              (open_ (footRegs g.width (fa ++ fb)) → exec i s = .next (waits s c g (.registers (footRegs g.width (fa ++ fb))))) ∧
              (¬ open_ (footRegs g.width (fa ++ fb)) → exec i s = .next (({ s with nextId := s.nextId + 1 } : State).setGroup c.gid
                { g with wait := .none, openOps := g.openOps ++
                  [{ seq := s.nextId, zero := false, sparse := sparse, acc := g.winb + windowField d, fmt := fmt.toNat,
                     bsel := bsel, aAddr := aAddr, aDesc := aDesc, bAddr := bAddr, bDesc := bDesc,
                     regs := own ++ footRegs g.width (fa ++ fb), foot := fa ++ fb, chunks := [], result := none, raises := 31 }] })))))) ∧
  (∀ d s c g, Ready (.mzero d) s c g →
    let own := (List.range 32).map (g.winb + windowField d + ·)
    let open_ : Prop := ∃ r ∈ g.results, ∃ k ∈ r.dest.keys, k ∈ own
    (open_ → exec (.mzero d) s = .next (waits s c g (.registers own))) ∧
    (¬ open_ → exec (.mzero d) s = .next (({ s with nextId := s.nextId + 1 } : State).setGroup c.gid
      { g with wait := .none, openOps := g.openOps ++
        [{ seq := s.nextId, zero := true, sparse := false, acc := g.winb + windowField d, fmt := 0, bsel := 0, aAddr := 0,
           aDesc := 0, bAddr := 0, bDesc := 0, regs := own, foot := [], chunks := [], result := none, raises := 31 }] }))) ∧
  (∀ d s c g, Ready (.mbatch d) s c g →
    (4 ≤ g.batches.length → exec (.mbatch d) s = .next (waits s c g .batchRoom)) ∧
    (g.batches.length < 4 → ∃ t r, exec (.mbatch d) s = .next t ∧
      Issued (if g.wait = .batchRoom then endsRun s c else s) t c
        { g with batches := g.batches ++ [{ k := g.closed, number := g.mlast + 1, ops := g.openOps }],
                 closed := g.closed + 1, mlast := g.mlast + 1, openOps := [], wait := .none } r ∧
      r.dest = g.dest d 1 ∧ r.svals = [BitVec.ofNat 64 ((g.mlast.toNat + 1) % 16)] ∧ r.ready = true)) ∧
  (∀ a s c g, Ready (.mwait a) s c g →
    ((∀ b ∈ g.batches, b.number ≠ (g.srcS .a a).setWidth 4) → exec (.mwait a) s = .next (endsRun s c)) ∧
    ∀ before b after, g.batches = before ++ b :: after → b.number = (g.srcS .a a).setWidth 4 →
      (∀ x ∈ before, x.number ≠ b.number) → exec (.mwait a) s = .next (waits s c g (.batch b.k))) ∧
  (∀ d a, ScalarWord (.mquery d a) d fun _ _ g => BitVec.ofNat 64
    (g.mlast.toNat + 16 * g.batches.length + 256 * (if g.openOps.length < 255 then g.openOps.length else 255) +
      65536 * if ∀ b ∈ g.batches, b.number ≠ (g.srcS .a a).setWidth 4 then 1 else 0))

/-! ## Copies and launches -/

/-- R268, R269, R270, R275, R277, R284, R298, R280, R281, R282: a `cpy` passes its checks exactly when its reserved bits
are zero, LEN and both addresses are multiples of 16, the context owns the channel and it is not faulted, and each
range lies within one global or vault extent; `cpy` and `cpyq` are accepted at the end of their channel's queue,
with CLK and the marked accesses of their issue; a replayed `cpy` or `cpyt` is skipped and counted; a full queue makes them
wait, and of the checks that fail the first, in the order of R269, is the word's trap, before any fence; `cpyt` reads the shape record of its slot, checks its generation and form, and is
accepted with the record, the direction and the origins of its issue, a slot beyond TTSLOTS, a generation that is not the handle's
and a form that is not sound being traps of CODE 10, and a full queue a wait (it looks for its channel again when it has waited
for its read: log 15); a copy word that waited for room has completed, and ends its run (log 33), once its copy is accepted, and takes the handle fault of R274 when the channel's fault has turned it away. -/
def Obligations.CopyWords : Prop :=
  (∀ (s : State) ctx dst src (b : Scalar) ch, s.copyCheck ctx dst src b none = .ok ch ↔
     (b.toNat < 2 ^ 40 ∧ b.toNat % 16 = 0 ∧ s.channelOf ctx (b.toNat / 2 ^ 32) = some ch ∧ (s.channelAt ch).fault = false ∧
       dst.toNat % 16 = 0 ∧ src.toNat % 16 = 0 ∧ inExtent src.toNat (b.toNat % 2 ^ 32) ∧ inExtent dst.toNat (b.toNat % 2 ^ 32))) ∧
  (∀ (s : State) ctx dst src (b f : Scalar) ch, s.copyCheck ctx dst src b (some f) = .ok ch ↔
     (s.copyCheck ctx dst src b none = .ok ch ∧ f.toNat % 8 = 0 ∧ f.toNat < 2 ^ 48)) ∧
  (∀ (s : State) ctx (dst src b : Scalar) (f : Option Scalar),
     let n := b.toNat % 2 ^ 32
     let firstOut (a : Scalar) (v : Scalar) : Prop :=
       ∃ k, v = BitVec.ofNat 64 (a.toNat + k) ∧ (k = 0 ∨ inExtent a.toNat k) ∧ ¬ inExtent a.toNat (k + 1)
     (2 ^ 40 ≤ b.toNat ∨ b.toNat % 16 ≠ 0 → s.copyCheck ctx dst src b f = .error (10, 0x10, b)) ∧
     (b.toNat < 2 ^ 40 → b.toNat % 16 = 0 →
       (s.channelOf ctx (b.toNat / 2 ^ 32) = none → s.copyCheck ctx dst src b f = .error (10, 0x11, b)) ∧
       ∀ ch, s.channelOf ctx (b.toNat / 2 ^ 32) = some ch →
         ((s.channelAt ch).fault = true → s.copyCheck ctx dst src b f = .error (10, 0x12, b)) ∧
         ((s.channelAt ch).fault = false →
           (dst.toNat % 16 ≠ 0 → s.copyCheck ctx dst src b f = .error (6, 0, dst)) ∧
           (dst.toNat % 16 = 0 → src.toNat % 16 ≠ 0 → s.copyCheck ctx dst src b f = .error (6, 0, src)) ∧
           (dst.toNat % 16 = 0 → src.toNat % 16 = 0 →
             (∀ v, f = some v → v.toNat % 8 ≠ 0 → s.copyCheck ctx dst src b f = .error (6, 0, v)) ∧
             ((∀ v, f = some v → v.toNat % 8 = 0) →
               (¬ inExtent src.toNat n → ∃ v, firstOut src v ∧ s.copyCheck ctx dst src b f = .error (15, 0, v)) ∧
               (inExtent src.toNat n → ¬ inExtent dst.toNat n → ∃ v, firstOut dst v ∧ s.copyCheck ctx dst src b f = .error (15, 0, v)) ∧
               (inExtent src.toNat n → inExtent dst.toNat n → ∀ v, f = some v → 2 ^ 48 ≤ v.toNat →
                 s.copyCheck ctx dst src b f = .error (15, 0, v))))))) ∧
  (∀ d a b s c g, Ready (.cpy d a b) s c g → g.wait = .none →
    (g.cpyCount < g.cpySkip → exec (.cpy d a b) s = .next (s.setGroup c.gid { g with cpyCount := g.cpyCount + 1 })) ∧
    (g.cpySkip ≤ g.cpyCount → ∀ code detail ad, s.copyCheck g.ctx (g.srcS .d d) (g.srcS .a a) (g.srcS .b b) none = .error (code, detail, ad) →
      exec (.cpy d a b) s = .next (s.trapWord c g code detail ad 0)) ∧
    (g.cpySkip ≤ g.cpyCount → ∀ ch, s.copyCheck g.ctx (g.srcS .d d) (g.srcS .a a) (g.srcS .b b) none = .ok ch →
      let x : Copy :=
        { launch := g.launch, gid := c.gid, dst := (g.srcS .d d).toNat, src := (g.srcS .a a).toNat,
          len := (g.srcS .b b).toNat % 2 ^ 32, done := 0, stamp := g.clk, holds := [], flag := none, tensor := none }
      let k := s.channelAt ch
      (64 ≤ k.queue.length → exec (.cpy d a b) s = .next (waits s c g (.room ch x))) ∧
      (k.queue.length < 64 → exec (.cpy d a b) s = .next
        ((s.setChannel ch
          { k with sp := k.sp + BitVec.ofNat 64 x.len,
                   queue := k.queue ++ [{ x with stamp := max g.clk g.markAck, holds := g.marked }] }).setGroup c.gid
          { g with wait := .none, cpyCount := g.cpyCount + 1, cpyDone := g.cpyDone + 1 })))) ∧
  (∀ d a b s c g, Ready (.cpyq d a b) s c g →
    let check := s.copyCheck g.ctx (g.srcS .d d) (g.srcS .a a) (g.srcS .b b) (some (g.srcSk .d d 1))
    (g.wait = .none ∨ g.wait = .fenced → ∀ code detail ad, check = .error (code, detail, ad) →
      exec (.cpyq d a b) s = .next (s.trapWord c { g with wait := .none } code detail ad 0)) ∧
    (g.wait = .none → ∀ ch, check = .ok ch →
      exec (.cpyq d a b) s = .next (if s.redundant g then waits s c g .compare else waits (drained s c.gid) c g .fence)) ∧
    (g.wait = .fenced → ∀ ch, check = .ok ch →
      let x : Copy :=
        { launch := g.launch, gid := c.gid, dst := (g.srcS .d d).toNat, src := (g.srcS .a a).toNat,
          len := (g.srcS .b b).toNat % 2 ^ 32, done := 0, stamp := g.clk, holds := [],
          flag := some (g.srcSk .d d 1).toNat, tensor := none }
      let g' := { g with wait := .none }
      let k := s.channelAt ch
      (64 ≤ k.queue.length → exec (.cpyq d a b) s = .next (waits (s.setGroup c.gid g') c g' (.room ch x))) ∧
      (k.queue.length < 64 → exec (.cpyq d a b) s = .next
        (((((s.setGroup c.gid g').setChannel ch
          { k with sp := k.sp + BitVec.ofNat 64 x.len, queue := k.queue ++ [{ x with stamp := max g.clk g.markAck, holds := g.marked }] }).setGroup
            c.gid g').spoilRestart c.gid))))) ∧
  (∀ (s : State) ctx (v : Scalar),
    (v.toNat / 2 ^ 41 % 2 ^ 7 ≠ 0 → s.tensorChannel ctx v = .error (10, 0x10, v)) ∧
    (v.toNat / 2 ^ 41 % 2 ^ 7 = 0 →
      (s.channelOf ctx (v.toNat / 2 ^ 32 % 2 ^ 8) = none → s.tensorChannel ctx v = .error (10, 0x11, v)) ∧
      ∀ ch, s.channelOf ctx (v.toNat / 2 ^ 32 % 2 ^ 8) = some ch →
        s.tensorChannel ctx v = if (s.channelAt ch).fault = true then .error (10, 0x12, v) else .ok ch)) ∧
  (∀ d a b s c g, Ready (.cpyt d a b) s c g →
     let v := g.srcS .b b
     let dst := g.srcS .d d
     let x := s.contextAt g.ctx
     let rec_ : Scalar := BitVec.ofNat 64 (x.cfg.ttbase + 64 * (v.toNat % 2 ^ 20))
     let submitted (u : State) (y : Load) (w : State) : Prop :=
       let g0 := { g with wait := .none }
       let g' := (g0 : Machine.Group).loadClock y
       let u' := u.setGroup c.gid g'
       let bytes := blockBytes 32 (y.data.map (·.2))
       let sh := shapeOf bytes
       let sound : Prop := sh.gen = v.toNat / 2 ^ 20 % 2 ^ 12 ∧ sh.gen ≠ 0
       (∀ code detail ad, u'.tensorChannel g.ctx v = .error (code, detail, ad) → w = u'.trapWord c g0 code detail ad 0) ∧
       ∀ ch, u'.tensorChannel g.ctx v = .ok ch →
         let k := u'.channelAt ch
         let y : Copy := { launch := g'.launch, gid := c.gid, dst := dst.toNat, src := dst.toNat, len := sh.dense, done := 0,
                           stamp := g'.clk, holds := [], flag := none, tensor := some (bytes, v.getLsbD 40, originsOf (g.srcS .a a) v) }
         (¬ sound → ∃ m, w = u'.draw.trapWord c g0 10 0x13 rec_ m) ∧
         (sound → sh.bad = true → ∃ m, w = u'.draw.trapWord c g0 10 0x14 rec_ m) ∧
         (sound → sh.bad = false → dst.toNat % 16 ≠ 0 → w = u'.trapWord c g0 6 0 dst 0) ∧
         (sound → sh.bad = false → dst.toNat % 16 = 0 →
           (¬ inExtent dst.toNat sh.dense → ∃ n, (n = 0 ∨ inExtent dst.toNat n) ∧ ¬ inExtent dst.toNat (n + 1) ∧
             w = u'.trapWord c g0 15 0 (BitVec.ofNat 64 (dst.toNat + n)) 0) ∧
           (inExtent dst.toNat sh.dense → ¬ inExtent sh.base 0 → w = u'.trapWord c g0 15 0 (BitVec.ofNat 64 sh.base) 0) ∧
           (inExtent dst.toNat sh.dense → inExtent sh.base 0 →
             (64 ≤ k.queue.length → w = waits u' c g' (.room ch y)) ∧
             (k.queue.length < 64 → w = (u'.setChannel ch
               { k with
                 sp := k.sp + BitVec.ofNat 64 sh.dense,
                 queue := k.queue ++ [{ y with stamp := max g'.clk g'.markAck, holds := g'.marked }] }).setGroup c.gid
               { g' with cpyCount := g'.cpyCount + 1, cpyDone := g'.cpyDone + 1 })))
     (g.wait = .none → g.cpyCount < g.cpySkip → exec (.cpyt d a b) s = .next (s.setGroup c.gid { g with cpyCount := g.cpyCount + 1 })) ∧
     (g.wait = .none → g.cpySkip ≤ g.cpyCount →
       (∀ code detail ad, s.tensorChannel g.ctx v = .error (code, detail, ad) →
         exec (.cpyt d a b) s = .next (s.trapWord c g code detail ad 0)) ∧
       ∀ ch, s.tensorChannel g.ctx v = .ok ch →
         (x.cfg.ttslots ≤ v.toNat % 2 ^ 20 → ∃ ad m, exec (.cpyt d a b) s = .next (s.draw.draw.trapWord c g 10 0x15 ad m)) ∧
         (v.toNat % 2 ^ 20 < x.cfg.ttslots → 2 ^ 48 ≤ rec_.toNat → exec (.cpyt d a b) s = .next (s.trapWord c g 15 0 rec_ 0)) ∧
         (v.toNat % 2 ^ 20 < x.cfg.ttslots → rec_.toNat < 2 ^ 48 →
           (∀ code ad m, s.addressTrap c g true false 64 [(0, rec_)] = some (code, ad, m) →
             exec (.cpyt d a b) s = .next (s.trapWord c g code 0 ad m)) ∧
           (∀ t bad, s.addressTrap c g true false 64 [(0, rec_)] = none → s.locateAll c g false [(0, rec_)] = (t, [], bad) → bad ≠ [] →
             exec (.cpyt d a b) s = .next (t.accessFault c true bad)) ∧
           ∀ t p, Reaches s c g true false false 64 [(0, rec_)] t [(0, rec_, p)] →
             StartsRead (.cpyt d a b) s t c g (t.newLoad c g 32 .qword (blockAt 2 rec_ p)) submitted)) ∧
     EndsRead (.cpyt d a b) s c g submitted) ∧
  ∀ i b s c g, (∃ d a, i = .cpy d a b ∨ i = .cpyq d a b ∨ i = .cpyt d a b) → Ready i s c g →
    (g.wait = .over → exec i s = .next (endsRun (s.setGroup c.gid { g with wait := .none }) c)) ∧
    (g.wait = .faulted → exec i s = .next (s.trapWord c { g with wait := .none } 10 0x12 (g.srcS .b b) 0))

/-- R277, R278, R279: `xfence` marks the group's accesses that are not yet acknowledged and lets its entries drain;
`cwp` reads WP, SP, or FAULT and the queue's length; `cwait` goes on when WP has reached its threshold, with CLK at least
CC, and waits else, or meets the channel's fault; one that waited goes on with the CC of the delivery that reached its threshold, or
takes the handle fault of a channel fault that it was parked on, whatever the channel has become since. -/
def Obligations.ChannelWords : Prop :=
  (∀ s c g, Ready .xfence s c g → ∃ m, exec .xfence s = .next ((drained s c.gid).setGroup c.gid
      { g with marked := m, markAck := g.acks.foldl max g.markAck }) ∧
    ∀ q, q ∈ m ↔ q ∈ g.marked ∨ (∃ e ∈ s.entries, e.gid = c.gid ∧ e.seq = q) ∨ (∃ e ∈ s.atoms, e.gid = c.gid ∧ e.seq = q) ∨
      ∃ e ∈ s.locals, e.gid = c.gid ∧ e.seq = q) ∧
  (∀ d a s c g k, Ready (.cwp d a) s c g → (g.srcS .a a).toNat < 768 → s.channelOf g.ctx ((g.srcS .a a).toNat % 256) = some k →
    GivesScalar (.cwp d a) s c g d (if (g.srcS .a a).toNat < 256 then (s.channelAt k).wp
      else if (g.srcS .a a).toNat < 512 then (s.channelAt k).sp
      else BitVec.ofNat 64 ((s.channelAt k).queue.length + if (s.channelAt k).fault then 256 else 0)) 0) ∧
  (∀ a b s c g, Ready (.cwait a b) s c g → g.wait = .faulted →
    ∃ m, exec (.cwait a b) s = .next (s.draw.trapWord c { g with wait := .none } 10 0x12 (g.srcS .a a) m)) ∧
  (∀ a b s c g cc, Ready (.cwait a b) s c g → g.wait = .reached cc →
    exec (.cwait a b) s = .next (endsRun (s.setGroup c.gid { g with clk := max g.clk cc, wait := .none }) c)) ∧
  (∀ a b s c g k, Ready (.cwait a b) s c g → (g.srcS .a a).toNat < 256 → s.channelOf g.ctx (g.srcS .a a).toNat = some k →
    let ch := s.channelAt k
    (g.wait = .none → (g.srcS .b b).toNat ≤ ch.wp.toNat → exec (.cwait a b) s =
      .next (endsRun (s.setGroup c.gid { g with clk := max g.clk ch.cc, wait := .none }) c)) ∧
    (g.wait = .none → ch.wp.toNat < (g.srcS .b b).toNat → ch.fault = false → exec (.cwait a b) s = .next (waits s c g (.channel k (g.srcS .b b)))) ∧
    (g.wait = .none → ch.wp.toNat < (g.srcS .b b).toNat → ch.fault = true → ∃ m,
      exec (.cwait a b) s = .next (s.draw.trapWord c { g with wait := .none } 10 0x12 (g.srcS .a a) m)))

/-- R146, R147, R285, R286, R287, R298: `launch` reads the record once its fence waits are over and returns the handle:
the launch id with status 1 of a record that is accepted, or the status of one that is not, which has no other effect;
an accepted record is a launch at the end of its queue, or a graph, whose groups start with at least the CLK of its issue;
`lquery` reads how far a launch has come. -/
def Obligations.LaunchWords : Prop :=
  (∀ d a s c g, Ready (.launch d a) s c g →
    let taken (u : State) (y : Load) (w : State) : Prop :=
      let g' := ({ g with wait := .none } : Machine.Group).loadClock y
      let u' := u.setGroup c.gid g'
      let r := blockBytes 32 (y.data.map (·.2))
      (u'.recordStatus g.ctx r = 1 → ∀ v lid g'', u'.acceptRecord g.ctx r g'.clk = (v, lid) → v.groupAt c.gid = some g'' →
        ∃ w' x, w = w'.spoilRestart c.gid ∧ Issued v w' c g'' x ∧ x.dest = g''.dest d 1 ∧
          x.svals = [BitVec.ofNat 64 (256 * lid + 1)] ∧ x.ready = true) ∧
      (u'.recordStatus g.ctx r ≠ 1 → ∃ w' x, w = w'.spoilRestart c.gid ∧ Issued u' w' c g' x ∧ x.dest = g'.dest d 1 ∧
        x.svals = [BitVec.ofNat 64 (u'.recordStatus g.ctx r)] ∧ x.ready = true)
    (g.wait = .fenced → (g.srcS .a a).toNat < 2 ^ 48 → s.addressTrap c g true false 128 [(0, g.srcS .a a)] = none →
      ∀ t p, Reaches (s.setGroup c.gid { g with wait := .none }) c { g with wait := .none } true false false 128 [(0, g.srcS .a a)] t
        [(0, g.srcS .a a, p)] →
      StartsRead (.launch d a) s t c { g with wait := .none }
        (t.newLoad c { g with wait := .none } 32 .dword (blockAt 4 (g.srcS .a a) p)) taken) ∧
    EndsRead (.launch d a) s c g taken) ∧
  (∀ (s : State) ctx r clk t lid, s.acceptRecord ctx r clk = (t, lid) →
    let x := recordFrom r
    lid = (if (s.contextAt ctx).nextLid = 2 ^ 32 - 1 then 1 else (s.contextAt ctx).nextLid + 1) ∧ t.groups = s.groups ∧ SameMemory s t ∧
    (x.kind ≠ 1 → ∃ l, t.launches.at? s.nextId = some l ∧ l.ctx = ctx ∧ l.rcd = x ∧ l.lid = lid ∧ l.clk = clk ∧ l.started = false ∧
      l.complete = false ∧ l.next = 0 ∧ (t.contextAt ctx).queue x.queue = (s.contextAt ctx).queue x.queue ++ [s.nextId] ∧ t.graphs = s.graphs) ∧
    (x.kind = 1 → t.launches = s.launches ∧ ∃ k, t.graphs.at? s.nextId = some k ∧ k.ctx = ctx ∧ k.rcd = x ∧ k.lid = lid ∧ k.clk = clk ∧
      k.node = 0 ∧ k.submitted = [] ∧ k.entry = none ∧ k.snap = none ∧ k.failed = false)) ∧
  (∀ d a, ScalarWord (.lquery d a) d fun s _ g =>
    let status := (g.srcS .a a).toNat % 128
    let lid := (g.srcS .a a).toNat / 256 % 2 ^ 32
    BitVec.ofNat 64 (if status ≠ 1 ∨ lid = 0 then 4 + status
      else if (s.contextAt g.ctx).nextLid < lid then 0
      else match s.launches.find? fun e => decide (e.2.ctx = g.ctx ∧ e.2.lid = lid ∧ e.2.complete = false) with
        | some (_, l) => if l.started then 2 else 1
        | none => if ∃ e ∈ s.graphs, e.2.ctx = g.ctx ∧ e.2.lid = lid then 2 else 3))

/-! ## Sealed images -/

/-- R305, R306, R304, R325: a block that `sealst` seals is one that `sealld` accepts while the context, its key and its
counter are the same, and its plaintext comes back; under another counter it is refused with CODE 11 or 12; `sealst`
of an eviction group stores the sealed block of its units, which it reads as a load does, or of its grove's barriers, as 65
pieces of 64 bytes, once every earlier access is performed; `sealld` of a restore group, once nothing of the group is on its
way, reads the 65 pieces of such a block at their homes, each at a moment of its own, and then stores the plaintext, or loads
the barriers; an image that is refused traps; a word whose homes cannot take its block waits while its stores are under
way.  That the stores of one word are performed at one moment is the model's reading (log 30, DEDUCED), and so is that
`sealst` translates its destination after it has read its units (log 12): neither is a rule of the manual. -/
def Obligations.SealWords : Prop :=
  (∀ (s : State) ctx (b : Scalar) epoch plain, ctx < 1024 → epoch < 2 ^ 32 → (s.contextAt ctx).sealctr < 2 ^ 48 →
     sealKind b < 2 → plain.length = 4096 →
     let units := if sealKind b = 0 then sealUnits b else 15
     let block (n : Nat) := sealedBlock (s.keyOf ctx) ctx n (sealBlk b) epoch units (sealKind b) plain
     s.sealCause ctx b (block (s.contextAt ctx).sealctr) = none ∧ s.unseal ctx (block (s.contextAt ctx).sealctr) = plain ∧
     (∀ n < 2 ^ 48, n < (s.contextAt ctx).sealctr → s.sealCause ctx b (block n) = some 12) ∧
     ∀ n < 2 ^ 48, (s.contextAt ctx).sealctr < n → s.sealCause ctx b (block n) = some 11) ∧
  (∀ d a b s c g, Ready (.sealst d a b) s c g →
    let v := g.srcS .b b
    let g' := { g with wait := .none }
    let s' := s.setGroup c.gid g'
    let stored (t : State) (x : Machine.Group) (dst : List Located) (plain : List Byte) (w : State) : Prop :=
      let block := sealedBlock (t.keyOf x.ctx) x.ctx ((t.contextAt x.ctx).sealctr + 1) (sealBlk v) t.epoch
        (if sealKind v = 0 then sealUnits v else 15) (sealKind v) plain
      (t.placesReady x.ctx (piecesAt 64 dst) true = true → w = ((t.setGroup c.gid { x with wait := .none }).landStores (fun _ => false)
        c.gid x.ctx x.clk (g.srcS .d d).toNat (piecesAt 64 dst) block).spoilRestart c.gid) ∧
      (t.placesReady x.ctx (piecesAt 64 dst) true = false →
        w = waits (t.takeOff x.ctx c.gid (g.srcS .d d).toNat (piecesAt 64 dst) (some block)) c x .writing)
    let sealed (u : State) (y : Load) (w : State) : Prop :=
      let x := g'.loadClock y
      ∀ t dst, (u.setGroup c.gid x).locateAll c x true (sealPieces (g.srcS .d d) 64 65) = (t, dst, []) →
        stored t x dst (blockBytes 32 (y.data.map (·.2))) w
    (g.role = .evict → g.wait = .fenced → badSeal v = false → (s.contextAt g.ctx).sealctr < 2 ^ 48 - 1 →
      (g.srcS .d d).toNat < 2 ^ 48 → leavesExtent (sealPieces (g.srcS .d d) 64 65) = none →
      (∀ t dst, sealKind v = 1 → Reaches s' c g' true true true 64 (sealPieces (g.srcS .d d) 64 65) t dst →
        ∃ w, exec (.sealst d a b) s = .next w ∧ stored t g' dst (s'.unitState g') w) ∧
      (∀ t src, sealKind v = 0 → leavesExtent (sealPieces (g.srcS .a a) 256 (sealUnits v + 1)) = none →
        s'.addressTrap c g' true true 64 (sealPieces (g.srcS .d d) 64 65) = none →
        Reaches s' c g' true false true 256 (sealPieces (g.srcS .a a) 256 (sealUnits v + 1)) t src →
        StartsRead (.sealst d a b) s t c g' (t.newLoad c g' 32 .qword
          (src.flatMap fun e => (List.range 8).map fun k => (8 * e.1 + k, e.2.1, e.2.2.plus (32 * k)))) sealed)) ∧
    EndsRead (.sealst d a b) s c g sealed ∧
    (∀ f, g.wait = .writing → s.cuts = [] → s.flightsOf c.gid = [f] → exec (.sealst d a b) s =
      .next ((((s.land c.gid).setGroup c.gid g').landStores (fun _ => false) c.gid f.ctx g.clk f.va f.pieces (f.bytes.getD [])).spoilRestart c.gid))) ∧
  (∀ d a b s c g, Ready (.sealld d a b) s c g →
    let v := g.srcS .b b
    let pieces := sealPieces (g.srcS .d d) 256 (sealUnits v + 1)
    let opened (u : State) (y : Load) (w : State) : Prop :=
      let x := ({ g with wait := .none } : Machine.Group).loadClock y
      let u' := u.setGroup c.gid x
      let r := blockBytes 64 (y.data.map (·.2))
      (∀ code, u'.sealCause g.ctx v r = some code → w = u'.trapWord c x code 0 (g.srcS .a a) 0) ∧
      (u'.sealCause g.ctx v r = none → sealKind v = 1 → w = u'.loadUnitState x (fieldOf r 0x1010 4) (u'.unseal g.ctx r)) ∧
      ∀ t dst, u'.sealCause g.ctx v r = none → sealKind v ≠ 1 → u'.locateAll c x true pieces = (t, dst, []) →
        (t.placesReady g.ctx (piecesAt 256 dst) true = true → w = (t.setGroup c.gid x).landStores (fun _ => false)
          c.gid g.ctx x.clk (g.srcS .d d).toNat (piecesAt 256 dst) (t.unseal g.ctx r)) ∧
        (t.placesReady g.ctx (piecesAt 256 dst) true = false →
          w = waits (t.takeOff g.ctx c.gid (g.srcS .d d).toNat (piecesAt 256 dst) (some (t.unseal g.ctx r))) c x .writing)
    (g.role = .restore → g.wait = .none ∨ g.wait = .idle → badSeal v = false → (g.srcS .a a).toNat < 2 ^ 48 →
      leavesExtent (sealPieces (g.srcS .a a) 64 65) = none → s.addressTrap c g true true 64 (sealPieces (g.srcS .a a) 64 65) = none →
      (sealKind v = 0 → leavesExtent pieces = none ∧ s.addressTrap c g true true 256 pieces = none ∧ g.pendingOps = []) →
      (s.busy c.gid = true → exec (.sealld d a b) s = .next (waits (drained s c.gid) c g .idle)) ∧
      ∀ t src, s.busy c.gid = false → s.locateAll c g false (sealPieces (g.srcS .a a) 64 65) = (t, src, []) →
        let x := t.homeLoad c g 64 src
        exec (.sealld d a b) s = .next
          (waits (({ t with nextId := t.nextId + 1, loads := t.loads ++ [x] } : State).askLoad x) c g (.reading x.seq))) ∧
    EndsRead (.sealld d a b) s c g opened ∧
    (∀ f, g.wait = .writing → s.cuts = [] → s.flightsOf c.gid = [f] → exec (.sealld d a b) s = .next
      (((s.land c.gid).setGroup c.gid { g with wait := .none }).landStores (fun _ => false) c.gid f.ctx g.clk f.va f.pieces (f.bytes.getD [])))) ∧
  ∀ (s : State) seq k (x : Load) l (g : Machine.Group), s.loads.find? (fun y => decide (y.seq = seq)) = some x →
    s.groupAt x.gid = some g → x.rest.find? (fun m => decide (m.lane = k)) = some l → x.rest.filter l.together = [l] → 0 < x.size →
    l.atHome = true → l.place.isGlobal = true → l.own = [] → s.homeHas g.ctx l.place = true → s.laneReady x l = true →
    ∃ (u : State) (y : Load), s.performOne seq k = u.putLoad y ∧ SameMemory s u ∧ u.groups = s.groups ∧
      y.data.at? k = some (fromBytes (s.bytesAt (s.keyOf g.ctx) l.place x.size)) ∧ y.w = max x.w (s.lineOf l.place).w ∧
      y.rest = x.rest.filter (fun m => decide (m.lane ≠ l.lane)) ∧
      y.poison = (x.poison <|> if s.isPoisoned l.place x.size then some (s.sourceOf l.place) else none)

/-! ## Steps, words and invariants -/

/-- R161, R175 to R178: a step runs the word that its group has fetched: the word at hand of an offset, the first of an
offset that begins, a word that was held, or an event of the agenda; then the group goes on to its next plane, or, when
the last occupied plane has issued, to the next offset or the target of a transfer, and parks if a word carried S; its
slot is the partition's last when the word has issued now, whatever has become of the group, and not when it goes on after
its wait; a group with planes of the offset left holds its partition. -/
def Obligations.StepRunsDecodedWord : Prop :=
  (∀ (s s' t : State) gid (g : Machine.Group) p w i o, Picks s s' gid g → g.wait ≠ .trap → g.held = none →
    (g.mode = .user → g.heldTrap = none) → g.off < 2 ^ 20 → g.occ = some o → (planesOf (o &&& ~~~g.doneP)).head? = some p →
    s'.fetch g p = (t, .ok w) → decode w = .ok i → step s = outcome i (atIssue t gid { g with trapOwn := false } p w)) ∧
  (∀ (s s' t : State) gid (g : Machine.Group) p w i rest, Picks s s' gid g → g.wait ≠ .trap → g.held = none →
    (g.mode = .user → g.heldTrap = none) → g.off < 2 ^ 20 → g.occ = none →
    let g' : Machine.Group := { g with trapOwn := false, wait := .none, occ := some g.occupied, doneP := 0 }
    s'.fetchAll g' (planesOf g.occupied) = (t, .ok ((p, w) :: rest)) → misaligned ((p, w) :: rest) = [] →
    decode w = .ok i → step s = outcome i (atIssue t gid g' p w)) ∧
  (∀ (s s' : State) gid (g : Machine.Group) i c, Picks s s' gid g → g.wait ≠ .trap → g.held = some (i, c) →
    step s = outcome i { s' with cur := some { c with fate := .done } }) ∧
  (∀ (s : State) i rest, s.due = none → s.throttleDue = false → s.agenda = .event i :: rest → step s = outcome i { s with agenda := rest }) ∧
  (∀ (v : State) i c, v.cur = some c → v.groupAt c.gid = none → c.again = false → (v.finish i).cur = none ∧
    ((v.finish i).coreAt c.core).lastSlot.at? (c.slot / 4) = some (c.slot % 4)) ∧
  ∀ (v : State) i c (g : Machine.Group) o, v.cur = some c → v.groupAt c.gid = some g → g.occ = some o →
    c.fate ≠ .hold → c.fate ≠ .left →
    let d := if c.uniform then o else g.doneP ||| planeBit c.plane
    ∃ g', (v.finish i).groupAt c.gid = some g' ∧ (v.finish i).cur = none ∧ g'.held = none ∧
      (c.again = true → (v.finish i).cores = v.cores) ∧
      (c.again = false → ((v.finish i).coreAt c.core).lastSlot.at? (c.slot / 4) = some (c.slot % 4)) ∧
      g'.holding = decide (o &&& ~~~d ≠ 0) ∧
      if o &&& ~~~d = 0 then
        g'.off = (match c.fate with
          | .goto n => n
          | _ => g.off + 1) ∧ g'.wait = (if g.mark || c.mark then .run else .none) ∧ g'.mark = false
      else g'.off = g.off ∧ g'.doneP = d ∧ g'.mark = (g.mark || c.mark) ∧ g'.wait = .none

/-- R52, R53, R56: words spelled out from the encoding tables are the instructions that they stand for, and a word with a
bit set where the tables want zero, of an unassigned function or of major 13 is refused with its DETAIL. -/
def Obligations.DecodeWords : Prop :=
  decode 0xC0CD8810 = .ok (.saddi (.s 6) (.s 2) 16) ∧ decode 0x0B820103 = .ok (.vdp4I (.v 8) (.v 2) (.v 3)) ∧
  decode 0x10600410 = .ok (.vffma (.v 0) (.v 8) (.v 16)) ∧ decode 0x19024600 = .ok (.vpackLx (.v 9) (.v 12)) ∧
  decode 0x2080B101 = .ok (.vldW (.v 2) (.s 2) (.v 1)) ∧ decode 0x2901B101 = .ok (.vatomCas (.v 6) (.s 2) (.v 1)) ∧
  decode 0x30002214 = .ok (.mma (.v 0) 2 4 1 4) ∧ decode 0x38793166 = .ok (.cpy (.s 4) (.s 2) (.s 6)) ∧
  decode 0x78400000 = .ok .exit ∧ decode 0x79803190 = .ok (.ctlwr (.s 3) 0x10) ∧
  decode 0x081EC103 = .ok (.vadd .xm (.v 2) (.v 3)) ∧ (Instr.vadd .xm (.v 2) (.v 3)).detail = some 0x06 ∧
  decode 0x78400001 = .error 0x03 ∧ decode 0x7FE00000 = .error 0x02 ∧ decode 0x68000000 = .error 0x01

/-- R52, R53: the word that the encoder gives an instruction, with either park mark and every operand that the fields
admit, decodes to that instruction, and carries that mark. -/
def Obligations.DecodeEncode : Prop := ∀ i s w, encode s i = some w → decode w = .ok i ∧ parkMark w = s

/-- R52, R53, R56: a word that decodes is the only word of its instruction with its park mark: no bit of it is left out. -/
def Obligations.EncodeDecode : Prop := ∀ w i, decode w = .ok i → encode (parkMark w) i = some w

/-- The DRAM, the hosts' memories and the vaults keep their canonical form, whatever a step does. -/
def Obligations.MemoryCanonicalKept : Prop := ∀ s t, Canonical s → step s = .next t → Canonical t

/-- The scratch of every grove keeps its canonical form, whatever a step does. -/
def Obligations.ScratchCanonicalKept : Prop := ∀ s t, ScratchCanonical s → step s = .next t → ScratchCanonical t

/-- No instruction is refused, and a meaning faults only when no group issues; and after a step nothing is at issue, if
nothing was before it. -/
def Obligations.NothingAtIssueBetweenSteps : Prop :=
  (∀ i s, (∃ t, exec i s = .next t) ∨
    (exec i s = .fault .noIssuingGroup ∧ (s.cur = none ∨ ∃ c, s.cur = some c ∧ s.groupAt c.gid = none))) ∧
  ∀ s t, s.cur = none → step s = .next t → t.cur = none

/-- R369, R373, R377: after power-on BOOTST reads OFF with FAILS and LASTFAIL 0, no trained parameters are held, there is
no glade, context, group or track of a line, device time is 0 (the model's choice, log 5), and the memories list nothing,
in canonical form (that unlisted bytes read as zero is the model's choice, log 4). -/
def Obligations.ResetState : Prop :=
  State.reset.boot.state = .off ∧ State.reset.boot.fails = 0 ∧ State.reset.boot.lastfail = 0 ∧ State.reset.boot.trained = false ∧
  State.reset.glades = [] ∧ State.reset.contexts = [] ∧ State.reset.groups = [] ∧ State.reset.lines = [] ∧ State.reset.time = 0 ∧
  (∀ key p, State.reset.byteAt key p = 0) ∧ Canonical State.reset ∧ ScratchCanonical State.reset ∧ State.reset.cur = none

/-- R28: what a group holds at its first instruction: S[0] the parameter block, XM one bit for each lane of its width, CM
zero, every lane in plane 0, WINB and the depth zero, every other register zero; and its control registers as R42
resets them. -/
def Obligations.GroupStart : Prop :=
  ∀ ctx lk grove gix grx core slot (x : Record) clk, x.param < 2 ^ 64 →
    let g := newGroup ctx lk grove gix grx core slot x clk
    g.scalar 0 = BitVec.ofNat 64 x.param ∧ (∀ k, k ≠ 0 → g.scalar k = 0) ∧ (∀ p i, g.vlane p i = 0) ∧
    (∀ j, j < 64 → g.xm.getLsbD j = decide (j < 16 * 2 ^ x.width)) ∧ g.cm = 0 ∧ (∀ j, g.planeOf j = 0) ∧ g.winb = 0 ∧
    g.stack = [] ∧ g.off = 0 ∧ g.mode = .user ∧ g.width = 16 * 2 ^ x.width ∧ g.nregs = 32 * (x.regs + 1) ∧ g.planes = 2 ^ x.pcnt ∧
    g.clk = clk ∧ g.ftz = false ∧ g.rmode = 0 ∧ g.lease = 16 ∧ g.atick = 32 ∧ g.rgnoff = 0 ∧ g.tcause = 0 ∧ g.taddr = 0 ∧
    g.tlane = 0 ∧ g.toff = 0 ∧ g.flags = 0 ∧ g.mlast = 15 ∧ g.batches = [] ∧ g.results = []

/-! ## What comes back -/

/-- R45, R48, R98, R215, R220: a result whose data has arrived returns: the registers that it still writes take it in the
lanes of its mask, its flags are merged, and nothing else changes; a load returns so once its reads are performed, with
CLK raised to the greatest W among its lanes, and counts as a lease hit when every global lane was one; at ATICK of
them the automatic tick is due. -/
def Obligations.ResultsReturn : Prop :=
  (∀ (s : State) gid k (g : Machine.Group) r, s.groupAt gid = some g → g.results[k]? = some r → s.resultReady gid g r = true →
    ∃ g', Returned g g' r ∧ exec (.resultReturn gid k) s = .next (s.setGroup gid g')) ∧
  (∀ (s : State) seq (g : Machine.Group) r x, s.loads.find? (fun y => decide (y.seq = seq)) = some x → s.groupAt x.gid = some g →
    g.results.find? (fun r => decide (r.seq = seq)) = some r → s.loadReady x = true →
    s.resultReady x.gid g { r with ready := true } = true →
    let u := (s.performLoad g.ctx g.core x).1
    let y := (s.performLoad g.ctx g.core x).2
    let r' := r.fill y
    (y.poison = none ∨ g.writesOf r = false) →
    ∃ g', Returned (g.loadClock y) g' r' ∧
      exec (.loadReturn seq) s =
        .next ({ u with loads := u.loads.filter fun z : Load => decide (z.seq ≠ seq) }.setGroup y.gid g')) ∧
  ∀ (g : Machine.Group) (y : Load), let hit : Prop := y.hit = true ∧ ∃ l ∈ y.lanes, l.place.isGlobal = true
    let g' := g.loadClock y
    g'.clk = max g.clk y.w ∧ (hit → g'.hits = g.hits + 1 ∧ (g'.tickDue = true ↔ g.tickDue = true ∨ g.atick.toNat ≤ g.hits + 1)) ∧
      (¬ hit → g'.hits = g.hits ∧ g'.tickDue = g.tickDue) ∧
      { g' with clk := g.clk, hits := g.hits, tickDue := g.tickDue } = g

/-- R201, R215: what a load reads. A lane of a space without times reads the bytes as they stand; a global lane takes a copy
of the L1 whose lease reaches c, else one of the L2, which the L1 takes too, else it renews the line at its home: L
rises to c + LEASE at least, W and the bytes are those of the line, and the core then holds a copy with that lease, if
the 24 bits of R236 span its times (the base is the model's choice, log 75). What it reads carries the poison of its bytes,
with the unit where they lay (R311): the L1, the L2, or the home's L3 or memory. No memory changes. -/
def Obligations.LoadsReadByTime : Prop :=
  (∀ (s : State) ctx core (x : Load), x.data = [] → x.rest = x.lanes → (x.lanes.map fun l => l.lane).Nodup →
    (∀ l ∈ x.lanes, l.place.isGlobal = false ∧ l.own = []) →
    (s.performLoad ctx core x).1 = s ∧ ∀ l ∈ x.lanes,
      (s.performLoad ctx core x).2.data.at? l.lane = some (fromBytes (s.bytesAt 0 l.place x.size))) ∧
  (∀ (s : State) ctx core c lease (p : Place) n y, findCopy (s.coreAt core).l1 ctx p.sector c = some y →
    s.readCopy ctx core c lease p n =
      (s, { bytes := (y.data.drop (p.offset - p.sector.offset)).take n, w := y.w, hit := true, poison := if y.bad / 2 ^ (p.offset - p.sector.offset) % 2 ^ n ≠ 0 then some 0 else none })) ∧
  (∀ (s : State) ctx core c lease (p : Place) n y, findCopy (s.coreAt core).l1 ctx p.sector c = none →
    findCopy (s.sliceAt (coreSlice core)).l2 ctx p.sector c = some y →
    ∃ u, s.readCopy ctx core c lease p n =
        (u, { bytes := (y.data.drop (p.offset - p.sector.offset)).take n, w := y.w, hit := true, poison := if y.bad / 2 ^ (p.offset - p.sector.offset) % 2 ^ n ≠ 0 then some 1 else none }) ∧
      (y.lc < y.w + 2 ^ 24 → findCopy (u.coreAt core).l1 ctx p.sector c = some y) ∧ { u with cores := s.cores, slices := s.slices } = s) ∧
  ∀ (s : State) ctx core c lease (p : Place) n, p.isGlobal = true → p.offset % 32 + n ≤ 32 →
    findCopy (s.coreAt core).l1 ctx p.sector c = none → findCopy (s.sliceAt (coreSlice core)).l2 ctx p.sector c = none →
    let u := (s.readCopy ctx core c lease p n).1
    let r := (s.readCopy ctx core c lease p n).2
    r.bytes = s.bytesAt (s.keyOf ctx) p n ∧ r.w = (s.lineOf p).w ∧ r.hit = false ∧
      r.poison = (if s.isPoisoned p n then some (s.sourceOf p) else none) ∧
      (u.lineOf p).w = (s.lineOf p).w ∧ (u.lineOf p).l = max (s.lineOf p).l (c + lease) ∧ SameMemory s u ∧
      (max (s.lineOf p).l (c + lease) < (s.lineOf p).w + 2 ^ 24 →
        ∃ y, findCopy (u.coreAt core).l1 ctx p.sector c = some y ∧ y.lc = max (s.lineOf p).l (c + lease))

/-- R201, R218, R219, R357, R381: a store-buffer entry that may be performed is performed at its home as one moment: its bytes
stand in the line, no other byte has changed, W and L are the greater of its clock and L + 1, the entry is gone and its
group has the acknowledgement; an entry of 4,096 clocks begins to drain, a redundant copy's after a compare; a store to a
place without times is performed when it is the oldest of its group and, to register space, no earlier result to those
bytes is outstanding (R35): its bytes stand at the place and no other byte has changed.  An entry that would need a request to
a host which a VF in ERROR bars is dropped, acknowledged, and logged as class 8 with its first byte's address (R357). -/
def Obligations.StoresArrive : Prop :=
  (∀ (s : State) seq e, Canonical s → s.entries.find? (fun f => decide (f.seq = seq) && s.entryReady f) = some e →
    s.homeOwns e.ctx e.line = true → e.line.offset % 128 = 0 → e.line.isGlobal = true → (∀ b ∈ e.bytes, b.1 < 128) →
    (e.bytes.map (·.1)).Nodup →
    let t := max e.clk ((s.lineOf e.line).l + 1)
    let left := s.entries.filter fun f => !(decide (f.seq = e.seq) && decide (f.line = e.line))
    ∃ u : State, exec (.storeBufferDrain seq) s = .next (u.acked e.gid [e.seq] t e.line (byteMask e.bytes)) ∧ u.entries = left ∧
      (u.lineOf e.line).w = t ∧ (u.lineOf e.line).l = t ∧ u.groups = s.groups ∧
      (∀ b ∈ e.bytes, u.byteAt (s.keyOf e.ctx) (e.line.plus b.1) = b.2) ∧
      ∀ q, (∀ b ∈ e.bytes, cellOf q ≠ cellOf (e.line.plus b.1)) → u.byteAt (s.keyOf e.ctx) q = s.byteAt (s.keyOf e.ctx) q) ∧
  (∀ (s : State) seq e m, s.entries.find? (fun f => decide (f.seq = seq) && s.entryReady f) = some e →
    s.homeOwns e.ctx e.line = false → m ≤ 127 → (e.bytes.at? m).isSome = true → (∀ b ∈ e.bytes, m ≤ b.1) →
    exec (.storeBufferDrain seq) s = .next
      ((({ s with entries := s.entries.filter fun f => !(decide (f.seq = e.seq) && decide (f.line = e.line)) } : State).acked e.gid
        [e.seq] 0 e.line 0).error 8 6 e.ctx (BitVec.ofNat 64 (e.va + m)) 0)) ∧
  (∀ (s : State) seq e, (∀ f ∈ s.entries, f.seq = seq → f = e) → e ∈ s.entries → e.seq = seq → e.draining = false → e.held = false →
    e.born + 4096 ≤ (s.coreAt e.core).clock →
    exec (.storeBufferAgeLimit seq) s = .next { s with entries := s.entries.map fun f : Entry =>
      if f.seq = seq then { f with draining := true } else f }) ∧
  (∀ (s : State) seq e, (∀ f ∈ s.entries, f.seq = seq → f = e) → e ∈ s.entries → e.seq = seq → e.held = true →
    e.draining = false ∨ (∃ g, s.groupAt e.gid = some g ∧ g.compareDue = false) → e.born + 4096 ≤ (s.coreAt e.core).clock →
    ∃ u : State, exec (.storeBufferAgeLimit seq) s = .next u ∧
      u.entries = s.entries.map (fun f : Entry => if f.seq = seq then { f with draining := true } else f) ∧
      u.groupAt e.gid = (s.groupAt e.gid).map (fun g => { g with compareDue := true }) ∧
      (∀ k, k ≠ e.gid → u.groupAt k = s.groupAt k) ∧ { u with entries := s.entries, groups := s.groups } = s) ∧
  ∀ (s : State) seq x, s.locals.find? (fun y => decide (y.seq = seq)) = some x →
    (s.localBefore x.gid seq = true ∨ s.registerReady x = false → exec (.scratchStoreArrival seq) s = .next s) ∧
    (s.localBefore x.gid seq = false → s.registerReady x = true → Stored s x.place → Canonical s → ScratchCanonical s →
      ∃ u : State, exec (.scratchStoreArrival seq) s = .next u ∧ u.locals = s.locals.erase x ∧
        (∀ i < x.size, u.byteAt 0 (x.place.plus i) = BitVec.ofNat 8 (x.data / 256 ^ i)) ∧
        (∀ q, (∀ i < x.size, cellOf q ≠ cellOf (x.place.plus i)) → u.byteAt 0 q = s.byteAt 0 q) ∧
        { u with locals := s.locals, groups := s.groups, groves := s.groves, vaultMem := s.vaultMem, poison := s.poison } = s)

/-- R201, R217, R219, R228, R357: an atomic or reduction is performed a lane at a time, in ascending order, each lane indivisible: the
new value stands in memory and no other byte changes, W and L of a global line are the greater of the clock and L + 1, a
place without times has none, and the access keeps the old value; a poisoned old value of a value-returning one is
consumed; a value-returning one then returns the old values and raises CLK.  A lane that would need a request to a host which a VF
in ERROR bars is not performed and is logged as class 8; the old value that it returns is a free value (R357, log 11). -/
def Obligations.AtomicsPerform : Prop :=
  (∀ (s : State) seq (a : Atomic) l rest, s.atoms.find? (fun b => decide (b.seq = seq)) = some a → a.lanes = l :: rest →
    s.atomReady a l = true → s.homeOwns a.ctx l.place = true →
    let old := fromBytes (s.bytesAt (s.keyOf a.ctx) l.place a.size)
    let new := toBytes (a.op.apply a.size old l.v l.v2) a.size
    let t := if l.place.isGlobal then max a.clk ((s.lineOf l.place).l + 1) else 0
    let a' : Atomic := { a with lanes := rest, did := a.did ++ [l], t := max a.t t,
                                old := (a.old.put l.lane old).put (64 + l.lane) (if a.op = .cas ∧ old = l.v then 1 else 0) }
    let w := if l.place.isGlobal then s.writeAtHome a.ctx l.place new t else s.putBytes 0 l.place new
    let u := (w.noteGroup a.gid t l.place).putAtom a' l (laneMask l.place a.size)
    exec (.atomicPerform seq) s = .next (if s.isPoisoned l.place a.size && a.returns then u.consumeError a.gid (s.sourceOf l.place) else u)) ∧
  (∀ (s : State) seq (a : Atomic) l rest, s.atoms.find? (fun b => decide (b.seq = seq)) = some a → a.lanes = l :: rest →
    s.atomReady a l = true → s.homeOwns a.ctx l.place = false →
    let old := (Config.unstated s.draws).toNat % 2 ^ (8 * a.size)
    let a' : Atomic := { a with lanes := rest, did := a.did ++ [l],
                                old := (a.old.put l.lane old).put (64 + l.lane) (if a.op = .cas ∧ old = l.v then 1 else 0) }
    exec (.atomicPerform seq) s =
      .next ((({ s with draws := s.draws + 1 } : State).putAtom a' l 0).error 8 6 a.ctx (BitVec.ofNat 64 l.va) 0)) ∧
  (∀ (s : State) seq (a : Atomic) l rest, s.atoms.find? (fun b => decide (b.seq = seq)) = some a → a.lanes = l :: rest →
    s.atomReady a l = false → l.place.isGlobal = false → exec (.atomicPerform seq) s = .next s) ∧
  (∀ (s : State) ctx (p : Place) bytes t, Canonical s → p.isGlobal = true → p.offset % 128 + bytes.length ≤ 128 →
    let u := s.writeAtHome ctx p bytes t
    (u.lineOf p).w = t ∧ (u.lineOf p).l = t ∧ u.groups = s.groups ∧
      (∀ i < bytes.length, u.byteAt (s.keyOf ctx) (p.plus i) = bytes.getD i 0) ∧
      ∀ q, (∀ i < bytes.length, cellOf q ≠ cellOf (p.plus i)) → u.byteAt (s.keyOf ctx) q = s.byteAt (s.keyOf ctx) q) ∧
  (∀ (s : State) p bytes, Stored s p → Canonical s → ScratchCanonical s →
    let u := s.putBytes 0 p bytes
    (∀ i < bytes.length, u.byteAt 0 (p.plus i) = bytes.getD i 0) ∧
      (∀ q, (∀ i < bytes.length, cellOf q ≠ cellOf (p.plus i)) → u.byteAt 0 q = s.byteAt 0 q) ∧
      { u with groups := s.groups, groves := s.groves, vaultMem := s.vaultMem, poison := s.poison } = s) ∧
  (∀ old v v2, old < 2 ^ 32 → v < 2 ^ 32 → AtomOp.addf.apply 4 old v v2 = (fp32.addc ⟨0, false⟩ old v).1 % 2 ^ 32) ∧
  (∀ size old v v2, (size = 4 ∨ size = 8) → old < 2 ^ (8 * size) → v < 2 ^ (8 * size) → v2 < 2 ^ (8 * size) →
    let m := 2 ^ (8 * size)
    let sg (x : Nat) : Int := if x < m / 2 then x else x - m
    AtomOp.add.apply size old v v2 = (old + v) % m ∧
    (sg (AtomOp.minI.apply size old v v2) = min (sg old) (sg v) ∧ sg (AtomOp.maxI.apply size old v v2) = max (sg old) (sg v)) ∧
    (∀ k, (AtomOp.and.apply size old v v2).testBit k = (old.testBit k && v.testBit k)) ∧
    (∀ k, (AtomOp.or.apply size old v v2).testBit k = (old.testBit k || v.testBit k)) ∧
    (∀ k, (AtomOp.xor.apply size old v v2).testBit k = (old.testBit k ^^ v.testBit k)) ∧
    AtomOp.xchg.apply size old v v2 = v ∧ AtomOp.cas.apply size old v v2 = if old = v then v2 else old) ∧
  (∀ (s : State) seq (a : Atomic) (g : Machine.Group) r, s.atoms.find? (fun b => decide (b.seq = seq)) = some a →
    s.groupAt a.gid = some g → g.results.find? (fun r => decide (r.seq = seq)) = some r → a.returns = true → a.lanes = [] →
    s.resultReady a.gid g { r with ready := true } = true →
    ∃ u g', exec (.atomicReturn seq) s = .next (u.setGroup a.gid (g'.unmark [seq] a.t)) ∧
      Returned { g with clk := max g.clk a.t } g' (r.fillAtom a) ∧ (∀ b ∈ u.atoms, b.seq ≠ seq) ∧ u.groups = s.groups ∧ SameMemory s u) ∧
  ∀ (r : Result) (a : Atomic),
    (∀ p n k, r.dest = .vec p n → k < 64 * n →
      (r.fillAtom a).vals.at? k = (a.old.at? k).map fun v => BitVec.ofNat 32 v) ∧
    ∀ p n, r.dest = .scal p n → (r.fillAtom a).svals = [BitVec.ofNat 64 ((a.old.at? 0).getD 0), BitVec.ofNat 64 ((a.old.at? 64).getD 0)]

/-- R233, R345, R357: a contribution that comes in turn is applied to its target at its home, with those buffered behind it up to the
next index that is missing; one that comes early is buffered, up to 256, and beyond them refused: it waits at its core, and its group
parks while more than 32 wait there; one whose index was applied or is buffered, or that names no open stream, is
dropped and logged as class 6 (that its source is 2 is the model's choice, log 38).  A home that has no right to the target's line
asks for it, and where a VF in ERROR bars that the contribution is dropped and logged as class 8.  An access in flight whose port was
severed 50 ms ago ends, and is logged with its address: the lanes of a load, with poisoned data (that their bytes are zero is the
model's choice, log 18); a store-buffer entry, dropped and acknowledged; a write of a checkpoint slot, dropped; the next lane of an
atomic, with a free value in place of the old one (logs 6, 11); a contribution that is next in its stream (log 94). -/
def Obligations.ContributionsArrive : Prop :=
  (∀ (s : State) seq x st, s.contribs.find? (fun y => decide (y.seq = seq)) = some x → s.streamOf x.ctx x.handle = some st →
    let left := s.contribs.filter fun y => decide (y.seq ≠ x.seq)
    (x.j < st.next ∨ (st.buf.at? x.j).isSome = true →
      exec (.contributionArrival seq) s = .next (({ s with contribs := left } : State).error 6 2 x.ctx 0 (x.handle.setWidth 32))) ∧
    (st.next < x.j → st.buf.at? x.j = none → st.buf.length < 256 → x.seq = seq →
      exec (.contributionArrival seq) s =
        .next (({ s with contribs := left } : State).setStream x.handle { st with buf := st.buf.put x.j (x.data, x.clk, x.gid) })) ∧
    (st.next < x.j → st.buf.at? x.j = none → 256 ≤ st.buf.length → x.seq = seq →
      let n := (s.contribs.filter fun y => decide (y.gid = x.gid) && y.refused).length
      let t : State := { s with contribs := s.contribs.map fun y => if y.seq = x.seq then { y with refused := true } else y }
      (x.refused = true → exec (.contributionArrival seq) s = .next s) ∧
      (x.refused = false → n < 32 → exec (.contributionArrival seq) s = .next t) ∧
      (x.refused = false → 32 ≤ n → exec (.contributionArrival seq) s =
        .next { t with groups := s.groups.alter x.gid fun g => { g with refusedPark := n + 1 } })) ∧
    (x.j = st.next → st.buf.at? x.j = none →
      (s.lateContribution x st = true → exec (.contributionArrival seq) s = .next s) ∧
      (s.lateContribution x st = false → s.homeOwns x.ctx st.target = false →
        (s.blocked x.ctx st.target = false → exec (.contributionArrival seq) s = .next (s.ask x.ctx st.target true)) ∧
        (s.blocked x.ctx st.target = true → exec (.contributionArrival seq) s =
          .next (({ s with contribs := left } : State).error 8 6 x.ctx (BitVec.ofNat 64 st.va) 0))) ∧
      (s.lateContribution x st = false → s.homeOwns x.ctx st.target = true → st.ctx = x.ctx →
        let old : BitVec 32 := BitVec.ofNat 32 (fromBytes (s.bytesAt (s.keyOf st.ctx) st.target 4))
        let new := if st.fp then addfAtMemory old x.data else old + x.data
        let t := max x.clk ((s.lineOf st.target).l + 1)
        let u := (({ s with contribs := left } : State).writeAtHome st.ctx st.target (toBytes new.toNat 4) t).noteGroup x.gid t st.target
        let y : Stream := { st with next := st.next + 1, buf := st.buf.filter fun e => e.1 ≠ st.next }
        let r := State.applyBuffered x.handle st.buf.length (u.setStream x.handle y) y
        exec (.contributionArrival seq) s = .next (r.1.closeIfDone x.handle r.2)))) ∧
  (∀ (s : State) (h : Scalar) (st : Stream), (State.applyBuffered h st.buf.length s st).2.buf.at?
    (State.applyBuffered h st.buf.length s st).2.next = none) ∧
  (∀ (s : State) (h : Scalar) (st : Stream) n,
    (st.buf.at? st.next = none → State.applyBuffered h (n + 1) s st = (s, st)) ∧
    ∀ data clk gid, st.buf.at? st.next = some (data, clk, gid) →
      let old : BitVec 32 := BitVec.ofNat 32 (fromBytes (s.bytesAt (s.keyOf st.ctx) st.target 4))
      let new := if st.fp then addfAtMemory old data else old + data
      let t := max clk ((s.lineOf st.target).l + 1)
      let y : Stream := { st with next := st.next + 1, buf := st.buf.filter fun e => e.1 ≠ st.next }
      State.applyBuffered h (n + 1) s st = State.applyBuffered h n
        (((s.writeAtHome st.ctx st.target (toBytes new.toNat 4) t).noteGroup gid t st.target).setStream h y) y) ∧
  (∀ (s : State) seq x, s.contribs.find? (fun y => decide (y.seq = seq)) = some x → s.streamOf x.ctx x.handle = none →
    exec (.contributionArrival seq) s =
      .next (({ s with contribs := s.contribs.filter fun y => decide (y.seq ≠ x.seq) } : State).error 6 2 x.ctx 0
        (x.handle.setWidth 32))) ∧
  ∀ (s : State) seq,
    let late (x : Load) : Bool := decide (x.seq = seq) && x.rest.any fun l => s.cutLane x l
    let lateEntry (e : Entry) : Bool := decide (e.seq = seq) && s.unanswered e.seq e.line
    let lateSlot (w : SlotWrite) : Bool := decide (w.seq = seq) && s.unanswered w.seq w.place
    let lateAtom (a : Atomic) : Bool := decide (a.seq = seq) && (a.lanes.head?.any fun l => s.unanswered a.seq l.place)
    (∀ x, s.loads.find? late = some x →
      ∃ y : Load, exec (.severanceTimeout seq) s = .next { s with loads := s.loads.map fun z => if z.seq = x.seq then y else z } ∧
        y.poison = (x.poison <|> some 6) ∧ y.rest = x.rest.filter (fun l => !s.cutLane x l) ∧
        (∀ l ∈ x.rest, s.cutLane x l = true → y.data.at? l.lane = some 0) ∧
        (∀ k, (∀ l ∈ x.rest, s.cutLane x l = true → l.lane ≠ k) → y.data.at? k = x.data.at? k) ∧
        { y with data := x.data, rest := x.rest, poison := x.poison, hit := x.hit } = x) ∧
    (∀ e m, s.loads.find? late = none → s.entries.find? lateEntry = some e →
      m ≤ 127 → (e.bytes.at? m).isSome = true → (∀ b ∈ e.bytes, m ≤ b.1) →
      exec (.severanceTimeout seq) s = .next
        ((({ s with entries := s.entries.filter fun f => !(decide (f.seq = e.seq) && decide (f.line = e.line)) } : State).acked e.gid
          [e.seq] 0 e.line 0).error 2 6 e.ctx (BitVec.ofNat 64 (e.va + m)) 0)) ∧
    (∀ w, s.loads.find? late = none → s.entries.find? lateEntry = none → s.slotWrites.find? lateSlot = some w →
      exec (.severanceTimeout seq) s =
        .next (({ s with slotWrites := s.slotWrites.erase w } : State).error 2 6 w.ctx (BitVec.ofNat 64 w.va) 0)) ∧
    (∀ a l rest, s.loads.find? late = none → s.entries.find? lateEntry = none → s.slotWrites.find? lateSlot = none →
      s.atoms.find? lateAtom = some a → a.lanes = l :: rest →
      let old := (Config.unstated s.draws).toNat % 2 ^ (8 * a.size)
      let a' : Atomic := { a with lanes := rest, did := a.did ++ [l],
                                  old := (a.old.put l.lane old).put (64 + l.lane) (if a.op = .cas ∧ old = l.v then 1 else 0) }
      exec (.severanceTimeout seq) s =
        .next ((({ s with draws := s.draws + 1 } : State).putAtom a' l 0).error 2 6 a.ctx (BitVec.ofNat 64 l.va) 0)) ∧
    ∀ x st, s.loads.find? late = none → s.entries.find? lateEntry = none → s.slotWrites.find? lateSlot = none →
      s.atoms.find? lateAtom = none → s.contribs.find? (fun y => decide (y.seq = seq) && (s.lateStream y).isSome) = some x →
      s.streamOf x.ctx x.handle = some st → exec (.severanceTimeout seq) s =
        .next (({ s with contribs := s.contribs.filter fun y => decide (y.seq ≠ x.seq) } : State).error 2 6 x.ctx
          (BitVec.ofNat 64 st.va) 0)

/-- R107 to R110, R160, R220, R223, R244, R250, R252, R253, R365: what comes to a group by itself: the end of its fence's waits
folds its acknowledgements into CLK; the automatic tick raises CLK by 1 and clears the count of hits; the end of a
demotion; the execution of its next matrix instruction, whose result is the product, and which changes no register; the
completion of its oldest batch, as one event, in which the accumulators take the results in order and the flags merge; and
the end of a table walk, which caches a leaf that is judged good (that a walk is an event of its own, and what it is judged
for, is the model's choice, log 66). -/
def Obligations.GroupEvents : Prop :=
  (∀ (s : State) gid (g : Machine.Group), s.groupAt gid = some g → g.wait = .fence → g.results = [] → s.storesLeft gid = false →
    (∀ x ∈ s.locals, x.gid ≠ gid) →
    exec (.fenceComplete gid) s =
      .next (s.setGroup gid { g with clk := g.acks.foldl max g.clk, acks := [], unfolded := [], wait := .fenced })) ∧
  (∀ (s : State) gid (g : Machine.Group), s.groupAt gid = some g → g.tickDue = true →
    exec (.automaticTick gid) s = .next (s.setGroup gid { g with clk := g.clk + 1, hits := 0, tickDue := false })) ∧
  (∀ (s : State) gid (g : Machine.Group) t, s.groupAt gid = some g → g.demoted = some t → t < (s.coreAt g.core).clock →
    exec (.spinDemotionEnd gid) s = .next (s.setGroup gid { g with demoted := none })) ∧
  (∀ (s : State) gid (g : Machine.Group) o, s.groupAt gid = some g → g.matOps.find? (fun o => o.result.isNone) = some o →
    s.localBefore gid o.seq = false → (∀ f ∈ o.foot, s.isPoisoned f.1 f.2 = false) → g.width ≤ 64 →
    ∃ g' t fl, exec (.matrixExecutionStart gid) s = .next (s.setGroup gid g') ∧
      { g' with batches := g.batches, openOps := g.openOps } = g ∧
      g'.matOps = g.matOps.map (fun x => if x.seq = o.seq then { x with result := some (t, fl) } else x) ∧
      ProductOf s gid g (g.matOps.filter fun x => decide (x.seq < o.seq)) o t fl) ∧
  (∀ (g : Machine.Group) p i, g.accumulator [] p i = g.vlane p i ∧ ∀ l (x : MatOp), g.accumulator (l ++ [x]) p i =
    match x.result with
    | some (t, _) => if x.acc ≤ p ∧ p < x.acc + 32 then (t.at? (64 * (p - x.acc) + i)).getD 0 else g.accumulator l p i
    | none => g.accumulator l p i) ∧
  (∀ (s : State) gid (g : Machine.Group) b rest, s.groupAt gid = some g → g.batches = b :: rest →
    (∀ o ∈ b.ops, o.result.isSome = true) → (∀ o ∈ b.ops, ∀ v ∈ o.result, (v.1.map fun e => e.1).Nodup) →
    ∃ g', exec (.batchComplete gid) s = .next (s.setGroup gid g') ∧ g'.batches = rest ∧
      { g' with batches := g.batches, vregs := g.vregs, flags := g.flags } = g ∧
      g'.flags = b.ops.foldl (fun fl o => fl ||| (o.result.map fun v => v.2).getD 0) g.flags ∧
      ∀ q i, i < 64 → g'.vlane q i = b.ops.foldl (fun v o =>
        if o.acc ≤ q then ((o.result.map fun r => r.1).bind fun t => t.at? (64 * (q - o.acc) + i)).getD v else v) (g.vlane q i)) ∧
  ∀ (s : State) core ctx (va : Scalar) l, (s.contexts.at? ctx).isSome = true → s.walk ctx (va.toNat % 2 ^ 48) = .ok l →
    (∀ a, s.judge ctx l (va.toNat % 2 ^ 48) false true = .ok a →
      exec (.tableWalkComplete core ctx va) s = .next (s.setCore core ((s.coreAt core).cacheLeaf ctx l))) ∧
    ∀ e, s.judge ctx l (va.toNat % 2 ^ 48) false true = .error e → exec (.tableWalkComplete core ctx va) s = .next s

/-! ## Channels and links -/

/-- R270, R271, R274, R279, R281 to R284, R345, R357, R382: a channel delivers the next unit of its oldest copy once the copy's marked accesses
are performed: its clock rises to the copy's stamp; the unit ends at the next multiple of 32 of its destination or with
the copy; its bytes are the source's, with the mark of those that are poisoned, which is logged as class 2; WP and the
copy's count grow by its length, and the copy leaves the queue after its last unit, or after its flag; the groups that wait for a threshold which WP has now reached go
on with CC.  A unit of a tensor copy is the same of its dense side, or ends with a row of the patch where rows do not follow one
another: with DIR 0 an element inside the array delivers its bytes from its address, another one zeros, the bytes of the
nearest edge element or FILL; with DIR 1 an element outside is not written; an inside element outside the extent of BASE
is a delivery fault; WP passes over a row's padding with the row's last unit.  The first address
that faults stalls the channel with a notice, or sets FAULT, withdraws the queue, turns away the groups parked on it and
logs class 7, from source 4, the copy engine (with class 9 before it for an ill-formed table entry).  A unit whose home has
no right to a line is in flight until it has; one that a VF in ERROR or a severed port keeps from being performed counts as
delivered and is logged.  A copy that leaves the queue makes room for one that is parked.  Where these clauses go past the
manual's words they are the model's choice: the order of the source lines, the count of a unit that is dropped, and when WP passes over padding (log
16), class 9 before class 7 (log 18), TADDR of the notice (log 19), and which parked copy comes first (log 83). -/
def Obligations.CopyUnitsDelivered : Prop :=
  let takes (s : State) (ch ctx : Nat) (x : Copy) (rest : List Copy) : Prop :=
    let k := s.channelAt ch
    k.queue = x :: rest ∧ (∃ num, k.owner = some (ctx, num)) ∧ k.fault = false ∧ k.stalled = none ∧ k.flight = none ∧ k.cut = [] ∧
      s.held x = false
  let passed (ctx ch : Nat) (k : Channel) (g : Machine.Group) : Machine.Group := match g.wait with
    | .channel j n => if j = ch ∧ g.ctx = ctx ∧ n ≤ k.wp then { g with wait := .reached k.cc } else g
    | _ => g
  let raised (s : State) (ch : Nat) (x : Copy) : Channel := { s.channelAt ch with cc := max (s.channelAt ch).cc x.stamp }
  (∀ (s : State) ch ctx x rest ps pd, Canonical s → takes s ch ctx x rest → x.done < x.len → x.tensor = none →
    let n := min (32 - (x.dst + x.done) % 32) (x.len - x.done)
    (∀ i, i < n → s.reach ctx (ch / 16 / 8) (x.src + x.done + i) false = .at_ (Place.plus ps i)) →
    (∀ i, i < n → s.reach ctx (ch / 16 / 8) (x.dst + x.done + i) true = .at_ (Place.plus pd i)) →
    Place.isGlobal ps = true → Place.isGlobal pd = true →
    (∀ i, i < n → s.homeHas ctx (ps.plus i) = true ∧ s.homeOwns ctx (pd.plus i) = true) →
    ∃ t : State, exec (.copyUnitDelivery ch none) s = .next
        ((match (List.range n).find? (fun i => s.badByte (ps.plus i)) with
          | some i => t.error 2 (s.sourceOf (ps.plus i)) ctx (BitVec.ofNat 64 (x.src + x.done)) 0
          | none => t).acceptParked ch) ∧
      (∀ i, i < n → t.byteAt (s.keyOf ctx) (pd.plus i) = s.byteAt (s.keyOf ctx) (ps.plus i) ∧ t.badByte (pd.plus i) = s.badByte (ps.plus i)) ∧
      (∀ q, (∀ i, i < n → cellOf q ≠ cellOf (pd.plus i)) → t.byteAt (s.keyOf ctx) q = s.byteAt (s.keyOf ctx) q) ∧
      (t.channelAt ch).wp = (s.channelAt ch).wp + BitVec.ofNat 64 n ∧ (t.channelAt ch).owner = (s.channelAt ch).owner ∧
      (t.channelAt ch).sp = (s.channelAt ch).sp ∧ (t.channelAt ch).fault = false ∧ (t.channelAt ch).flight = none ∧
      (t.channelAt ch).queue = (if x.done + n = x.len ∧ x.flag = none then rest else { x with done := x.done + n } :: rest) ∧
      t.groups = s.groups.mapVals (passed ctx ch (t.channelAt ch)) ∧
      (ps.offset % 128 + n ≤ 128 → pd.offset % 128 + n ≤ 128 → ps.lineKey ≠ pd.lineKey →
        let tau := max (max (s.channelAt ch).cc x.stamp) (s.lineOf ps).w
        let w := max tau ((s.lineOf pd).l + 1)
        (t.channelAt ch).cc = w ∧ (t.lineOf pd).w = w ∧ (t.lineOf pd).l = w ∧ (t.lineOf ps).w = (s.lineOf ps).w ∧
          (t.lineOf ps).l = max (s.lineOf ps).l tau)) ∧
  (∀ (x : Copy) bytes dir os, x.tensor = some (bytes, dir, os) →
    let sh := shapeOf bytes
    let o := x.done % sh.pitch
    let u := x.nextUnit
    let n := u.bytes.length
    sh.bad = false → x.len = sh.dense → x.done < x.len → o < sh.row →
    n = min (32 - u.dst % 32) (if dir = false ∧ sh.pitch = sh.row then x.len - x.done else sh.row - o) ∧
    u.gain = (if o + n = sh.row then sh.pitch - o else n) ∧ (dir = false → u.dst = x.dst + x.done) ∧
    ∀ (e : Nat → Nat) k i, (∀ j < 5, e j ≤ axis sh.pat j) → k < sh.esize → i < n → denseOffset sh e + k = x.done + i →
      let q (j : Nat) : Int := os.getD j 0 + (e j : Int)
      (dir = true → u.dst + i = elementAt sh q + k ∧
        ∃ w, u.bytes[i]? = some (.from_ (x.src + x.done + i), w) ∧ (w = true ↔ insideArray sh q)) ∧
      (dir = false → ∃ v, u.bytes[i]? = some (v, true) ∧ (insideArray sh q → v = .from_ (elementAt sh q + k)) ∧
        (¬ insideArray sh q → (sh.edge = 0 → v = .value 0) ∧
          (sh.edge = 1 → v = .from_ (elementAt sh (fun j => max 0 (min (q j) (axis sh.ext j : Int))) + k)) ∧
          (sh.edge = 2 → v = .value (BitVec.ofNat 8 (sh.fill / 256 ^ k)))))) ∧
  (∀ (s : State) ctx die (x : Copy) bytes dir os a i v, x.tensor = some (bytes, dir, os) →
    let base := (shapeOf bytes).base
    a / 2 ^ 48 ≠ base / 2 ^ 48 ∨ (base / 2 ^ 48 = 0xFFF4 ∧ a / 2 ^ 23 ≠ base / 2 ^ 23) →
    (dir = false ∧ (∃ w, x.nextUnit.bytes[i]? = some (.from_ a, w))) ∨
      (dir = true ∧ a = x.nextUnit.dst + i ∧ x.nextUnit.bytes[i]? = some (v, true)) →
    (a, .broken false) ∈ s.unitReach ctx die x x.nextUnit) ∧
  (∀ (s : State) ch ctx x rest bytes dir os (ps : Nat → Place) pd, Canonical s → takes s ch ctx x rest → x.done < x.len →
    x.tensor = some (bytes, dir, os) → Place.isGlobal pd = true →
    let u := x.nextUnit
    (∀ i a w, u.bytes[i]? = some (.from_ a, w) → (dir = false → x.outOfBase a = false) ∧
      s.reach ctx (ch / 16 / 8) a false = .at_ (ps i) ∧ s.homeHas ctx (ps i) = true) →
    (∀ i v, u.bytes[i]? = some (v, true) → (dir = true → x.outOfBase (u.dst + i) = false) ∧
      s.reach ctx (ch / 16 / 8) (u.dst + i) true = .at_ (Place.plus pd i) ∧ s.homeOwns ctx (pd.plus i) = true) →
    ∃ t : State,
      ((∀ i a w, u.bytes[i]? = some (.from_ a, w) → s.badByte (ps i) = false) →
        exec (.copyUnitDelivery ch none) s = .next (t.acceptParked ch)) ∧
      ((∃ i a w, u.bytes[i]? = some (.from_ a, w) ∧ s.badByte (ps i) = true) → ∃ i a w b, u.bytes[i]? = some (.from_ a, w) ∧
        s.badByte (ps i) = true ∧ exec (.copyUnitDelivery ch none) s = .next ((t.error 2 (s.sourceOf (ps i)) ctx b 0).acceptParked ch)) ∧
      (∀ i a, u.bytes[i]? = some (.from_ a, true) →
        t.byteAt (s.keyOf ctx) (pd.plus i) = s.byteAt (s.keyOf ctx) (ps i) ∧ t.badByte (pd.plus i) = s.badByte (ps i)) ∧
      (∀ i b, u.bytes[i]? = some (.value b, true) → t.byteAt (s.keyOf ctx) (pd.plus i) = b ∧ t.badByte (pd.plus i) = false) ∧
      (∀ q, (∀ i v, u.bytes[i]? = some (v, true) → cellOf q ≠ cellOf (pd.plus i)) →
        t.byteAt (s.keyOf ctx) q = s.byteAt (s.keyOf ctx) q) ∧
      (t.channelAt ch).wp = (s.channelAt ch).wp + BitVec.ofNat 64 u.gain ∧
      (t.channelAt ch).queue = (if x.done + u.gain = x.len ∧ x.flag = none then rest else { x with done := x.done + u.gain } :: rest) ∧
      t.groups = s.groups.mapVals (passed ctx ch (t.channelAt ch))) ∧
  (∀ (s : State) ch ctx x rest a d num, takes s ch ctx x rest → (s.channelAt ch).owner = some (ctx, num) → x.done < x.len →
    firstTrouble (s.unitReach ctx (ch / 16 / 8) x x.nextUnit) = some (a, .stall d) →
    let seq := (s.contextAt ctx).nextNotice
    let notice : Notice := { (default : Notice) with
      type := 4, tcause := tcauseWord 7 d, taddr := BitVec.ofNat 64 a, args := [BitVec.ofNat 64 num], channel := some ch }
    exec (.copyUnitDelivery ch none) s = .next
      ((((s.setChannel ch { raised s ch x with stalled := some seq }).raise ctx notice).orphanTrigger ctx).acceptParked ch)) ∧
  (∀ (s : State) ch ctx x rest a b, takes s ch ctx x rest → x.done < x.len →
    firstTrouble (s.unitReach ctx (ch / 16 / 8) x x.nextUnit) = some (a, .broken b) →
    ∃ u : State, exec (.copyUnitDelivery ch none) s =
        .next (((if b then u.error 9 4 ctx (BitVec.ofNat 64 a) 0 else u).error 7 4 ctx (BitVec.ofNat 64 a) 0).acceptParked ch) ∧
      u.channelAt ch = { raised s ch x with fault := true, queue := [], stalled := none, flight := none, cut := [] } ∧
      SameMemory s u ∧ (∀ y ∈ (s.channelAt ch).queue, ∀ l, s.launches.at? y.launch = some l →
        u.launches.at? y.launch = some { l with withdrawn := true }) ∧
      ∀ gid g, s.groupAt gid = some g → u.groupAt gid = some (match g.wait with
        | .room k _ => if k = ch ∧ g.ctx = ctx then { g with wait := .faulted } else g
        | .channel k _ => if k = ch ∧ g.ctx = ctx then { g with wait := .faulted } else g
        | _ => g)) ∧
  (∀ (s : State) ch ctx x rest, takes s ch ctx x rest → x.done < x.len →
    let u := x.nextUnit
    let rs := s.unitReach ctx (ch / 16 / 8) x u
    firstTrouble rs = none →
    (∀ a, s.unitBarred ctx (u.split rs).1 (u.split rs).2 = some a → exec (.copyUnitDelivery ch none) s = .next
      (((s.passWp ch ctx ((raised s ch x).advance (raised s ch x).cc u.gain)).error 8 6 ctx (BitVec.ofNat 64 a) 0).acceptParked ch)) ∧
    (s.unitBarred ctx (u.split rs).1 (u.split rs).2 = none →
      (∃ p ∈ placesAmong (u.split rs).1, s.homeHas ctx p = false) ∨ (∃ p ∈ placesAmong (u.split rs).2, s.homeOwns ctx p = false) →
      ∃ t : State, exec (.copyUnitDelivery ch none) s = .next (t.acceptParked ch) ∧
        t.channelAt ch = { raised s ch x with flight := some rs } ∧ SameMemory s t ∧ t.groups = s.groups ∧ t.lines = s.lines)) ∧
  (∀ (s : State) ctx src dst, s.unitBarred ctx src dst =
    ((src.find? fun e => (placesAmong [e]).any fun p => s.blocked ctx p && !s.homeHas ctx p) <|>
      (dst.find? fun e => (placesAmong [e]).any fun p => s.blocked ctx p && !s.homeOwns ctx p)).map (·.1)) ∧
  (∀ (s : State) ch ctx k, s.passWp ch ctx k = { s.setChannel ch k with groups := s.groups.mapVals (passed ctx ch k) }) ∧
  (∀ (s : State) ch x rest ctx num a, (s.channelAt ch).queue = x :: rest → (s.channelAt ch).owner = some (ctx, num) →
    (s.channelAt ch).fault = false → (s.channelAt ch).stalled = none → s.held x = false → x.done < x.len →
    let rs := (s.channelAt ch).flight.getD (s.unitReach ctx (ch / 16 / 8) x x.nextUnit)
    (∃ l p r, rs = l ++ (a, .at_ p) :: r ∧ (∃ e ∈ (s.channelAt ch).cut, e.line = p.line ∧ s.expired e = true) ∧
      ∀ q ∈ placesAmong l, ∀ e ∈ (s.channelAt ch).cut, e.line = q.line → s.expired e = false) →
    exec (.copyUnitDelivery ch none) s = .next
      (((s.passWp ch ctx ((raised s ch x).advance (raised s ch x).cc x.nextUnit.gain)).error 2 6 ctx (BitVec.ofNat 64 a) 0).acceptParked ch)) ∧
  (∀ (s : State) ch ctx x rest f p, takes s ch ctx x rest → x.done = x.len → x.flag = some f →
    s.reach ctx 0 f true = .at_ p → s.homeOwns ctx p = true →
    let t := max (max (s.channelAt ch).cc x.stamp) ((s.lineOf p).l + 1)
    exec (.copyUnitDelivery ch none) s =
      .next ((((((s.setChannel ch (raised s ch x)).writeAtHome ctx p (toBytes (s.channelAt ch).wp.toNat 8) t).setChannel ch
        { s.channelAt ch with cc := t, queue := rest, flight := none, cut := [] }).noteCopy x.launch t p)).acceptParked ch)) ∧
  (∀ (s : State) ch ctx x rest, takes s ch ctx x rest → x.done = x.len → x.flag = none →
    exec (.copyUnitDelivery ch none) s = .next ((s.setChannel ch { raised s ch x with queue := rest }).acceptParked ch)) ∧
  (∀ (s : State) ch x rest, (s.channelAt ch).queue = x :: rest →
    (s.channelAt ch).fault = true ∨ (s.channelAt ch).stalled.isSome = true ∨ s.held x = true →
    exec (.copyUnitDelivery ch none) s = .next s) ∧
  (∀ (s : State) ch gid g x, (gid, g, x) ∈ s.parkedOn ch ↔ (gid, g) ∈ s.groups ∧ g.wait = .room ch x) ∧
  ∀ (s : State) ch, (64 ≤ (s.channelAt ch).queue.length ∨ s.parkedOn ch = [] → s.acceptParked ch = s) ∧
    ((s.channelAt ch).queue.length < 64 → s.parkedOn ch ≠ [] → ∃ gid g x n, (gid, g, x) ∈ s.parkedOn ch ∧
      let t : State := { s with draws := n }
      let u := t.setChannel ch { s.channelAt ch with
        sp := (s.channelAt ch).sp + BitVec.ofNat 64 x.len,
        queue := (s.channelAt ch).queue ++ [{ x with stamp := max x.stamp g.markAck, holds := g.marked }] }
      (x.flag = none →
        s.acceptParked ch = u.setGroup gid { g with wait := .over, cpyCount := g.cpyCount + 1, cpyDone := g.cpyDone + 1 }) ∧
      (x.flag ≠ none → s.acceptParked ch = (u.setGroup gid { g with wait := .over }).spoilRestart gid))

/-- R239, R345, R359, R360, R361, R362: a link comes up with no replay counted; each replay of a flit is counted up to sixteen;
after sixteen the link goes down, its waiting flits are lost, the channels bound over it fault and class 13 is logged (in
every glade: the model's choice, log 60); a slot of the wheel turns it and carries one flit of the slot's own glade, else,
best-effort, of the next in id order after the last one carried so; a peer's read in an export window returns the bytes at
their homes, a write is performed there as a channel write of the link's agent, each flit counted inward and the answer to a
read outward, and waits where a host has a copy; a request outside every window is refused and logged as class 13.  The key
that a peer's access uses, the line's own and else the glade's, is the model's reading (log 36, DEDUCED). -/
def Obligations.LinkEvents : Prop :=
  (∀ (s : State) l, s.boot.powered = true → l < 12 →
    exec (.linkUp l) s = .next (s.setLink l { s.linkAt l with up := true, replays := 0 })) ∧
  (∀ (s : State) l, (s.linkAt l).up = true →
    exec (.linkLevelReplay l) s = .next (s.setLink l { s.linkAt l with replays := min 16 ((s.linkAt l).replays + 1) })) ∧
  (∀ (s : State) l, (s.linkAt l).up = true → 16 ≤ (s.linkAt l).replays →
    exec (.linkDown l) s =
      .next (((s.boundOver l).foldl (fun (t : State) e => t.channelFault e.1 e.2 false)
        (s.setLink l { s.linkAt l with up := false, flits := [] })).reportWhere (fun _ => true) 13 7 0)) ∧
  (∀ (s : State) l dir, (s.linkAt l).up = true →
    let x := s.linkAt l
    let slot := (x.wheel.at? dir).getD 0
    let own (e : Nat × Glade) : Prop := ((e.2.links.at? (2 * l + dir)).getD 0).getLsbD slot = true
    let waits (e : Nat × Glade) : Prop := e ∈ s.glades ∧ 0 < x.waiting dir e.1
    let last := ((x.lastBest.at? dir).bind fun k => (s.glades.at? k).map fun g => g.id k).getD 0
    ∃ y, exec (.linkWheelSlot l dir) s = .next (s.setLink l y) ∧ (y.wheel.at? dir) = some ((slot + 1) % 64) ∧
      ((∀ e ∈ s.glades, x.waiting dir e.1 = 0) → y = { x with wheel := y.wheel }) ∧
      ((∃ e, waits e) → ∃ e, waits e ∧
        y.waiting dir e.1 = x.waiting dir e.1 - 1 ∧ (∀ k, k ≠ e.1 → y.waiting dir k = x.waiting dir k) ∧ y.replays = 0 ∧
        ((∃ f, waits f ∧ own f) → own e) ∧
        ((∀ f, waits f → ¬ own f) → y.lastBest.at? dir = some e.1 ∧
          ((∃ f, waits f ∧ last < f.2.id f.1) → last < e.2.id e.1 ∧ ∀ f, waits f → last < f.2.id f.1 → e.2.id e.1 ≤ f.2.id f.1) ∧
          ((∀ f, waits f → f.2.id f.1 ≤ last) → ∀ f, waits f → e.2.id e.1 ≤ f.2.id f.1)))) ∧
  (∀ (s : State) l addr n, s.isReady = true → (s.linkAt l).up = true → s.exported l addr n = none →
    exec (.peerRequestArrival l addr none n) s =
      .next (let t := s.reportWhere (fun _ => true) 13 7 (BitVec.ofNat 64 addr)
        t.setLink l { t.linkAt l with answer := .error })) ∧
  (∀ (s : State) l addr (d : List Byte) bad n, s.isReady = true → (s.linkAt l).up = true → s.exported l addr d.length = none →
    exec (.peerRequestArrival l addr (some (d, bad)) n) s =
      .next (s.reportWhere (fun _ => true) 13 7 (BitVec.ofNat 64 addr))) ∧
  (∀ (s : State) l addr n e (w : Window), s.glades = [e] → e.2.exports.at? l = some w → w.lbase ≤ addr → addr + n ≤ w.lbase + w.size →
    s.exported l addr n = some (e.1, w.pbase + (addr - w.lbase))) ∧
  ∀ (s : State) l addr n k pa, s.isReady = true → (s.linkAt l).up = true → s.exported l addr n = some (k, pa) → 0 < n →
    pa % 128 + n ≤ 128 → k < 16 → ∀ sl o, s.dramPlace k pa = .dram sl o →
    let p := Place.dram sl o
    let key := if s.writtenKey sl o = 0 then (s.gladeAt k).key else s.writtenKey sl o
    let cc := ((s.linkAt l).clks.at? k).getD 0
    (s.homeHas noTag p = false → exec (.peerRequestArrival l addr none n) s = .next (s.ask noTag p false)) ∧
    (s.homeHas noTag p = true → ∃ t, exec (.peerRequestArrival l addr none n) s = .next t ∧ SameMemory s t ∧ t.groups = s.groups ∧
      (t.linkAt l).answer = .data (s.bytesAt key p n) (s.isPoisoned p n) ∧
      (t.linkAt l).waiting 1 k = (s.linkAt l).waiting 1 k + 1 ∧ (t.linkAt l).waiting 0 k = (s.linkAt l).waiting 0 k + 1 ∧
      (t.linkAt l).clks.at? k = some (max cc (s.lineOf p).w) ∧ (t.lineOf p).w = (s.lineOf p).w ∧
      (t.lineOf p).l = max (s.lineOf p).l (max cc (s.lineOf p).w)) ∧
    ∀ (d : List Byte) bad, d.length = n →
      (s.homeOwns noTag p = false → exec (.peerRequestArrival l addr (some (d, bad)) n) s = .next (s.ask noTag p true)) ∧
      (s.homeOwns noTag p = true → Canonical s →
        ∃ t, exec (.peerRequestArrival l addr (some (d, bad)) n) s = .next t ∧ t.bytesAt key p n = d ∧ (t.linkAt l).answer = .done ∧
          (∀ i < n, t.badByte (p.plus i) = bad) ∧ (t.linkAt l).waiting 1 k = (s.linkAt l).waiting 1 k + 1 ∧
          (t.linkAt l).clks.at? k = some (max cc ((s.lineOf p).l + 1)) ∧ (t.lineOf p).w = max cc ((s.lineOf p).l + 1) ∧
          (t.lineOf p).l = max cc ((s.lineOf p).l + 1) ∧ t.groups = s.groups)

/-! ## Launches -/

/-- R147 to R150, R155 to R157, R224, R366: the dispatcher takes the oldest slot that waits, of the context that the page is bound
to, or of one that has lost its guardian since the page wrote it, answers in its CTRL byte and, if it accepts the record,
appends a launch to its queue, or starts a graph; the first unit of a context is placed when it may start and has room: its
launch has begun, and every grove placed stands on its spot with zero scratch and all its groups at their start; a launch
whose groves have all exited and whose effects are performed writes back the host-backed lines that it wrote, stores
DONEVAL, if it has a flag, once its home can take it, and leaves its queue.  That a malformed record is logged with source 5 is the model's choice (log 21), and so are a
graph that is at its first node at once (log 22) and the times that a launch starts and ends with (log 25). -/
def Obligations.LaunchEvents : Prop :=
  (∀ (s : State) vf page slot ctx,
    ((s.pageAt vf page).bound = some ctx → (s.contextAt ctx).submits.head? = some slot → s.submitter vf page slot = some ctx) ∧
    ∀ x, (s.pageAt vf page).bound = none → s.contexts = [(ctx, x)] → x.writer = some (vf, page) → x.submits.head? = some slot →
      s.submitter vf page slot = some ctx) ∧
  (∀ (s : State) vf page slot ctx rest, s.submitter vf page slot = some ctx → (s.contextAt ctx).submits = slot :: rest → slot < 32 →
    let x := s.contextAt ctx
    let r := x.window.readN (128 * slot) 128
    let status := s.recordStatus ctx r
    let u := s.setContext ctx { x with submits := rest, window := x.window.write (128 * slot + 127) (BitVec.ofNat 8 status) }
    (status ≠ 0x01 → exec (.launchSubmit vf page slot) s =
      .next (if status = 0x03 then u.error 5 5 ctx 0 0 else u)) ∧
    (status = 0x01 → (recordFrom r).kind = 0 →
      ∃ t, exec (.launchSubmit vf page slot) s = .next t ∧
        (t.contextAt ctx).queue (recordFrom r).queue = x.queue (recordFrom r).queue ++ [s.nextId] ∧
        (∀ q, q ≠ (recordFrom r).queue → (t.contextAt ctx).queue q = x.queue q) ∧
        (t.contextAt ctx).nextLid = (if x.nextLid = 2 ^ 32 - 1 then 1 else x.nextLid + 1) ∧ (t.contextAt ctx).submits = rest ∧
        (t.launchAt s.nextId).lid = (t.contextAt ctx).nextLid ∧ (t.launchAt s.nextId).rcd = recordFrom r ∧
        (t.launchAt s.nextId).ctx = ctx ∧ (t.launchAt s.nextId).clk = 0 ∧ (t.launchAt s.nextId).started = false ∧
        t.groups = s.groups ∧ SameMemory s t) ∧
    (status = 0x01 → (recordFrom r).kind = 1 →
      ∃ t, exec (.launchSubmit vf page slot) s = .next t ∧ t.launches = s.launches ∧ t.groups = s.groups ∧
        ∃ g, t.graphs.at? s.nextId = some g ∧ g.rcd = recordFrom r ∧ g.ctx = ctx ∧ g.node = 0 ∧ g.submitted = [] ∧ g.clk = 0)) ∧
  (∀ (s t : State) ctx q lk u ps, s.mayPlace ctx = true → s.firstUnit ctx = some (q, lk) → s.takeTurn ctx = some t →
    let l := t.launchAt lk
    t.placings (t.needs ctx l.rcd) l.rcd (t.allotment ctx) l.rcd.unitCount l.next (t.usage ctx) = some (u, ps) →
    ∃ v, exec (.unitPlacement ctx) s = .next v ∧ (v.launchAt lk).started = true ∧
      (v.launchAt lk).next = l.next + l.rcd.unitCount * (l.rcd.copse + 1) ∧
      ∀ e ∈ ps, ∃ k, (v.groveAt k).launch = lk ∧ (v.groveAt k).copy = e.1 ∧ (v.groveAt k).grx = e.2.1 ∧
        (v.groveAt k).core = e.2.2.1 ∧ (v.groveAt k).upper = e.2.2.2 ∧ (v.groveAt k).scratch = [] ∧
        (v.groveAt k).placed = true ∧ (v.groveAt k).alive = l.rcd.groups + 1 ∧
        (e.2.2.2 = none → ∀ i, i ≤ l.rcd.groups → ∃ id slot,
          v.groupAt id = some (newGroup l.ctx lk k i e.2.1 e.2.2.1 slot l.rcd (v.launchAt lk).clk)) ∧
        ∀ up low, e.2.2.2 = some (up, low) → low ≤ l.rcd.groups + 1 → ∀ i, i ≤ l.rcd.groups → ∃ id slot,
          v.groupAt id = some (newGroup l.ctx lk k i e.2.1 (if i < low then e.2.2.1 else up) slot l.rcd (v.launchAt lk).clk)) ∧
  (∀ (s : State) k l, s.launches.at? k = some l → l.complete = false → l.rcd.groves < l.next → l.alive = 0 →
    s.effectsLeft k l = false →
    (l.rcd.done = 0 ∨ l.withdrawn = true → exec (.launchComplete k) s = .next ((s.writeBack l.hostWrote).retire l.ctx k)) ∧
    ∀ p, l.rcd.done ≠ 0 → l.withdrawn = false → s.flightOf k l.rcd.done = none →
      s.translateAt l.ctx l.rcd.done true true = .ok (.place p) → s.blocked l.ctx p = false →
      (s.homeOwns l.ctx p = false → exec (.launchComplete k) s = .next
        ((s.writeBack l.hostWrote).takeOff l.ctx k l.rcd.done [(p, 0, 4)] (some (toBytes l.rcd.doneval.toNat 4)))) ∧
      (s.homeOwns l.ctx p = true → p.isGlobal = true →
      let w := max l.last ((s.lineOf p).l + 1)
      let u := (s.writeBack l.hostWrote).writeAtHome l.ctx p (toBytes l.rcd.doneval.toNat 4) w
      exec (.launchComplete k) s =
        .next (((if p.isHost then u.setLine p { u.lineOf p with dirty := false } else u).noteEffect k w).retire l.ctx k))) ∧
  (∀ (s : State) (ps : List Place), { s.writeBack ps with lines := s.lines } = s ∧ ∀ k x, s.lines.at? k = some x →
    ∃ y, (s.writeBack ps).lines.at? k = some y ∧ { y with dirty := x.dirty } = x ∧
      y.dirty = (x.dirty && !ps.any fun p => decide (p.lineKey = some k))) ∧
  ∀ (s : State) ctx k l, s.launches.at? k = some l → (s.contexts.at? ctx).isSome = true → s.hasWork ctx = true →
    (∃ e ∈ s.launches, e.1 ≠ k ∧ e.2.ctx = ctx ∧ e.2.complete = false) →
    let t := s.retire ctx k
    (t.launchAt k).complete = true ∧ (∀ q, k ∉ (t.contextAt ctx).queue q) ∧ t.groups = s.groups ∧ SameMemory s t

/-- R156, R158, R159, R225, R285, R317: a graph's walker reads its node's entry as it reaches it, once: a launch node's record is read and
checked then too, and appended to the graph's queue once there is room; a conditional or while node, once every launch
submitted is complete, goes to NEXT if the dword at ADDR is not zero, but no more than LIMIT times for a while node, and
else to ALT; an end node, then, stores DONEVAL after the lines that its launches wrote are written back, and ends the graph;
an ill-formed node is a graph fault of class 5, after which the graph ends once its launches are complete; the launches that
come after a condition word start no earlier than its W (R225).  Which unused fields make a node ill-formed, and that a fault
or poison of the walker's own reads is a graph fault (log 84), that a graph fault is logged with source 5 (logs 22, 38) and that
an end node stores DONEVAL whatever became of its launches' copies (log 87), are the model's choices. -/
def Obligations.GraphWalker : Prop :=
  (∀ (n : Node) size, n.type < 4 → (n.bad size = false ↔
    n.reserved = 0 ∧ n.addr < 2 ^ 48 ∧ (n.type ≠ 3 → n.limit = 0) ∧ (n.type = 0 → n.addr = 0) ∧
    (n.type = 1 → n.addr % 128 = 0 ∧ n.next < size) ∧ (2 ≤ n.type → n.addr % 4 = 0 ∧ n.next < size ∧ n.alt < size))) ∧
  ∀ (s : State) k g, s.graphs.at? k = some g → (s.contextAt g.ctx).cfg.root ≠ 0 → (s.contextAt g.ctx).state ≠ .suspended →
    let put (g : Graph) : State := { s.land k with graphs := s.graphs.put k g }
    let addr := g.rcd.entry + 16 * g.node
    let fault (a : Nat) : State := (put { g with failed := true }).error 5 5 g.ctx (BitVec.ofNat 64 a) 0
    let start : State := if g.entry = none then s.land k else s
    (g.failed = true → s.graphIdle g = true → exec (.graphWalkerStep k) s = .next (s.endGraph k g.ctx)) ∧
    (g.failed = false → g.entry = none →
      (∀ a code d, s.fetchFor g.ctx k addr 16 = .fault a code d → exec (.graphWalkerStep k) s =
        .next (((put { g with failed := true }).logIllFormed g.ctx (BitVec.ofNat 64 a) code d).error 5 5 g.ctx (BitVec.ofNat 64 addr) 0)) ∧
      (∀ t, s.fetchFor g.ctx k addr 16 = .waits t → exec (.graphWalkerStep k) s = .next t) ∧
      ∀ r q w, s.fetchFor g.ctx k addr 16 = .got r (some q) w → exec (.graphWalkerStep k) s = .next (fault addr)) ∧
    ∀ r, g.failed = false → g.entry = some r ∨ (g.entry = none ∧ ∃ w, s.fetchFor g.ctx k addr 16 = .got r none w) →
      let n := nodeOf r
      (n.bad (g.rcd.groves + 1) = true → exec (.graphWalkerStep k) s = .next (fault addr)) ∧
      (n.bad (g.rcd.groves + 1) = false →
        (n.type ≠ 1 → s.graphIdle g = false →
          exec (.graphWalkerStep k) s = .next { start with graphs := s.graphs.put k { g with entry := some r } }) ∧
        (n.type = 0 → s.graphIdle g = true →
          let back := start.writeBack (g.submitted.flatMap fun l => (s.launchAt l).hostWrote)
          (g.rcd.done = 0 → exec (.graphWalkerStep k) s = .next (back.endGraph k g.ctx)) ∧
          ∀ p, g.rcd.done ≠ 0 → s.flightOf k g.rcd.done = none → s.translateAt g.ctx g.rcd.done true true = .ok (.place p) →
            s.blocked g.ctx p = false → s.homeOwns g.ctx p = true → p.isGlobal = true →
            let w := max s.doneTimes ((s.lineOf p).l + 1)
            let u := back.writeAtHome g.ctx p (toBytes g.rcd.doneval.toNat 4) w
            exec (.graphWalkerStep k) s = .next ((g.submitted.foldl (fun (t : State) l => t.noteEffect l w)
              (if p.isHost then u.setLine p { u.lineOf p with dirty := false } else u)).endGraph k g.ctx)) ∧
        (∀ b, n.type = 1 →
          g.snap = some b ∨ (g.snap = none ∧ (∃ w, start.fetchFor g.ctx k n.addr 128 = .got b none w) ∧
            malformed b = false ∧ start.unplaceable g.ctx (recordFrom b) = false ∧ (recordFrom b).kind = 0) →
          (64 ≤ ((s.contextAt g.ctx).queue g.rcd.queue).length →
            exec (.graphWalkerStep k) s = .next (put { g with entry := some r, snap := some b })) ∧
          (((s.contextAt g.ctx).queue g.rcd.queue).length < 64 →
            ∃ t, exec (.graphWalkerStep k) s = .next t ∧
              (t.contextAt g.ctx).queue g.rcd.queue = (s.contextAt g.ctx).queue g.rcd.queue ++ [s.nextId] ∧
              (t.launchAt s.nextId).rcd = recordFrom b ∧ (t.launchAt s.nextId).graph = some k ∧ (t.launchAt s.nextId).clk = g.clk ∧
              t.graphs.at? k = some { g with node := n.next, submitted := s.nextId :: g.submitted, entry := none, snap := none } ∧
              t.groups = s.groups)) ∧
        (∀ b w, n.type = 1 → g.snap = none → start.fetchFor g.ctx k n.addr 128 = .got b none w →
          malformed b = true ∨ start.unplaceable g.ctx (recordFrom b) = true ∨ (recordFrom b).kind ≠ 0 →
          ∃ g' : Graph, { g' with entry := g.entry } = g ∧ exec (.graphWalkerStep k) s =
            .next ((put { g' with failed := true }).error 5 5 g.ctx (BitVec.ofNat 64 n.addr) 0)) ∧
        (∀ t, (n.type = 1 ∧ g.snap = none ∧ start.fetchFor g.ctx k n.addr 128 = .waits t) ∨
            ((n.type = 2 ∨ n.type = 3) ∧ s.graphIdle g = true ∧ start.fetchFor g.ctx k n.addr 4 = .waits t) →
          exec (.graphWalkerStep k) s = .next { t with graphs := t.graphs.put k { g with entry := some r } }) ∧
        ∀ b w, n.type = 2 ∨ n.type = 3 → s.graphIdle g = true → start.fetchFor g.ctx k n.addr 4 = .got b none w →
          let seen := (g.counts.at? g.node).getD 0
          ∃ g' : Graph, exec (.graphWalkerStep k) s = .next (put g') ∧
            { g' with node := g.node, counts := g.counts, entry := g.entry, clk := g.clk } = g ∧ g'.entry = none ∧
            g'.clk = max g.clk w ∧
            (fromBytes b = 0 ∨ (n.type = 3 ∧ n.limit ≠ 0 ∧ seen = n.limit) → g'.node = n.alt) ∧
            (fromBytes b ≠ 0 → n.type = 2 ∨ n.limit = 0 ∨ seen ≠ n.limit → g'.node = n.next) ∧
            (n.type = 2 → g'.counts = g.counts) ∧
            (n.type = 3 → (g'.counts.at? g.node).getD 0 = if fromBytes b = 0 ∨ (n.limit ≠ 0 ∧ seen = n.limit) then 0 else seen + 1))

/-! ## Time slices, preemption, restarts and compares -/

/-- R165, R237, R256, R296, R300, R301, R303, R304, R309, R326, R327, R340: the end of a turn brings the cores' clocks back and evicts
the context if another has a launch for the cores, unless it has been given core pairs of its own; a preemption discards every group but handlers and those without a
restart point; a discard drops results, matrix work, loads and held entries, acknowledges its performed atomics to the group and to the copies that
they hold (R277), and writes the counts, and DCLK once every
acknowledgement has come, into the slot; a discarded group restarts once its writes are performed, at its start or from its
slot, where it skips the copies and reductions that it had made (R275, R299); 2^20 clocks of waiting hold a watchdog trap for a group without a restart point and stop a handler; an eviction starts
one group for each grove, a restore places every grove again and starts one for each; the rebase lowers every clock by 2^46
and raises EPOCH; compares that match release.  These clauses rest on choices of the model as well: the turn and its start
(log 26), the step that a core's clock returns to (log 27), which groups the low-water mark counts (log 90), and at a restart STATE, a
watchdog trap that is held, TADDR and a count of lease hits of 0 (log 67). -/
def Obligations.SchedulingEvents : Prop :=
  (∀ (s : State) k g ctx x, s.glades.at? k = some g → g.turn = some ctx → s.contexts.at? ctx = some x → x.evicted = false →
    x.evicting = false → g.turnFrom + g.slicems * 1000000 ≤ s.time →
    (s.timeSliced ctx = false → exec (.timeSliceEnd k) s = .next s) ∧
    (s.timeSliced ctx = true → ∃ u : State, { u with cores := s.cores, glades := s.glades } = s ∧
      u.glades.at? k = some { g with turnFrom := s.time } ∧
      (∀ p ∈ s.allotment ctx, (u.coreAt (2 * p)).step = 40 ∧ (u.coreAt (2 * p + 1)).step = 40) ∧
      ((∃ c ∈ u.contextsOf k, c ≠ ctx ∧ u.timeSliced c = true ∧ u.hasLaunch c = true) →
        exec (.timeSliceEnd k) s = .next (u.startEviction ctx)) ∧
      ((∀ c ∈ u.contextsOf k, c ≠ ctx → u.timeSliced c = true → u.hasLaunch c = false) → exec (.timeSliceEnd k) s = .next u))) ∧
  (∀ (s : State) ctx, (s.hasLaunch ctx = true ↔ (s.contextAt ctx).cfg.root ≠ 0 ∧ (s.contextAt ctx).state ≠ .suspended ∧
    ((s.firstUnit ctx).isSome = true ∨
      ((s.contextAt ctx).evicted = true ∧ ∃ e ∈ s.launches, e.2.ctx = ctx ∧ e.2.complete = false)))) ∧
  (∀ (s : State) ctx x, s.contexts.at? ctx = some x → x.evicting = true ∨ x.state = .suspended →
    exec (.preemption ctx) s = .next ((s.groupsOf ctx).foldl State.preemptGroup s)) ∧
  (∀ (s : State) gid (g : Machine.Group), s.groupAt gid = some g → g.role = .kernel → g.wait ≠ .discarded → g.wait ≠ .stopped →
    ((∀ n, g.wait ≠ .svc n ∧ ((s.contextAt g.ctx).state = .suspended → g.wait ≠ .guardian n)) → g.mode = .steward ∨ g.rstate = 2 → g.evictSince = none →
      s.preemptGroup gid = s.setGroup gid { g with evictSince := some (s.coreAt g.core).clock }) ∧
    ((∃ n, g.wait = .svc n ∨ ((s.contextAt g.ctx).state = .suspended ∧ g.wait = .guardian n)) ∨
      (g.mode = .user ∧ g.rstate ≠ 2) → s.preemptGroup gid = s.discard gid)) ∧
  (∀ (s : State) gid (g : Machine.Group), s.groupAt gid = some g →
    let gone := s.atoms.filter fun a : Atomic => decide (a.gid = gid) && decide (a.lanes = [])
    ∃ (u : State) (g' : Machine.Group), u.groupAt gid = some g' ∧ g'.wait = .discarded ∧ g'.results = [] ∧ g'.batches = [] ∧
      g'.openOps = [] ∧ g'.held = none ∧ g'.occ = none ∧ g'.mode = .user ∧ g'.acks = gone.map (fun a => a.t) ++ g.acks ∧
      g'.clk = g.clk ∧ g'.mlast = g.mlast ∧ g'.cpyDone = g.cpyDone ∧
      u.loads = s.loads.filter (fun x => decide (x.gid ≠ gid)) ∧ u.entries = s.entries.filter (fun e => !(decide (e.gid = gid) && e.held)) ∧
      u.flights = s.flights.filter (fun f => decide (f.who ≠ gid)) ∧ (∀ q, q ∈ g'.marked ↔ q ∈ g.marked ∧ ∀ a ∈ gone, a.seq ≠ q) ∧
      u.channels = (gone.foldl (fun (t : State) a => t.raiseStamps [a.seq] a.t) s).channels ∧
      u.locals = s.locals ∧ SameMemory s u ∧ (∀ a ∈ u.atoms, a.gid = gid → a.returns = false ∧ a.lanes ≠ []) ∧
      s.discard gid = if s.slotOf g = 0 then u
        else ((u.slotWrite gid g' 0x25 (toBytes g.mlast.toNat 1)).slotWrite gid g' 0x28
          (toBytes g.cpyDone 4 ++ toBytes (max g.gredCount g.gredSkip) 4)).settle gid) ∧
  (∀ (s : State) gid (g : Machine.Group), s.groupAt gid = some g → g.wait = .discarded →
    (s.storesLeft gid = true → s.settle gid = s) ∧
    (s.storesLeft gid = false → s.slotOf g ≠ 0 →
      s.settle gid = s.slotWrite gid g 0x30 (toBytes (g.acks.foldl max g.clk) 8 ++ toBytes s.epoch 4))) ∧
  (∀ (s : State) gid (g : Machine.Group), s.groupAt gid = some g → g.wait = .discarded →
    let may : Prop := (s.contextAt g.ctx).evicted = false ∧ (s.contextAt g.ctx).evicting = false ∧
      (s.contextAt g.ctx).state ≠ .suspended ∧ (s.groveAt g.grove).placed = true
    (s.storesLeft gid = true ∨ (∃ x ∈ s.locals, x.gid = gid) ∨ (∃ w ∈ s.slotWrites, w.gid = gid) ∨
      s.writesWhere g.ctx s.notKernel = true → exec (.groupRestart gid) s = .next s) ∧
    (s.storesLeft gid = false → (∀ x ∈ s.locals, x.gid ≠ gid) → (∀ w ∈ s.slotWrites, w.gid ≠ gid) →
      s.writesWhere g.ctx s.notKernel = false → (∀ f ∈ s.flights, f.who ≠ gid) → may →
      (g.based = false →
        ∃ g', exec (.groupRestart gid) s = .next (s.setGroup gid g') ∧ g'.off = 0 ∧ g'.wait = .none ∧ g'.mode = .user ∧ g'.vregs = [] ∧
          g'.winb = 0 ∧ g'.stack = [] ∧ g'.cm = 0 ∧ g'.pl = [] ∧ g'.flags = 0 ∧ g'.clk = g.acks.foldl max g.clk ∧ g'.mlast = g.mlast ∧
          g'.acks = [] ∧ g'.cpyCount = 0 ∧ g'.cpySkip = g.cpyDone ∧ g'.gredCount = 0 ∧ g'.gredSkip = max g.gredCount g.gredSkip ∧
          g'.scalar 0 = BitVec.ofNat 64 (s.launchAt g.launch).rcd.param ∧ ∀ k, k ≠ 0 → g'.scalar k = 0) ∧
      (∀ ps qs, g.based = true → 0 < g.width → g.width ≤ 64 → s.placesOf g.ctx (s.slotOf g) 0x400 false = .ok ps →
        s.placesReady g.ctx ps false = true →
        let h := (s.readPlaces g.ctx ps).1
        let first := fieldOf h 0x23 1
        let last := fieldOf h 0x24 1
        s.placesOf g.ctx (s.slotOf g + 0x400 + first * g.width * 4) (if first ≤ last then (last + 1 - first) * g.width * 4 else 0) false =
          .ok qs → s.placesReady g.ctx qs false = true →
        let regs := (s.readPlaces g.ctx qs).1
        let saved (o e : Nat) : Nat := if fieldOf h e 4 = s.epoch then fieldOf h o 6 else s.lowWater
        let winb := fieldOf h 0x20 2
        let poison := (s.readPlaces g.ctx ps).2 <|> (s.readPlaces g.ctx qs).2
        (∀ source, poison = some source → exec (.groupRestart gid) s = .next
          (s.errorAtLeast 3 1 source g.ctx (BitVec.ofNat 64 (s.slotOf g)) 0)) ∧
        (poison = none → ∃ g', exec (.groupRestart gid) s = .next (s.setGroup gid g') ∧
          g'.off = fieldOf h 0x1C 4 % 2 ^ 20 ∧ g'.wait = .none ∧ g'.mode = .user ∧ g'.winb = winb ∧
          g'.clk = max (saved 0x10 0x18) (saved 0x30 0x38) ∧ g'.acks = [] ∧ g'.rstate = fieldOf h 0x27 1 ∧ g'.results = [] ∧
          (∀ j < 64, g'.xm.getLsbD j = (decide (j < g.width) && (fieldOf h 0 8).testBit j) ∧
            g'.cm.getLsbD j = (decide (j < g.width) && (fieldOf h 8 8).testBit j)) ∧
          (∀ k < 24, g'.scalar k = BitVec.ofNat 64 (fieldOf h (0x100 + 8 * k) 8)) ∧
          (∀ m < regs.length / 4, g'.vlane (winb + first + m / g.width) (m % g.width) = BitVec.ofNat 32 (fieldOf regs (4 * m) 4)) ∧
          (∀ q i, i < 64 → (∀ m < regs.length / 4, (winb + first + m / g.width, m % g.width) ≠ (q, i)) → g'.vlane q i = 0) ∧
          (∀ i < g.width, g'.planeOf i = fieldOf h 0xC0 16 / 4 ^ i % 4) ∧ g'.stack.length = fieldOf h 0x22 1 ∧
          (∀ k, g'.issued k = if k < 22 then BitVec.ofNat 32 (fieldOf h (0x1C0 + 4 * k) 4) else 0) ∧
          g'.flags = BitVec.ofNat 5 (fieldOf h 0x50 1) ∧ g'.mlast = BitVec.ofNat 4 (fieldOf h 0x25 1) ∧
          g'.lease = BitVec.ofNat 8 (fieldOf h 0x48 1) ∧ g'.atick = BitVec.ofNat 8 (fieldOf h 0x49 1) ∧ g'.hits = 0 ∧
          g'.cpySkip = fieldOf h 0x28 4 ∧ g'.gredSkip = fieldOf h 0x2C 4 ∧ g'.cpyCount = 0 ∧ g'.gredCount = 0 ∧
          g'.wdog = fieldOf h 0x26 1 ∧ g'.heldTrap = if g.errorRestart = true ∧ 8 ≤ g'.wdog then some 1 else none)))) ∧
  (∀ (s : State) gid (g : Machine.Group) t, s.groupAt gid = some g → g.evictSince = some t → t + 2 ^ 20 ≤ (s.coreAt g.core).clock →
    (g.rstate = 2 → g.mode = .user → g.heldTrap = none →
      exec (.regionWatchdog gid) s = .next (s.setGroup gid { g with evictSince := some (t + 2 ^ 20), heldTrap := some 2 })) ∧
    (g.mode = .steward → g.wait ≠ .stopped → g.entered + 2 ^ 20 ≤ (s.coreAt g.core).clock →
      exec (.stewardWaitTimeout gid) s = .next (s.stewardFault gid
        { g with tcause := 0x30E, taddr := BitVec.ofNat 64 ((s.recordOf g).entry + g.rgnoff.toNat * 4), tlane := 0,
                 toff := BitVec.ofNat 20 g.off, tdone := g.doneP, tplane := 0, tocc := g.occ.getD 0 } 14))) ∧
  (∀ (s : State) ctx x, s.contexts.at? ctx = some x → x.evicting = true → s.serving ctx = false → s.allDiscarded ctx = true →
    s.writesLeft ctx = false →
    exec (.evictionGroupStart ctx) s = .next (if s.grovesOf ctx = [] then s.finishEviction ctx
      else (s.grovesOf ctx).foldl (fun t k => t.startServing .evict 64 (x.sealctr + 1) k) s)) ∧
  (∀ (s : State) ctx x, s.contexts.at? ctx = some x → s.writesLeft ctx = true →
    exec (.evictionGroupStart ctx) s = .next s ∧ exec (.restorePlacement ctx) s = .next s) ∧
  (∀ (s t : State) ctx x l, s.contexts.at? ctx = some x → x.evicted = true → x.evicting = false → s.serving ctx = false →
    s.writesLeft ctx = false → s.restoreTurn ctx = some t → t.respots ctx (t.regroved ctx) (0, 0, []) (t.usage ctx) = some l →
    let u := l.foldl State.replaceGrove t
    exec (.restorePlacement ctx) s = .next (if u.grovesOf ctx = [] then u.finishRestore ctx
      else (u.grovesOf ctx).foldl (fun t k => t.startServing .restore 128 x.sealctr k) u)) ∧
  (∀ (s : State) role off n k, let v := s.groveAt k
    ∃ g : Machine.Group, (s.startServing role off n k).groupAt s.nextId = some g ∧ g.role = role ∧ g.mode = .steward ∧ g.off = off ∧
      g.core = v.core ∧ g.clk = s.highWater ∧ g.scalar 0 = BitVec.ofNat 64 v.grx ∧
      g.scalar 1 = BitVec.ofNat 64 ((s.launchAt v.launch).rcd.groups + 1) ∧
      g.scalar 2 = BitVec.ofNat 64 ((s.launchAt v.launch).rcd.scratch * 256) ∧ g.scalar 3 = BitVec.ofNat 64 n ∧
      g.scalar 4 = BitVec.ofNat 64 v.copy ∧ g.scalar 5 = (if v.alive = 0 then 1 else 0)) ∧
  (∀ (s : State), 2 ^ 47 ≤ s.highWater → s.inFlight = false → ∃ t, exec .rebase s = .next t ∧ t.epoch = (s.epoch + 1) % 2 ^ 32 ∧
    (∀ k g, s.groupAt k = some g → ∃ g', t.groupAt k = some g' ∧ g'.clk = g.clk - 2 ^ 46 ∧ g'.vregs = g.vregs ∧ g'.sregs = g.sregs) ∧
    (∀ k x, s.lines.at? k = some x → ∃ y, t.lines.at? k = some y ∧ y.w = x.w - 2 ^ 46 ∧ y.l = x.l - 2 ^ 46) ∧
    (∀ k, (t.channelAt k).cc = (s.channelAt k).cc - 2 ^ 46) ∧ (∀ k, (t.sliceAt k).floor = (s.sliceAt k).floor - 2 ^ 46) ∧
    (∀ e ∈ t.cores, e.2.l1 = []) ∧ (∀ e ∈ t.slices, e.2.l2 = []) ∧ SameMemory s t) ∧
  ∀ (s : State) gid (g : Machine.Group), s.groupAt gid = some g → s.redundant g = true → g.wait = .compare →
    (s.compareWith g = some false → exec (.signatureCompare gid) s = .next (s.mismatch gid g)) ∧
    (s.compareWith g = some true → ∃ t g', exec (.signatureCompare gid) s = .next t ∧ t.groupAt gid = some g' ∧
      g' = { g with compareDue := false, wait := .compared } ∧ (∀ e ∈ t.entries, e.gid = gid → e.held = false) ∧ SameMemory s t)
/-! ## Hosts -/

/-- R239 to R242, R345, R363, R374: an access of a host to device memory through a bound page, within its glade's memory and of no
other owner's, is performed at the homes: a write at L + 1 of its line, a read of the bytes as they stand, which sets the
port's presence bit if the host caches them, and which returns poison and logs class 2, with its source, the L3 or DRAM, where a
byte of their line is poisoned;
any other one is logged as class 8, a write discarded, a read aborted.  The answer to a back-invalidation that the home has
asked for brings dirty data, if any, as a host write; after BISnpInv the bit is clear, after BISnpData the host keeps a
shared copy; an answer that nothing asked for changes nothing.  An eviction report clears the bit.  Outside READY these do nothing.  A conflict puts off the
back-invalidation until the host's own request for the line has been performed, and is then over.  A snoop of a host-backed
line is answered with its data where a home's L3 holds it: SNPINV ends the tracking, the others leave it shared and clean; an
answer to a home's request has it track the line, and hold it for the context that asked, with which the accesses that its port's severance had cut are performed, but for those
whose 50 ms are over (R345); and one that matches no request is logged as class 8.  That an answer nothing asked for changes nothing, and how its data comes, is the model's reading (log 58,
DEDUCED), and so are whose memory a frame is (log 57) and the key that returned data is written under (log 36). -/
def Obligations.HostMemoryAccesses : Prop :=
  (∀ (s : State) vf page tb port ctx pa data, s.prefetches = [] → s.vfPort vf = some port → s.isReady = true →
    s.hdmContext vf page pa data.length = .ok ctx → 0 < data.length → pa % 128 + data.length ≤ 128 → Canonical s →
    let p := s.dramPlace (s.contextAt ctx).glade pa
    (∃ t, exec (.hostWrite (.vf vf page tb) pa data) s = .next t ∧ t.bytesAt (s.keyOf ctx) p data.length = data ∧
      (t.lineOf p).w = (s.lineOf p).l + 1 ∧ (t.lineOf p).l = (s.lineOf p).l + 1 ∧ (t.portAt port).answer = .done ∧
      (∀ e, e ∈ t.conflicts ↔ e ∈ s.conflicts ∧ ¬ (e.1 = port ∧ some e.2 = p.lineKey)) ∧
      t.groups = s.groups ∧ t.hostMem = s.hostMem ∧ t.vaultMem = s.vaultMem) ∧
    (s.isPoisoned p.line 128 = false →
      (∃ t, exec (.hostRead (.vf vf page tb) pa data.length true) s = .next t ∧
        (t.portAt port).answer = .data (s.bytesAt (s.keyOf ctx) p data.length) false ∧
        (t.lineOf p).present = (s.lineOf p).present ||| BitVec.ofNat 4 (2 ^ port) ∧
        (t.lineOf p).shared = (s.lineOf p).shared &&& ~~~(BitVec.ofNat 4 (2 ^ port)) ∧ (t.lineOf p).w = (s.lineOf p).w ∧
        (t.lineOf p).l = (s.lineOf p).l ∧ SameMemory s t ∧ t.groups = s.groups) ∧
      ∃ t, exec (.hostRead (.vf vf page tb) pa data.length false) s = .next t ∧
        (t.portAt port).answer = .data (s.bytesAt (s.keyOf ctx) p data.length) false ∧
        { t with ports := s.ports, conflicts := s.conflicts } = s) ∧
    ∀ c, s.isPoisoned p.line 128 = true → ∃ u : State,
      exec (.hostRead (.vf vf page tb) pa data.length c) s =
        .next (u.error 2 (if s.onChip p then 2 else 3) ctx (BitVec.ofNat 64 (pa / 128 * 128)) 0) ∧
      (u.portAt port).answer = .data (s.bytesAt (s.keyOf ctx) p data.length) true ∧ SameMemory s u ∧ u.groups = s.groups) ∧
  (∀ (s : State) vf page tb port b pa n data c, s.vfPort vf = some port → s.isReady = true →
    (s.hdmContext vf page pa data.length = .error b →
      exec (.hostWrite (.vf vf page tb) pa data) s = .next (s.violate port b pa)) ∧
    (s.hdmContext vf page pa n = .error b →
      exec (.hostRead (.vf vf page tb) pa n c) s = .next ((s.violate port b pa).answerHost port .abort))) ∧
  (∀ (s : State) port b pa, SameMemory s (s.violate port b pa) ∧ (s.violate port b pa).groups = s.groups ∧
    (s.violate port b pa).pages = s.pages) ∧
  (∀ (s : State) vf page pa n,
    ((s.pageAt vf page).bound = none → s.hdmContext vf page pa n = .error none) ∧
    ∀ ctx, (s.pageAt vf page).bound = some ctx →
      ((s.caller vf page).isNone = true ∨ (s.vfAt vf).tdisp = .error ∨
          (s.gladeAt (s.contextAt ctx).glade).len * (48 * 2 ^ 30) < pa + n →
        s.hdmContext vf page pa n = .error (some ctx)) ∧
      ∀ c ∈ s.contextsOf (s.contextAt ctx).glade, c ∉ s.boundTo vf → s.holdsMemory c pa n = true →
        (∀ o ∈ s.boundTo vf, s.holdsMemory o pa n = false) → s.hdmContext vf page pa n = .error (some ctx)) ∧
  (∀ (s : State) port line, s.prefetches = [] → port < 4 →
    let asked (own : Bool) : Ask := { ctx := noTag, port := port, line := deviceLine line, own := own }
    let bit : BitVec 4 := BitVec.ofNat 4 (2 ^ port)
    let unasked (t : State) : Prop := ∀ a, a ∈ t.asks ↔ a ∈ s.asks ∧ ¬ (a.port = port ∧ a.line = deviceLine line)
    (asked true ∉ s.asks → asked false ∉ s.asks →
      exec (.biconflict port line) s = .next s ∧ ∀ data, exec (.birsp port line data) s = .next s) ∧
    (s.isReady = false → ∀ e ∈ [Instr.biconflict port line, .hostEvictionReport port line], exec e s = .next s ∧
      ∀ data, exec (.birsp port line data) s = .next s) ∧
    (s.isReady = true → asked true ∈ s.asks ∨ asked false ∈ s.asks → ∃ t, exec (.biconflict port line) s = .next t ∧ unasked t ∧
      (∀ e, e ∈ t.conflicts ↔ e = (port, line) ∨ e ∈ s.conflicts) ∧ (∀ ctx own, port ∉ t.askedPorts ctx (deviceLine line) own) ∧
      { t with asks := s.asks, conflicts := s.conflicts } = s) ∧
    ∀ x, s.isReady = true → s.lines.at? line = some x → x.present.getLsbD port = true →
      (∃ t, exec (.hostEvictionReport port line) s = .next t ∧
        t.lines.at? line = some { x with present := x.present &&& ~~~bit, shared := x.shared &&& ~~~bit } ∧
        (∀ e, e ∈ t.conflicts ↔ e ∈ s.conflicts ∧ e ≠ (port, line)) ∧ { t with lines := s.lines, conflicts := s.conflicts } = s) ∧
      (asked true ∈ s.asks → ∃ t, exec (.birsp port line none) s = .next t ∧ unasked t ∧
        t.lines.at? line = some { x with present := x.present &&& ~~~bit, shared := x.shared &&& ~~~bit } ∧
        { t with lines := s.lines, asks := s.asks } = s) ∧
      (asked true ∉ s.asks → asked false ∈ s.asks → ∃ t, exec (.birsp port line none) s = .next t ∧ unasked t ∧
        t.lines.at? line = some { x with shared := x.shared ||| (x.present &&& bit) } ∧ { t with lines := s.lines, asks := s.asks } = s) ∧
      ∀ data : List Byte, data.length = 128 → Canonical s → asked true ∈ s.asks ∨ asked false ∈ s.asks →
        ∃ t y, exec (.birsp port line (some data)) s = .next t ∧ unasked t ∧ t.lines.at? line = some y ∧
          y.w = x.l + 1 ∧ y.l = x.l + 1 ∧ y.dirty = true ∧
          y.present = (if asked true ∈ s.asks then x.present &&& ~~~bit else x.present) ∧
          y.shared = (if asked true ∈ s.asks then x.shared &&& ~~~bit else x.shared ||| (x.present &&& bit)) ∧
          t.bytesAt (s.writtenKey (line * 128 / sliceBytes) (line * 128 % sliceBytes)) (deviceLine line) 128 = data ∧
          t.groups = s.groups) ∧
  (∀ (s : State) port addr, s.isReady = true →
    let homes := s.trackedAt port addr
    let data := s.bytesAt 0 (.host port 0 (addr / 128 * 128)) 128
    ∀ e ∈ [Instr.snpinv port addr, .snpdata port addr, .snpcur port addr], ∃ t, exec e s = .next t ∧ SameMemory s t ∧
      (homes.filter s.onChip = [] → (t.portAt port).answer = .done) ∧
      (homes.filter s.onChip ≠ [] → (t.portAt port).answer = .data data (s.isPoisoned (.host port 0 (addr / 128 * 128)) 128)) ∧
      (e = .snpinv port addr → t.trackedAt port addr = []) ∧
      (e ≠ .snpinv port addr → ∀ p ∈ homes, (t.lineOf p).owned = false ∧ (t.lineOf p).dirty = false)) ∧
  (∀ (s : State) port addr h owned, s.isReady = true →
    let p := Place.host port h (addr / 128 * 128)
    let asked : Option Ask := s.asks.find? fun a => decide (a.port = port) && decide (a.line = p) && decide (a.own = owned)
    (asked = none → exec (.cxlCacheResponse port addr (some h) owned) s = .next (s.violate port none addr)) ∧
    (∀ a, asked = some a → s.prefetches = [] → ∃ t, exec (.cxlCacheResponse port addr (some h) owned) s = .next t ∧
      (t.lineOf p).owned = owned ∧ (∀ n, p.lineKey = some n → (t.lines.at? n).isSome = true) ∧ t.holds a.ctx p = true ∧ a ∉ t.asks ∧
      (∀ e, e ∈ t.cuts ↔ ∃ f ∈ s.cuts, let met : Prop := f.line = p ∧ f.ctx = a.ctx ∧ (f.own = true → owned = true)
        (¬ met ∧ e = f) ∨ (met ∧ f.due ≤ s.time ∧ e = { f with late := true })) ∧
      SameMemory s t ∧ (owned = true → { a with own := false } ∉ t.asks ∧ ∀ q ∈ t.trackedAt port addr, q = p) ∧
      (owned = false → ∀ q ∈ t.trackedAt port addr, (t.lineOf q).owned = false))) ∧
  ∀ (s : State) port addr owned, s.isReady = true → exec (.cxlCacheResponse port addr none owned) s = .next (s.violate port none addr)

/-- R331, R336 to R339, R342, R347, R348, R363: a context page's registers and the commands that set a context up: each command
leaves its argument, code and status in CMD; BIND makes the lowest free context, GUARDED, with a fresh key and the
default settings; SET takes all of the block or none of it, and lifts the severance that it names from the targets of streams; where
it changes the core pairs, each context whose groves stand on others than its own now is evicted, and restored there unless it waits for
turns (log 95, the model's choice); ASSIGNCH assigns, resets and unassigns a channel; SETSUCC
and SHARE write the identities of ARGS; a command that only the primary may issue does nothing for a page without a live
role or a co-guardian's page, and answers 0x03; HBEAT renews the lease, NTAIL makes room in the ring, and a write lands in
the settings block, ARGS and CMD.  A notice raised takes the next number of its context and goes to every guardian's page: its
128 bytes into the ring while that has room, else they wait.  With no guardian, types 3 to 5 are queued, at most 256: past
that the oldest of type 3 makes room, and the event is an error of class 11, with the action that ERRSEV gives it; types 1 and 2 belong
to their groups.  The model's choices here: the address that a refused command is logged with (log 56); that with no type 3 in a full
queue the new notice is not queued, and that the notice which the overflow's own action raises is no further event (log 78). -/
def Obligations.ContextCommands : Prop :=
  (∀ (s : State) vf page arg0 port k ctx, Calls s vf page port → (s.pageAt vf page).bound = none →
    s.gladeNamed (arg0.toNat % 256) = some k → (s.gladeAt k).ports.getLsbD port = true → (s.vfAt vf).tdisp = .unlocked →
    s.freeContext = some ctx →
    ∃ t, exec (.bind vf page arg0) s = .next (replied t vf page 0x01 arg0 0x01) ∧
      (∃ x, t.contexts.at? ctx = some x ∧ x.glade = k ∧ x.isProtected = false ∧ x.state = .guarded ∧
        x.guardians = [{ port := port, vf := vf, page := page, identity := (s.portAt port).identity.getD 0, last := s.time }] ∧
        x.cfg.leasems = 250 ∧ x.cfg.reaps = 600 ∧ x.cfg.root = 0 ∧ x.cfg.cpairs = 0 ∧ x.ckpt = 0 ∧ x.tvec = 0 ∧ x.adepoch = 0 ∧
        x.sevp = 0 ∧ x.eclass = none) ∧
      (t.pageAt vf page).bound = some ctx ∧ t.keyOf ctx = s.draws + 1 ∧
      (∀ c, c ≠ ctx → t.contexts.at? c = s.contexts.at? c ∧ t.keyOf c = s.keyOf c) ∧ t.groups = s.groups ∧ SameMemory s t) ∧
  (∀ (s : State) vf page arg0 port ctx x g, Primary s vf page port ctx x g →
    let b := (s.pageAt vf page).settings.readN 0 256
    (∀ c ckpt tvec sev, s.parseSettings x.glade b = some (c, ckpt, tvec, sev) → s.settingsClash ctx x.glade c = false →
      ∃ t, (c.cpairs = x.cfg.cpairs → exec (.set vf page arg0) s = .next (replied t vf page 0x02 arg0 0x01)) ∧
        (c.cpairs ≠ x.cfg.cpairs → exec (.set vf page arg0) s = .next (replied (t.moveStrays x.glade) vf page 0x02 arg0 0x01)) ∧
        (∀ h st, t.streamOf ctx h = some st → ∀ e ∈ st.cut, e.ctx = ctx → ∀ q < 4, Nat.testBit sev q = true → e.line.atPort q = false) ∧
        t.contexts.at? ctx = some { x with cfg := c, ckpt := ckpt, tvec := tvec, sevp := x.sevp &&& ~~~(BitVec.ofNat 4 sev),
                                           sevgb := x.sevgb && decide (sev < 16) } ∧
        (∀ k, k ≠ ctx → t.contexts.at? k = s.contexts.at? k) ∧ t.groups = s.groups ∧ t.dram = s.dram ∧ t.hostMem = s.hostMem) ∧
    (s.parseSettings x.glade b = none → exec (.set vf page arg0) s = .next (replied s vf page 0x02 arg0 0x07))) ∧
  (∀ (s : State) glade, s.moveStrays glade = ((s.contextsOf glade).filter s.strays).foldl State.moveOff s) ∧
  (∀ (s : State) ctx, s.strays ctx = true ↔
    ∃ e ∈ s.groves, e.2.ctx = ctx ∧ (e.2.placed = true ∨ e.2.kept = true) ∧ e.2.core / 2 ∉ s.allotment ctx) ∧
  (∀ (s : State) ctx x, s.contexts.at? ctx = some x →
    let back : List Bool := if s.timeSliced ctx = true then [] else [true]
    (x.evicted = true → s.moveOff ctx = s) ∧
    (x.evicted = false → x.evicting = true ∨ x.restoring = true →
      s.moveOff ctx = s.setContext ctx { x with asked := x.asked ++ false :: back }) ∧
    (x.evicted = false → x.evicting = false → x.restoring = false →
      s.moveOff ctx = (s.setContext ctx { x with asked := x.asked ++ back }).startEviction ctx)) ∧
  (∀ (s : State) vf page arg0 port ctx x g, Primary s vf page port ctx x g →
    let a := arg0.toNat
    let k := 16 * bitsOf a 12 8 + bitsOf a 19 16
    (a < 2 ^ 20 → bitsOf a 15 13 = 0 → (s.gladeAt x.glade).engines.getLsbD (bitsOf a 12 8) = true → (s.channelAt k).owner = none →
      s.channelOf ctx (bitsOf a 7 0) = none →
      exec (.assignch vf page arg0) s =
        .next (replied (s.setChannel k { Channel.reset with owner := some (ctx, bitsOf a 7 0) }) vf page 0x03 arg0 0x01)) ∧
    ∀ ch, a < 256 → s.channelOf ctx a = some ch →
      ((s.channelAt ch).fault = true ∨ (s.channelAt ch).queue = [] →
        exec (.assignchReset vf page arg0) s = .next (replied
          (s.setChannel ch { s.channelAt ch with fault := false, sp := (s.channelAt ch).wp }) vf page 0x03 (arg0 ||| 0x40000000) 0x01)) ∧
      ((s.channelAt ch).queue = [] → exec (.assignchUnassign vf page arg0) s =
        .next (replied (s.setChannel ch Channel.reset) vf page 0x03 (arg0 ||| 0x80000000) 0x01)) ∧
      ((s.channelAt ch).queue ≠ [] → exec (.assignchUnassign vf page arg0) s =
        .next (replied s vf page 0x03 (arg0 ||| 0x80000000) 0x02))) ∧
  (∀ (s : State) vf page arg0 port ctx x g, Primary s vf page port ctx x g →
    let id (o : Nat) : BitVec 256 := BitVec.ofNat 256 (fromBytes ((s.pageAt vf page).args.readN o 32))
    exec (.setsucc vf page arg0) s =
      .next (replied (s.setContext ctx { x with successors := [id 0, id 32, id 64] }) vf page 0x04 arg0 0x01) ∧
    exec (.share vf page arg0) s = .next (replied (s.setContext ctx { x with invited := id 0 }) vf page 0x05 arg0 0x01)) ∧
  (∀ (s : State) vf page (arg0 : BitVec 32) port, Calls s vf page port → s.caller vf page = none →
    ∀ e ∈ [(Instr.set vf page arg0, 2), (.assignch vf page arg0, 3), (.setsucc vf page arg0, 4), (.share vf page arg0, 5), (.unshare vf page arg0, 7),
        (.transfer vf page arg0, 8), (.resume vf page arg0, 10), (.evict vf page arg0, 13), (.restore vf page arg0, 14),
        (.release vf page arg0, 15)],
      exec e.1 s = .next (replied (s.violate port (s.pageAt vf page).bound (0x10000 * page + 0x1000)) vf page e.2 arg0 0x03)) ∧
  (∀ (s : State) vf page (arg0 : BitVec 32) port ctx x g, Guards s vf page port ctx x g → x.guardians.head? ≠ some g →
    let refused (code : Nat) (a : BitVec 32) : Host.Outcome State Fault Refusal :=
      .next (replied (s.violate port (s.pageAt vf page).bound (0x10000 * page + 0x1000)) vf page code a 0x03)
    (∀ e ∈ [(Instr.set vf page arg0, 2), (.assignch vf page arg0, 3), (.setsucc vf page arg0, 4), (.share vf page arg0, 5),
        (.transfer vf page arg0, 8), (.resume vf page arg0, 10), (.evict vf page arg0, 13), (.restore vf page arg0, 14),
        (.release vf page arg0, 15)], exec e.1 s = refused e.2 arg0) ∧
    exec (.assignchReset vf page arg0) s = refused 3 (arg0 ||| 0x40000000) ∧
    exec (.assignchUnassign vf page arg0) s = refused 3 (arg0 ||| 0x80000000) ∧
    (arg0.toNat % 4 ≠ g.port → exec (.unshare vf page arg0) s = refused 7 arg0) ∧
    (arg0.toNat % 4 = g.port → (x.guardians.drop 1).find? (fun h => decide (h.port = g.port)) = some g →
      exec (.unshare vf page arg0) s = .next (replied (s.removeGuardian ctx g) vf page 0x07 arg0 0x01))) ∧
  (∀ (s : State) ctx x (n : Notice), s.contexts.at? ctx = some x →
    let m : Notice := { n with seq := x.nextNotice, ctx := ctx }
    let with_ (l : List Notice) : State := s.setContext ctx { x with nextNotice := x.nextNotice + 1, notices := l }
    let queued := x.notices.filter (·.queued)
    (x.guardians ≠ [] → s.raise ctx n = (with_ (x.notices ++ [m])).sendNotice x.guardians m) ∧
    (x.guardians = [] → n.type < 3 → s.raise ctx n = with_ (x.notices ++ [m])) ∧
    (x.guardians = [] → 3 ≤ n.type →
      (queued.length < 256 → s.raise ctx n = with_ (x.notices ++ [{ m with queued := true }])) ∧
      (256 ≤ queued.length →
        (∀ a d b, x.notices = a ++ d :: b → (∀ y ∈ a, ¬ (y.queued = true ∧ y.type = 3)) → d.queued = true → d.type = 3 →
          s.raise ctx n = (with_ (a ++ b ++ [{ m with queued := true }])).errorBy State.notify 0 11 7 ctx 0 0) ∧
        ((∀ y ∈ x.notices, ¬ (y.queued = true ∧ y.type = 3)) →
          s.raise ctx n = (with_ (x.notices ++ [{ m with queued := false }])).errorBy State.notify 0 11 7 ctx 0 0)))) ∧
  (∀ (s : State) (g : Guardian) gs n, s.sendNotice [] n = s ∧
    s.sendNotice (g :: gs) n = (s.setPage g.vf g.page ((s.pageAt g.vf g.page).send n.bytes)).sendNotice gs n) ∧
  (∀ (p : CtxPage) e, p.waiting = [] →
    ((p.nhead - p.ntail).toNat < 16 →
      p.send e = { p with ring := p.ring.put (p.nhead.toNat % 16) e, nhead := p.nhead + 1, signals := p.signals + 1 }) ∧
    (16 ≤ (p.nhead - p.ntail).toNat → p.send e = { p with waiting := [e] })) ∧
  (∀ n : Notice, let b := n.bytes
    b.length = 128 ∧ fieldOf b 0 8 = n.seq % 2 ^ 64 ∧ fieldOf b 8 1 = n.type % 256 ∧ fieldOf b 9 1 = n.gix % 256 ∧
      fieldOf b 0x0A 2 = n.ctx % 2 ^ 16 ∧ fieldOf b 0x0C 4 = n.grx % 2 ^ 32 ∧ fieldOf b 0x10 4 = n.toff % 2 ^ 32 ∧
      fieldOf b 0x14 4 = n.svcSeq.toNat ∧ fieldOf b 0x18 8 = n.tcause.toNat ∧ fieldOf b 0x20 8 = n.taddr.toNat ∧
      fieldOf b 0x28 8 = n.tlane.toNat ∧ (∀ k v, k < 4 → n.args[k]? = some v → fieldOf b (0x30 + 8 * k) 8 = v.toNat) ∧
      (n.log.length = 32 → (b.drop 0x50).take 32 = n.log) ∧ fieldOf b 0x70 16 = 0) ∧
  (∀ (s : State) vf page port ctx x g, Guards s vf page port ctx x g →
    exec (.hbeat vf page) s = .next { s with contexts := s.contexts.alter ctx fun y : Context =>
      { y with guardians := y.guardians.map fun h : Guardian => if h.vf = vf ∧ h.page = page then { h with last := s.time } else h } }) ∧
  (∀ (s : State) vf page port ctx x g v, Guards s vf page port ctx x g →
    ∃ p, exec (.ntail vf page v) s = .next (s.setPage vf page p) ∧ p.ntail = v ∧
      ((s.pageAt vf page).waiting = [] → p = { s.pageAt vf page with ntail := v }) ∧ p.waiting <:+ (s.pageAt vf page).waiting ∧
      { p with ntail := 0, nhead := 0, ring := [], waiting := [], signals := 0 } =
        { s.pageAt vf page with ntail := 0, nhead := 0, ring := [], waiting := [], signals := 0 }) ∧
  ∀ (s : State) vf page tb port ctx x g o data, Guards s vf page port ctx x g → ((s.vfAt vf).tdisp = .run → tb = true) →
    0 < data.length →
    (o + data.length ≤ 256 → exec (.registerWrite (.vf vf page tb) (0x1100 + o) data) s =
      .next (s.setPage vf page { s.pageAt vf page with settings := (s.pageAt vf page).settings.writeN o data })) ∧
    (o + data.length ≤ 0x2000 → exec (.registerWrite (.vf vf page tb) (0x4000 + o) data) s =
      .next (s.setPage vf page { s.pageAt vf page with args := (s.pageAt vf page).args.writeN o data })) ∧
    (∀ arg0 : BitVec 32, data = toBytes (arg0.toNat * 2 ^ 32 + 0x10D) 8 →
      exec (.registerWrite (.vf vf page tb) 0x1000 data) s = exec (.evict vf page arg0) s)

/-- R200, R304, R312, R327, R337, R341 to R347, R348 to R354, R366: guardians come and go: JOIN, ADOPT and TRANSFER bind their page as
a guardian, the first two under a valid token, and with the next random number as the new NONCE whatever comes of them; UNSHARE ends a co-guardian's role; RESUME brings a
suspended context back; the first CLAIM gives a notice its claimant, a REPLY answers it and lets its group or channel go on, once,
and in SHARED only the claimant's; EVICT, RESTORE and RELEASE begin what they name, a request waiting for what is in progress; a
guardian whose orphan moment has come is lost: its port is severed, with 50 ms for what is in flight to it, and its role ends, which unbinds its page, makes the
lowest port of the rest the primary if it was that, and leaves SHARED with one guardian GUARDED, and a context with none
ORPHANED; at the end of its reap timer a context is destroyed.  A destruction ends the context's groups, launches,
graphs, channels and streams, unbinds its pages, clears its key, writes zero to its frames and vaults, drops its copies, still
performs its stores to host memory, and is logged as class 11, with ACT the action that is taken, which may reset the glade.  The
model's choices here: the moment that an adoption waits for when no guardian was lost (log 50), what EVICT and RESTORE of a
context in each state come to (log 63), source 7 of the entry (log 38), and its ACT where the byte asks for more than the log
(log 93). -/
def Obligations.GuardianRoles : Prop :=
  (∀ (s : State) vf page arg0 port x, Calls s vf page port → (s.pageAt vf page).bound = none →
    let ctx := arg0.toNat % 1024
    let h : Guardian := { port := port, vf := vf, page := page, identity := (s.pageAt vf page).arg256 0x18, last := s.time }
    s.contexts.at? ctx = some x → (s.gladeAt x.glade).ports.getLsbD port = true →
    let refused : State := { s.draw with contexts := s.contexts.alter ctx fun z : Context => { z with nonce := Config.random s.draws } }
    (x.state = .guarded ∨ x.state = .shared → (∀ g ∈ x.guardians, g.port ≠ port) →
      (x.tokenValid 2 ctx (s.pageAt vf page) = true →
        ∃ t y, exec (.join vf page arg0) s = .next (replied t vf page 0x06 arg0 0x01) ∧ t.contexts.at? ctx = some y ∧
          y = { x with guardians := x.guardians ++ [h], state := .shared, invited := 0, nonce := Config.random s.draws } ∧
          (t.pageAt vf page).bound = some ctx ∧ t.groups = s.groups) ∧
      (x.tokenValid 2 ctx (s.pageAt vf page) = false →
        exec (.join vf page arg0) s = .next (replied refused vf page 0x06 arg0 0x05))) ∧
    (x.adoptFrom ≤ s.time → x.guardians = [] → x.state = .orphaned ∨ x.state = .suspended → x.isProtected = false →
      (x.tokenValid 1 ctx (s.pageAt vf page) = true →
        ∃ t y, exec (.adopt vf page arg0) s = .next (replied t vf page 0x09 arg0 0x01) ∧ t.contexts.at? ctx = some y ∧
          y.guardians = [h] ∧ y.state = (if x.state = .orphaned then .guarded else .suspended) ∧ y.reapFrom = none ∧
          y.nonce = Config.random s.draws ∧ (t.pageAt vf page).bound = some ctx ∧ t.groups = s.groups) ∧
      (x.tokenValid 1 ctx (s.pageAt vf page) = false →
        exec (.adopt vf page arg0) s = .next (replied refused vf page 0x09 arg0 0x05))) ∧
    (s.time < x.adoptFrom → exec (.adopt vf page arg0) s = .next (replied refused vf page 0x09 arg0 0x04))) ∧
  (∀ (s : State) vf page arg0 port ctx x g, Primary s vf page port ctx x g →
    (∀ h, x.state = .shared → (x.guardians.drop 1).find? (fun h => decide (h.port = arg0.toNat % 4)) = some h →
      exec (.unshare vf page arg0) s = .next (replied (s.removeGuardian ctx h) vf page 0x07 arg0 0x01)) ∧
    (∀ p, s.vfPort (arg0.toNat % 256) = some p → (s.pageAt (arg0.toNat % 256) (bitsOf arg0.toNat 9 8)).bound = none →
      (s.gladeAt x.glade).ports.getLsbD p = true → (∀ h ∈ x.guardians, h.port ≠ p) → x.isProtected = false →
      ∃ t y, exec (.transfer vf page arg0) s = .next (replied t vf page 0x08 arg0 0x01) ∧ t.contexts.at? ctx = some y ∧
        (t.pageAt (arg0.toNat % 256) (bitsOf arg0.toNat 9 8)).bound = some ctx ∧
        y.guardians.map (fun h => h.port) = p :: (x.guardians.drop 1).map (fun h => h.port) ∧ t.groups = s.groups) ∧
    (x.state = .suspended → exec (.resume vf page arg0) s =
      .next (replied (s.setContext ctx { x with state := .guarded, reapFrom := none, restoring := x.restoring || x.evicted,
                                                asked := if x.evicting then x.asked ++ [true] else x.asked }) vf page 0x0A arg0 0x01)) ∧
    (x.state ≠ .suspended → exec (.resume vf page arg0) s = .next (replied s vf page 0x0A arg0 0x02)) ∧
    (x.restoring = false → x.evicted = false → x.evicting = false →
      exec (.evict vf page arg0) s = .next (replied (s.startEviction ctx) vf page 0x0D arg0 0x01) ∧
      exec (.restore vf page arg0) s = .next (replied s vf page 0x0E arg0 0x01)) ∧
    (x.evicting = true ∨ x.restoring = true →
      exec (.evict vf page arg0) s =
        .next (replied (s.setContext ctx { x with asked := x.asked ++ [false] }) vf page 0x0D arg0 0x01) ∧
      exec (.restore vf page arg0) s =
        .next (replied (s.setContext ctx { x with asked := x.asked ++ [true] }) vf page 0x0E arg0 0x01)) ∧
    (x.evicting = false → x.restoring = false → x.evicted = true →
      exec (.evict vf page arg0) s = .next (replied s vf page 0x0D arg0 0x01) ∧
      exec (.restore vf page arg0) s = .next (replied (s.setContext ctx { x with restoring := true }) vf page 0x0E arg0 0x01)) ∧
    exec (.release vf page arg0) s = .next (replied (s.destroy ctx) vf page 0x0F arg0 0x01)) ∧
  (∀ (s : State) vf page arg0 port ctx x g n, Guards s vf page port ctx x g → x.noticeNamed arg0.toNat = .is n →
    (n.claimant = none → ∃ t y, exec (.claim vf page arg0) s = .next (replied t vf page 0x0B arg0 0x01) ∧
      t.contexts.at? ctx = some y ∧ { t with contexts := s.contexts } = s ∧
      ∀ m ∈ y.notices, m.seq = n.seq → m.claimant = some g.port) ∧
    (n.claimant.isSome = true → exec (.claim vf page arg0) s = .next (replied s vf page 0x0B arg0 0x06)) ∧
    (x.state = .shared → n.claimant ≠ some g.port → exec (.reply vf page arg0) s =
      .next (replied (s.violate port (s.pageAt vf page).bound (0x10000 * page + 0x1000)) vf page 0x0C arg0 0x03)) ∧
    (x.state ≠ .shared ∨ n.claimant = some g.port →
      (n.answered = true → exec (.reply vf page arg0) s = .next (replied s vf page 0x0C arg0 0x01)) ∧
      (n.answered = false → n.channel = none →
        ∃ t, exec (.reply vf page arg0) s = .next (replied t vf page 0x0C arg0 0x01) ∧
          (∀ y, t.contexts.at? ctx = some y → ∀ m ∈ y.notices, m.seq = n.seq → m.answered = true) ∧
          ∀ gid (h : Machine.Group), n.gid = some gid → s.groupAt gid = some h →
            (h.wait = .guardian n.seq → t.groupAt gid = some h.serviced) ∧
            (h.wait = .svc n.seq → ∃ h', t.groupAt gid = some h' ∧ h'.wait = .over ∧
              h'.scalar 16 = BitVec.ofNat 64 (fromBytes ((s.pageAt vf page).args.readN 0 8))) ∧
            (h.wait ≠ .guardian n.seq → h.wait ≠ .svc n.seq → t.groupAt gid = some h)) ∧
      ∀ ch, n.answered = false → n.channel = some ch → n.gid = none →
        ∃ t, exec (.reply vf page arg0) s = .next (replied t vf page 0x0C arg0 0x01) ∧ t.groups = s.groups ∧
          t.channelAt ch = { s.channelAt ch with
            stalled := if (s.channelAt ch).stalled = some n.seq then none else (s.channelAt ch).stalled })) ∧
  (∀ (s : State) vf page arg0 port ctx x g, Guards s vf page port ctx x g →
    (arg0.toNat = 0 ∨ x.nextNotice ≤ arg0.toNat → x.noticeNamed arg0.toNat = .never) ∧
    (x.noticeNamed arg0.toNat = .never → exec (.claim vf page arg0) s = .next (replied s vf page 0x0B arg0 0x07) ∧
      exec (.reply vf page arg0) s = .next (replied s vf page 0x0C arg0 0x07)) ∧
    (x.noticeNamed arg0.toNat = .needsNone → exec (.claim vf page arg0) s = .next (replied s vf page 0x0B arg0 0x01) ∧
      exec (.reply vf page arg0) s = .next (replied s vf page 0x0C arg0 0x01))) ∧
  (∀ (s : State) ctx x, s.contexts.at? ctx = some x → x.evicting = false → x.restoring = false →
    (x.asked = [] → s.takeAsked ctx = s) ∧
    ∀ restore rest, x.asked = restore :: rest →
      let t := s.setContext ctx { x with asked := rest }
      (restore ≠ x.evicted → s.takeAsked ctx = t.takeAsked ctx) ∧
      (restore = true → x.evicted = true → s.takeAsked ctx = t.setContext ctx { x with asked := rest, restoring := true }) ∧
      (restore = false → x.evicted = false → s.takeAsked ctx = t.startEviction ctx)) ∧
  (∀ (s : State) ctx port x g, s.contexts.at? ctx = some x → x.guardians.find? (fun g => decide (g.port = port)) = some g →
    g.last + x.cfg.leasems * 1000000 + 2000000 ≤ s.time →
    exec (.guardianLoss ctx port) s = .next (s.loseGuardian ctx g (g.last + x.cfg.leasems * 1000000 + 2000000)) ∧
    (∀ b e, e ∈ (s.sever ctx g b).cuts ↔ e ∈ s.cuts ∨ ∃ a ∈ s.inFlightOf ctx, a.2.1.atPort g.port = true ∧
      e = { seq := a.1, ctx := ctx, line := a.2.1.line, own := a.2.2, due := s.time + 50000000, late := false }) ∧
    ∃ y, ((s.sever ctx g (decide (x.guardians.head? = some g))).removeGuardian ctx g).contexts.at? ctx = some y ∧
      y.sevp = x.sevp ||| BitVec.ofNat 4 (2 ^ port) ∧ (x.guardians.head? = some g → y.sevgb = true) ∧
      (∀ h ∈ y.guardians, h.port ≠ port)) ∧
  (∀ (s : State) ctx x (g : Guardian) at_, s.contexts.at? ctx = some x → x.guardians = [g] → x.state ≠ .suspended →
    x.notices.any Notice.pending = false → s.hasWork ctx = true →
    ∃ y, (s.loseGuardian ctx g at_).contexts.at? ctx = some y ∧ y.state = .orphaned ∧ y.guardians = [] ∧
      y.adepoch = x.adepoch + 1 ∧ y.lostAt = some at_ ∧ y.reapFrom = none ∧ y.nonce = Config.random s.draws) ∧
  (∀ (s : State) ctx x (g : Guardian), s.contexts.at? ctx = some x →
    let t := s.removeGuardian ctx g
    { t with pages := s.pages, contexts := s.contexts } = s ∧
    t.pageAt g.vf g.page = { s.pageAt g.vf g.page with bound := none, nhead := 0, ntail := 0, ring := [], waiting := [] } ∧
    (∀ vf page, 4 * vf + page ≠ 4 * g.vf + g.page → t.pageAt vf page = s.pageAt vf page) ∧
    (∀ c, c ≠ ctx → t.contexts.at? c = s.contexts.at? c) ∧
    ∃ y, t.contexts.at? ctx = some y ∧ { y with guardians := x.guardians, state := x.state } = x ∧
      (∀ h, h ∈ y.guardians ↔ h ∈ x.guardians ∧ h.port ≠ g.port) ∧
      y.state = (if x.state = .shared ∧ y.guardians.length = 1 then .guarded else x.state) ∧
      (∀ p, x.guardians.head? = some p → p.port ≠ g.port → y.guardians.head? = some p) ∧
      ∀ p q, x.guardians.head? = some p → p.port = g.port → y.guardians.head? = some q → ∀ h ∈ y.guardians, q.port ≤ h.port) ∧
  (∀ (s : State) ctx x, s.contexts.at? ctx = some x →
    let z := s.zeroingOf ctx (s.gladeAt x.glade).key
    let t := s.destroyOne ctx
    s.destroy ctx = (if (t.gladeAt x.glade).action 11 7 = 4 then t.resetGlade x.glade else t) ∧
    t.contexts.at? ctx = none ∧ (∀ c, c ≠ ctx → t.contexts.at? c = s.contexts.at? c ∧ t.keyOf c = s.keyOf c) ∧ t.keyOf ctx = 0 ∧
    (∀ e ∈ t.groups, e.2.ctx ≠ ctx) ∧ (∀ k g, s.groupAt k = some g → g.ctx ≠ ctx → t.groupAt k = some g) ∧
    (∀ e ∈ t.groves, e.2.ctx ≠ ctx) ∧ (∀ e ∈ t.launches, e.2.ctx ≠ ctx) ∧ (∀ e ∈ t.graphs, e.2.ctx ≠ ctx) ∧
    t.doneTimes = s.doneTimes ∧
    (∀ vf page, t.pageAt vf page = if (s.pageAt vf page).bound = some ctx then (s.pageAt vf page).unbind else s.pageAt vf page) ∧
    (∀ k, ((∃ num, (s.channelAt k).owner = some (ctx, num)) → t.channelAt k = Channel.reset) ∧
      ((∀ num, (s.channelAt k).owner ≠ some (ctx, num)) → t.channelAt k = s.channelAt k)) ∧
    (∀ e ∈ t.slices, ∀ y ∈ e.2.streams, y.2.isOpen = true → y.2.ctx ≠ ctx) ∧
    (∀ e ∈ t.cores, ∀ l ∈ e.2.l1, l.ctx ≠ ctx) ∧ (∀ e ∈ t.slices, ∀ l ∈ e.2.l2, l.ctx ≠ ctx) ∧
    (∀ e ∈ t.cores, ∀ l ∈ e.2.tlb, l.ctx ≠ ctx) ∧
    (∀ sl o, o < sliceBytes → t.dram.read (sl * sliceBytes + o) =
      if z.holds sl o = true then 0 else s.dram.read (sl * sliceBytes + o)) ∧
    (∀ d v o key, d < 4 → v < 72 → o < vaultBytes →
      t.byteAt key (.vault d v o) = (if s.vaultAllotted ctx d v = true then 0 else s.byteAt key (.vault d v o)) ∧
      (s.vaultAllotted ctx d v = true → t.badByte (.vault d v o) = false)) ∧
    t.hostMem = s.hostMem ∧
    (∀ e ∈ s.entries, e.ctx = ctx → e.line.isHost = true → e.held = false → e ∈ t.entries) ∧
    (∀ e ∈ t.entries, e.ctx = ctx → e.line.isHost = true ∧ e.held = false) ∧
    ∀ gl, s.glades.at? x.glade = some gl → t.gladeAt x.glade = (if gl.action 11 7 = 0 then gl
      else gl.write { time := s.time, addr := 0, ctx := ctx, cls := 11, source := 7, act := if gl.action 11 7 = 4 then 4 else 1,
                        ovf := false, detail := 0 })) ∧
  ∀ (s : State) ctx x t, s.contexts.at? ctx = some x → x.state = .suspended → x.guardians = [] → x.reapFrom = some t →
    t + x.cfg.reaps * 1000000000 ≤ s.time → exec (.reapTimeout ctx) s = .next (s.destroy ctx)
/-! ## Glades, starts, power and security -/

/-- R205, R311 to R313, R319, R329 to R331, R337, R338, R359, R369 to R377: GCREATE makes a legal glade of free slices, GDESTROY
unmakes one without contexts, zeroing its memory under its key, GSET takes all its settings or none; a start ends every context
and glade, clears what is cached and in flight, and completes READY with time 0 or fails with its step in LASTFAIL, the third
failure leaving RECOVERY; a range invalidation drops the translations that meet it, once what was translated before is
performed; scrubbing brings a line that its home does not track under the glade's key, for whose holder its bytes stay as
they were, and reports what it finds; while a die or the module power is over its limit, throttling lowers every core's step, at first
and then once in 100 µs, down to 32 (what is over its limit before a start has completed is remembered, and throttles from then on), and 10 ms of module power above its limit at step 32 stop the package; a thermal stop kills every context and leaves OFF; without power nothing of
the package is kept.  An error sets ECLASS, and its class and source choose the action, logged in a ring of 256 entries: to tell
the guardian, destroy the context, or reset the glade; one of no context is reported with context 0xFFFF.
Not the spec's words but the model's reading of them: how GCREATE, GDESTROY and GSET name a glade and the statuses they answer (log
54); that START is answered at once with status 0x01, and all that a start clears (log 55); which lines a scrub brings under the key, and
that a range invalidation waits for what was translated before (log 62); that the steps which throttling took are apart from the step of
R165 and come back at once (log 27); and that `logIn` logs with ACT 1 (log 47). -/
def Obligations.PackageEvents : Prop :=
  (∀ (s : State) port (arg0 : BitVec 32), s.isReady = true → port < 4 →
    let id := arg0.toNat % 256
    let len := lengthOf (id / 16)
    (legalGlade id = true → (∀ e ∈ s.glades, id % 16 + len ≤ e.1 ∨ e.1 + e.2.len ≤ id % 16) →
      ∃ t g, exec (.gcreate port arg0) s = .next (portReplied t port 0x10 arg0 0x01) ∧ t.glades.at? (id % 16) = some g ∧
        g.len = len ∧ g.admin = port ∧ g.shareB = 48 ∧ g.slicems = 10 ∧ g.errlog = [] ∧ g.ports = 0 ∧ g.engines = 0 ∧
        (∀ k, k ≠ id % 16 → t.glades.at? k = s.glades.at? k) ∧ SameMemory s t) ∧
    (legalGlade id = false → exec (.gcreate port arg0) s = .next (portReplied s port 0x10 arg0 0x07)) ∧
    ∀ k, s.gladeNamed id = some k → (s.gladeAt k).admin = port →
      (s.contextsOf k = [] →
        ∃ t, exec (.gdestroy port arg0) s = .next (portReplied t port 0x11 arg0 0x01) ∧ t.glades.at? k = none ∧
          (∀ j, j ≠ k → t.glades.at? j = s.glades.at? j) ∧
          ∀ sl o, k ≤ sl → sl < k + (s.gladeAt k).len → o < sliceBytes →
            t.dram.read (sl * sliceBytes + o) = 0 ∧ t.byteAt (s.gladeAt k).key (.dram sl o) = 0) ∧
      (s.contextsOf k ≠ [] → exec (.gdestroy port arg0) s = .next (portReplied s port 0x11 arg0 0x02)) ∧
      let a := gladeArgs ((s.portAt port).args.readN 0 0x268)
      (s.gsetBad k (s.gladeAt k) a = false →
        ∃ g, exec (.gset port arg0) s = .next (portReplied (s.setGlade k g) port 0x12 arg0 0x01) ∧ g.engines = a.engines ∧
          g.ports = BitVec.ofNat 4 a.ports ∧ g.shareB = a.shareB ∧ g.slicems = a.slicems ∧ g.links = a.links ∧ g.exports = a.exports ∧
          g.len = (s.gladeAt k).len ∧ g.admin = port ∧ g.key = (s.gladeAt k).key ∧
          ∀ cls src, cls < 16 → src < 8 → g.action cls src = a.errsev.getD (8 * cls + src) 0) ∧
      (s.gsetBad k (s.gladeAt k) a = true → exec (.gset port arg0) s = .next (portReplied s port 0x12 arg0 0x07))) ∧
  (∀ (s : State) port, s.boot.powered = true → port < 4 → s.boot.state = .ready ∨ s.boot.state = .off →
    ∀ e ∈ [(Instr.startCold port 1, (1 : BitVec 32), true), (.startWarm port 0, 0, false)],
      ∃ t, exec e.1 s = .next (portReplied t port 0x13 e.2.1 0x01) ∧ t.boot.state = .starting ∧
        t.boot.cold = (e.2.2 || !s.boot.trained) ∧ t.contexts = [] ∧ t.glades = [] ∧ t.groups = [] ∧ t.launches = [] ∧ t.lines = [] ∧
        t.loads = [] ∧ t.entries = [] ∧ t.atoms = [] ∧ t.slotWrites = [] ∧ t.prefetches = [] ∧ t.asks = [] ∧ t.conflicts = [] ∧ t.flights = [] ∧
        t.channels = [] ∧ t.ctxKeys = [] ∧ t.epoch = 0 ∧
        t.boot.overs = s.boot.overs ∧ t.boot.lowered = 0 ∧ t.boot.throttleAt = none ∧ t.boot.hotAt = none ∧
        ((∀ x ∈ s.lines, x.2.dirty = false) → t.hostMem = s.hostMem) ∧
        exec (.sidebandStartRequest e.2.2) s = .next t) ∧
  (∀ (s : State), s.boot.state = .starting →
    (∀ port (arg0 : BitVec 32), s.boot.powered = true → port < 4 →
      exec (.startCold port 1) s = .next (portReplied s port 0x13 1 0x02) ∧
      exec (.gcreate port arg0) s = .next (portReplied s port 0x10 arg0 0x02)) ∧
    (s.imageGood = true → ∀ cause, ∃ t, exec (.startCompletion true cause) s = .next t ∧ t.boot.state = .ready ∧ t.boot.fails = 0 ∧
      t.boot.trained = true ∧ t.time = 0 ∧ t.hostMem = s.hostMem ∧
      (s.boot.overs = [] → t.boot.lowered = s.boot.lowered ∧ t.boot.throttleAt = s.boot.throttleAt) ∧
      (s.boot.overs ≠ [] → t.boot.lowered = min 16 (s.boot.lowered + 1) ∧ t.boot.throttleAt = some 0) ∧
      (s.boot.cold = true → t.dram = [] ∧ t.vaultMem = [] ∧
        (∀ sl o, sl < 12 → o < sliceBytes → t.badByte (.dram sl o) = false) ∧
        ∀ q h a, q < 4 → a < 2 ^ 56 → t.badByte (.host q h a) = s.badByte (.host q h a))) ∧
    ∀ ok cause, s.imageGood = false → ∃ t, exec (.startCompletion ok cause) s = .next t ∧ t.boot.lastfail = 2 ∧
      t.boot.fails = min 3 (s.boot.fails + 1) ∧ t.boot.state = (if s.boot.fails < 2 then .off else .recovery) ∧ SameMemory s t) ∧
  (∀ (s : State) ctx base size,
    (s.translatedWork ctx = true → exec (.rangeInvalidation ctx base size) s = .next s) ∧
    (s.translatedWork ctx = false →
      ∃ t, exec (.rangeInvalidation ctx base size) s = .next t ∧ { t with cores := s.cores } = s ∧
        ∀ k x, x ∈ (t.coreAt k).tlb ↔
          x ∈ (s.coreAt k).tlb ∧ ¬ (x.ctx = ctx ∧ x.base < base + size ∧ base < x.base + x.size))) ∧
  (∀ (s : State) sl k o, s.gladeOfSlice sl = some k → o < sliceBytes →
    let p := Place.dram sl (o / 128 * 128)
    let addr : Scalar := BitVec.ofNat 64 (physOf k (s.gladeAt k).len (s.gladeAt k).shareB sl (o / 128 * 128))
    ∃ u : State, ((∃ n x, p.lineKey = some n ∧ s.lines.at? n = some x) → u = s) ∧
      ((∀ n, p.lineKey = some n → s.lines.at? n = none) → u = s.rekey (s.gladeAt k).key sl (o / 128 * 128)) ∧
      exec (.scrubbing sl o 0) s = .next u ∧ exec (.scrubbing sl o 1) s = .next (u.report k 0 3 addr) ∧
      exec (.scrubbing sl o 2) s = .next ((u.setPoison p).report k 2 3 addr)) ∧
  (∀ (s : State) key sl o, Canonical s → o < sliceBytes →
    let t := s.rekey key sl o
    { t with dram := s.dram, keys := s.keys } = s ∧ t.writtenKey sl o = key ∧
    (∀ i, i < 128 → t.byteAt key (.dram sl (o / 128 * 128 + i)) = s.byteAt key (.dram sl (o / 128 * 128 + i))) ∧
    ∀ k sl' o', (sl' * sliceBytes + o') / 128 ≠ (sl * sliceBytes + o) / 128 → t.byteAt k (.dram sl' o') = s.byteAt k (.dram sl' o')) ∧
  (∀ (s : State) part hot, s.boot.powered = true →
    let now := if hot = true then (if part ∈ s.boot.overs then s.boot.overs else part :: s.boot.overs)
      else s.boot.overs.filter (fun p => decide (p ≠ part))
    let u : State := { s with boot := { s.boot with overs := now } }
    let low : State := { s with boot := { s.boot with overs := now, lowered := min 16 (s.boot.lowered + 1), throttleAt := some s.time } }
    (s.isReady = false → exec (.throttleStep part hot) s = .next u) ∧
    (s.isReady = true → now = [] → exec (.throttleStep part hot) s =
      .next { s with boot := { s.boot with overs := [], lowered := 0, throttleAt := none, hotAt := none } }) ∧
    (s.isReady = true → now ≠ [] → s.boot.throttleAt = none →
      exec (.throttleStep part hot) s = .next (low.noteHot.reportWhere (fun _ => true) 14 7 0)) ∧
    ∀ t, s.isReady = true → now ≠ [] → s.boot.throttleAt = some t → exec (.throttleStep part hot) s =
      .next (if s.boot.lowered < 16 ∧ t + 100000 ≤ s.time then low.noteHot else u.noteHot)) ∧
  (∀ (s : State) t, s.due = none → s.boot.throttleAt = some t → s.boot.lowered < 16 → t + 100000 ≤ s.time →
    let low : State := { s with boot := { s.boot with lowered := s.boot.lowered + 1, throttleAt := some s.time } }
    step s = .next low.noteHot) ∧
  (∀ (s : State), (∀ c, s.stepOf c = max 32 (c.step - s.boot.lowered)) ∧
    ∃ w, s.noteHot = { s with boot := { s.boot with hotAt := w } } ∧
      (12 ∈ s.boot.overs → (∀ k, k < 288 → (s.coreAt k).step ≤ 32 + s.boot.lowered) → w = some (s.boot.hotAt.getD s.time)) ∧
      (12 ∉ s.boot.overs ∨ (∃ k, k < 288 ∧ 32 + s.boot.lowered < (s.coreAt k).step) → w = none)) ∧
  (∀ (s : State) t, s.boot.hotAt = some t → t + 10000000 ≤ s.time → s.tickOf = none → s.lossOf = none → s.reapOf = none →
    s.due = some .thermalStop) ∧
  (∀ (s : State),
    (s.boot.powered = false → exec .thermalStop s = .next s) ∧
    (s.boot.powered = true → ∃ t, exec .thermalStop s = .next t ∧ t.boot.state = .off ∧ t.boot.powered = true ∧
      t.boot.overs = s.boot.overs ∧ t.boot.lowered = 0 ∧ t.boot.throttleAt = none ∧ t.boot.hotAt = none ∧ t.contexts = [] ∧ t.hostMem = s.hostMem ∧
      ∀ e ∈ t.groups, (s.contexts.at? e.2.ctx) = none)) ∧
  (∀ (raise : State → Nat → Notice → State) (s : State) atLeast cls src ctx addr detail,
    (s.contexts.at? ctx = none → s.errorBy raise atLeast cls src ctx addr detail = s) ∧
    ∀ x, s.contexts.at? ctx = some x →
      let act := max atLeast ((s.gladeAt x.glade).action cls src)
      let e : LogEntry := { time := s.time, addr := addr, ctx := ctx, cls := cls, source := src, act := act, ovf := false, detail := detail }
      let u := s.setContext ctx { x with eclass := some (src, cls) }
      let logged : State := { u with glades := u.glades.alter x.glade fun g => g.write e }
      (act = 0 → s.errorBy raise atLeast cls src ctx addr detail = u) ∧
      (act = 1 → s.errorBy raise atLeast cls src ctx addr detail = logged) ∧
      (act = 2 → s.errorBy raise atLeast cls src ctx addr detail = raise logged ctx { (default : Notice) with type := 3, log := e.bytes }) ∧
      (act = 3 → s.errorBy raise atLeast cls src ctx addr detail = logged.destroy ctx) ∧
      (act = 4 → s.errorBy raise atLeast cls src ctx addr detail = logged.resetGlade x.glade)) ∧
  (∀ (s : State) atLeast cls src ctx addr detail,
    s.errorAtLeast atLeast cls src ctx addr detail = s.errorBy State.raise atLeast cls src ctx addr detail ∧
    s.error cls src ctx addr detail = s.errorBy State.raise 0 cls src ctx addr detail) ∧
  (∀ (s : State) glade cls src addr, let act := (s.gladeAt glade).action cls src
    let e : LogEntry := { time := s.time, addr := addr, ctx := 0xFFFF, cls := cls, source := src, act := if act = 3 then 2 else act,
                          ovf := false, detail := 0 }
    let logged : State := { s with glades := s.glades.alter glade fun g => g.write e }
    (act = 0 → s.report glade cls src addr = s) ∧ (act = 4 → s.report glade cls src addr = logged.resetGlade glade) ∧
    (act ≠ 0 → act ≠ 4 → s.report glade cls src addr = logged)) ∧
  (∀ (s : State) glade cls src ctx addr,
    let e : LogEntry := { time := s.time, addr := addr, ctx := ctx, cls := cls, source := src, act := 1, ovf := false, detail := 0 }
    s.logIn glade cls src ctx addr = if (s.gladeAt glade).action cls src = 0 then s
      else { s with glades := s.glades.alter glade fun g => g.write e }) ∧
  (∀ (g : Glade) cls src, g.action cls src = match g.errsev.at? (cls * 8 + src) with
    | some a => a
    | none => if cls ∈ [2, 3, 7, 9, 10, 14, 15] then 2 else if cls = 4 then 3 else 1) ∧
  (∀ (g : Glade) (e : LogEntry),
    (g.errlog.length < 256 → g.write e = { g with errlog := g.errlog ++ [{ e with ovf := false }], loghead := g.loghead + 1 }) ∧
    (256 ≤ g.errlog.length →
      g.write e = { g with errlog := g.errlog.drop 1 ++ [{ e with ovf := true }], loghead := g.loghead + 1 })) ∧
  (∀ e : LogEntry, let b := e.bytes
    b.length = 32 ∧ fieldOf b 0 8 = e.time % 2 ^ 64 ∧ fieldOf b 8 8 = e.addr.toNat ∧ fieldOf b 0x10 2 = e.ctx % 2 ^ 16 ∧
      fieldOf b 0x12 1 = (e.cls + 16 * e.source) % 256 ∧ fieldOf b 0x13 1 = (e.act + if e.ovf = true then 128 else 0) % 256 ∧
      fieldOf b 0x14 4 = e.detail.toNat ∧ fieldOf b 0x18 8 = 0) ∧
  (∀ (s : State) port glade o data, (∃ b ∈ data, 4 < (b : Byte).toNat % 8) →
    s.writeErrsev port glade o data = s.answerHost port .error) ∧
  (∀ (s : State) k g, s.glades.at? k = some g →
    let t := s.resetGlade k
    t.contextsOf k = [] ∧ (∀ c, c ∉ s.contextsOf k → t.contexts.at? c = s.contexts.at? c) ∧
    (∀ sl o, k ≤ sl → sl < k + g.len → o < sliceBytes → t.dram.read (sl * sliceBytes + o) = 0) ∧
    (∀ e, e < 32 → g.engines.getLsbD e = true → ∀ c, c < 16 → t.channelAt (16 * e + c) = Channel.reset) ∧
    t.hostMem = s.hostMem ∧ (t.gladeAt k).key = s.draws + 1 ∧
    { t.gladeAt k with errlog := g.errlog, loghead := g.loghead, key := g.key } = g) ∧
  ∀ (s : State),
    (s.boot.powered = true → ∃ t, exec .powerOff s = .next t ∧ t.boot.powered = false ∧ t.boot.state = .off ∧ t.boot.fails = 0 ∧
      t.boot.trained = false ∧ t.dram = [] ∧ t.vaultMem = [] ∧ t.contexts = [] ∧ t.groups = [] ∧ t.glades = [] ∧ t.boot.mailbox = [] ∧
      t.lines = [] ∧ ((∀ e ∈ s.lines, e.2.dirty = false) → t.hostMem = s.hostMem)) ∧
    (s.boot.powered = false → ∃ t, exec .powerOn s = .next t ∧ t.boot.powered = true ∧ t.boot.state = .off ∧ t.boot.fails = 0 ∧
      t.boot.trained = false ∧ t.dram = [] ∧ t.contexts = [] ∧ t.glades = [] ∧
      ((∀ e ∈ s.lines, e.2.dirty = false) → t.hostMem = s.hostMem))

/-- R314, R355 to R357: an unlocked interface is locked to a stream, then started, and a stop ends the role of every guardian that
a page of it holds, its orphan moment being that moment; a write to a frozen configuration is refused and logged as
class 8 with its address, under the first context that the VF is bound to (the model's choice, log 60), and it and the failure of the stream put the interface in ERROR; an SPDM session goes through version,
capabilities, algorithms, key exchange and finish, each message in its turn only (that order, and which state allows each message, are the model's choice, log
59; R355 names the messages); in a secured session a signed key is
recorded as the port's identity until the session ends; a certificate written raises its slot's generation, and a
challenge answered after that is an error. -/
def Obligations.SecurityEvents : Prop :=
  (∀ (s : State) vf stream port, s.isReady = true → s.vfPort vf = some port →
    ((s.vfAt vf).tdisp = .unlocked →
      exec (.lockInterfaceRequest vf stream) s = .next (s.setVf vf { tdisp := .locked, stream := stream })) ∧
    ((s.vfAt vf).tdisp = .locked →
      exec (.startInterfaceRequest vf) s = .next (s.setVf vf { s.vfAt vf with tdisp := .run })) ∧
    ((∀ p, p < 4 → (s.pageAt vf p).bound = none) →
      exec (.stopInterfaceRequest vf) s = .next (s.setVf vf { s.vfAt vf with tdisp := .unlocked })) ∧
    exec (.stopInterfaceRequest vf) s =
      .next ((List.range 4).foldl (fun u p => u.endRole vf p) (s.setVf vf { s.vfAt vf with tdisp := .unlocked })) ∧
    (∀ addr, (s.vfAt vf).tdisp = .locked ∨ (s.vfAt vf).tdisp = .run →
      let u := (s.violate port (s.boundTo vf).head? addr).answerHost port .error
      exec (.frozenConfigurationWrite (vf, addr)) s = .next (u.setVf vf { s.vfAt vf with tdisp := .error }) ∧
      u.groups = s.groups ∧ SameMemory s u) ∧
    ∀ addr, (s.vfAt vf).tdisp = .unlocked ∨ (s.vfAt vf).tdisp = .error → exec (.frozenConfigurationWrite (vf, addr)) s = .next s) ∧
  (∀ (s : State) vf page,
    (∀ ctx g, (s.pageAt vf page).bound = some ctx → (s.contextAt ctx).guardianOn vf page = some g →
      s.endRole vf page = s.loseGuardian ctx g s.time) ∧
    ((∀ ctx, (s.pageAt vf page).bound = some ctx → (s.contextAt ctx).guardianOn vf page = none) → s.endRole vf page = s)) ∧
  (∀ (s : State) port stream, s.isReady = true → (s.vfs.map (·.1)).Nodup →
    ∃ t, exec (.ideStreamFailure port stream) s = .next t ∧ { t with vfs := s.vfs } = s ∧
      ∀ e ∈ s.vfs, (t.vfAt e.1).tdisp =
        if s.vfPort e.1 = some port ∧ e.2.stream = stream ∧ (e.2.tdisp = .locked ∨ e.2.tdisp = .run) then .error else e.2.tdisp) ∧
  (∀ (s : State) port, s.isReady = true → port < 4 →
    let p := s.portAt port
    let answered (q : Port) : State := s.setPort port { q with answer := .done }
    exec (.getVersion port) s = .next (answered { p with session := .versioned, identity := none }) ∧
    (p.session = .versioned → exec (.getCapabilities port) s = .next (answered { p with session := .capable })) ∧
    (p.session = .capable → exec (.negotiateAlgorithms port) s = .next (answered { p with session := .negotiated })) ∧
    (p.session = .exchanged → exec (.finish port) s = .next (answered { p with session := .secured })) ∧
    (p.session = .secured → exec (.keyUpdate port) s = .next (answered p) ∧
      exec (.endSession port) s = .next (answered { p with session := .negotiated, identity := none }) ∧
      ∀ key sig, exec (.hostIdentityPresentation port key sig) s =
        .next (if Config.requesterSigned port key sig = true then answered { p with identity := some (Config.sha3 key) }
          else s.setPort port { p with answer := .error })) ∧
    (∀ slot, slot < 8 → p.session = .negotiated → exec (.keyExchange port slot) s = .next (answered { p with session := .exchanged })) ∧
    (p.session ∈ [.negotiated, .exchanged, .secured] →
      exec (.getDigests port) s = .next (answered p) ∧ exec (.getMeasurements port) s = .next (answered p) ∧
      ∀ slot, slot < 8 →
        (∃ t, exec (.getCertificate port slot) s = .next t ∧
          (t.portAt port).answer = .data ((p.slotCert.at? slot).getD []) false ∧ { t with ports := s.ports } = s) ∧
        (∀ nonce, p.challenged = none → exec (.challenge port slot nonce) s =
          .next (answered { p with challenged := some (slot, (p.slotGen.at? slot).getD 0) })) ∧
        (∀ nonce k gen, p.challenged = some (k, gen) →
          ((p.slotGen.at? k).getD 0 = gen → ∃ t, exec (.challenge port slot nonce) s = .next t ∧ (t.portAt port).answer = .done ∧
            (t.portAt port).challenged = none) ∧
          ((p.slotGen.at? k).getD 0 ≠ gen → exec (.challenge port slot nonce) s =
            .next ((s.setPort port { p with answer := .error, challenged := none }).reportWhere
              (fun g => g.ports.getLsbD port) 12 6 (BitVec.ofNat 64 k)))) ∧
        ∀ chain, slot ≠ 0 → exec (.setCertificate port slot chain) s =
          .next (answered { p with slotGen := p.slotGen.put slot ((p.slotGen.at? slot).getD 0 + 1),
                                   slotCert := p.slotCert.put slot chain })) ∧
    (p.session = .none → ∀ e ∈ [Instr.getCapabilities port, .negotiateAlgorithms port, .getDigests port, .keyExchange port 1,
        .finish port, .keyUpdate port, .endSession port, .getMeasurements port, .setCertificate port 1 []],
      exec e s = .next (s.setPort port { p with answer := .error })))
end

