-- ==== Sys2Proof/Laws/Table.lean ====
section
/-! SUPPORT. Reading after writing, for tables and memories, and the canonical form of a memory. -/

namespace Sys2Proof

variable {α : Type}

/-! ## Tables -/

@[simp] theorem Table.at?_put_same (t : Table α) (k : Nat) (v : α) : (t.put k v).at? k = some v := by
  induction t with
  | nil => simp [Table.put, Table.at?]
  | cons e t ih =>
    simp only [Table.put]
    split
    · simp [Table.at?]
    · split
      · simp [Table.at?]
      · simp [Table.at?, *]

@[simp] theorem Table.put_put (t : Table α) (k : Nat) (v w : α) : (t.put k v).put k w = t.put k w := by
  induction t with
  | nil => simp [Table.put]
  | cons e t ih =>
    obtain ⟨i, x⟩ := e
    simp only [Table.put]
    split
    · simp [Table.put]
    · split
      · simp [Table.put, *]
      · simp [Table.put, *]

theorem Table.at?_put_other (t : Table α) {k j : Nat} (v : α) (h : j ≠ k) : (t.put k v).at? j = t.at? j := by
  induction t with
  | nil => simp [Table.put, Table.at?, Ne.symm h]
  | cons e t ih =>
    obtain ⟨i, w⟩ := e
    simp only [Table.put]
    split
    · simp [Table.at?, Ne.symm h]
    · split
      · rename_i hik
        subst hik
        simp [Table.at?, Ne.symm h]
      · simp only [Table.at?, ih]

theorem Table.at?_alter_same (t : Table α) (k : Nat) (f : α → α) : (t.alter k f).at? k = (t.at? k).map f := by
  induction t with
  | nil => rfl
  | cons e t ih =>
    obtain ⟨i, w⟩ := e
    simp only [Table.alter, List.map_cons] at *
    by_cases h : i = k <;> simp [Table.at?, h, ih]

theorem Table.at?_alter_other (t : Table α) {k j : Nat} (f : α → α) (h : j ≠ k) : (t.alter k f).at? j = t.at? j := by
  induction t with
  | nil => rfl
  | cons e t ih =>
    obtain ⟨i, w⟩ := e
    simp only [Table.alter, List.map_cons] at *
    by_cases hi : i = k
    · subst hi; simp [Table.at?, Ne.symm h, ih]
    · simp [Table.at?, hi, ih]

/-! ## Memories -/

namespace Machine

@[simp] theorem Memory.read_write_same (m : Memory) (a : Nat) (b : Byte) (h : m.wf = true) : (m.write a b).read a = b := by
  induction m with
  | nil => by_cases hb : b = unlisted <;> simp [Memory.write, Memory.read, hb]
  | cons e m ih =>
    obtain ⟨i, c⟩ := e
    simp only [Memory.wf, Bool.and_eq_true, decide_eq_true_eq] at h
    obtain ⟨⟨hc, ha⟩, hm⟩ := h
    have low : ∀ (n : Memory) (k j : Nat), Memory.above k n = true → n.wf = true → j ≤ k → n.read j = unlisted := by
      intro n
      induction n with
      | nil => intros; rfl
      | cons e n ihn =>
        obtain ⟨l, d⟩ := e
        intro k j hk hn hj
        simp only [Memory.above, decide_eq_true_eq] at hk
        simp only [Memory.wf, Bool.and_eq_true] at hn
        have hl : l ≠ j := by omega
        simp only [Memory.read, hl, if_false]
        exact ihn l j hn.1.2 hn.2 (by omega)
    simp only [Memory.write]
    split
    · rename_i hai
      split
      · rename_i hb
        have hl : i ≠ a := by omega
        simp only [Memory.read, hl, if_false, hb]
        exact low m i a ha hm (by omega)
      · simp [Memory.read]
    · split
      · rename_i hia
        subst hia
        split
        · rename_i hb
          rw [hb]
          exact low m i i ha hm (le_refl i)
        · simp [Memory.read]
      · rename_i hia
        simp only [Memory.read, hia, if_false]
        exact ih hm

theorem Memory.read_write_other (m : Memory) {a x : Nat} (b : Byte) (h : x ≠ a) : (m.write a b).read x = m.read x := by
  induction m with
  | nil => by_cases hb : b = unlisted <;> simp [Memory.write, Memory.read, hb, Ne.symm h]
  | cons e m ih =>
    obtain ⟨i, c⟩ := e
    simp only [Memory.write]
    split
    · split
      · rfl
      · simp [Memory.read, Ne.symm h]
    · split
      · rename_i hia
        subst hia
        split <;> simp [Memory.read, Ne.symm h]
      · simp only [Memory.read, ih]

theorem Memory.above_le {m : Memory} {k l : Nat} (h : Memory.above l m = true) (hk : k ≤ l) : Memory.above k m = true := by
  cases m with
  | nil => rfl
  | cons e m =>
    simp only [Memory.above, decide_eq_true_eq] at *
    omega

theorem Memory.wf_cons {i : Nat} {c : Byte} {m : Memory} :
    Memory.wf ((i, c) :: m) = true ↔ (c ≠ unlisted ∧ Memory.above i m = true) ∧ m.wf = true := by
  simp [Memory.wf]

theorem Memory.above_write (m : Memory) (k a : Nat) (b : Byte) (hm : m.wf = true) (h : Memory.above k m = true)
    (hk : k < a) : Memory.above k (m.write a b) = true := by
  cases m with
  | nil => by_cases hb : b = unlisted <;> simp [Memory.write, Memory.above, hb, hk]
  | cons e m =>
    obtain ⟨i, c⟩ := e
    simp only [Memory.above, decide_eq_true_eq] at h
    simp only [Memory.write]
    split
    · split <;> simp [Memory.above, h, hk]
    · split
      · split
        · exact Memory.above_le (Memory.wf_cons.mp hm).1.2 (by omega)
        · simp [Memory.above, hk]
      · simp [Memory.above, h]

/-- Writing a byte keeps the canonical form. -/
theorem Memory.wf_write (m : Memory) (a : Nat) (b : Byte) (h : m.wf = true) : (m.write a b).wf = true := by
  induction m with
  | nil => by_cases hb : b = unlisted <;> simp [Memory.write, Memory.wf, Memory.above, hb]
  | cons e m ih =>
    obtain ⟨i, c⟩ := e
    have hc := Memory.wf_cons.mp h
    simp only [Memory.write]
    split
    · rename_i hai
      split
      · exact h
      · rename_i hb
        exact Memory.wf_cons.mpr ⟨⟨hb, by simp [Memory.above, hai]⟩, h⟩
    · split
      · rename_i hia
        split
        · exact hc.2
        · rename_i hb
          exact Memory.wf_cons.mpr ⟨⟨hb, hia ▸ hc.1.2⟩, hc.2⟩
      · rename_i hai hia
        exact Memory.wf_cons.mpr ⟨⟨hc.1.1, Memory.above_write m i a b hc.2 hc.1.2 (by omega)⟩, ih hc.2⟩

/-- Writing bytes keeps the canonical form. -/
theorem Memory.wf_writeN (bs : List Byte) : ∀ (m : Memory) (a : Nat), m.wf = true → (m.writeN a bs).wf = true := by
  induction bs with
  | nil => exact fun _ _ h => h
  | cons b bs ih => exact fun m a h => ih _ _ (Memory.wf_write m a b h)

/-- Clearing addresses keeps the canonical form. -/
theorem Memory.wf_clear (m : Memory) (p : Nat → Bool) (h : m.wf = true) : (m.clear p).wf = true := by
  have up : ∀ (n : Memory) (k : Nat), Memory.above k n = true → n.wf = true → Memory.above k (n.clear p) = true := by
    intro n
    induction n with
    | nil => intros; rfl
    | cons e n ih =>
      obtain ⟨i, c⟩ := e
      intro k hk hn
      have hc := Memory.wf_cons.mp hn
      simp only [Memory.above, decide_eq_true_eq] at hk
      by_cases hp : p i = true
      · simp only [Memory.clear, List.filter_cons, hp] at *
        exact ih k (Memory.above_le hc.1.2 (by omega)) hc.2
      · simp [Memory.clear, hp, Memory.above, hk]
  induction m with
  | nil => rfl
  | cons e m ih =>
    obtain ⟨i, c⟩ := e
    have hc := Memory.wf_cons.mp h
    by_cases hp : p i = true
    · simp only [Memory.clear, List.filter_cons, hp] at *
      exact ih hc.2
    · have := ih hc.2
      simp only [Memory.clear, List.filter_cons, hp] at *
      exact Memory.wf_cons.mpr ⟨⟨hc.1.1, up m i hc.1.2 hc.2⟩, this⟩

/-- The bytes outside those written read as before. -/
theorem Memory.read_writeN_outside (bs : List Byte) : ∀ (m : Memory) (a x : Nat), (x < a ∨ a + bs.length ≤ x) →
    (m.writeN a bs).read x = m.read x := by
  induction bs with
  | nil => intros; rfl
  | cons b bs ih =>
    intro m a x h
    simp only [List.length_cons] at h
    rw [Memory.writeN, ih _ _ _ (by omega), Memory.read_write_other m b (by omega)]

end Machine
end Sys2Proof
end

