-- ==== Sys2Proof/Laws/Ops.lean ====
section
/-! SUPPORT. One lemma for each operation that words share: what a ready word does, what a result that is issued
leaves, which lanes a vector result holds, and what a group that is replaced leaves alone. -/

namespace Sys2Proof.Machine

open Sys2Proof.Safety

/-! ## Running a word -/

/-- A word that is legal as it stands names no illegal field. -/
theorem detail_of_legal {s : State} {g : Group} {i : Instr} (h : illegalDetail s g i = none) : i.detail = none := by
  unfold illegalDetail at h
  revert h
  cases i.detail with
  | none => exact fun _ => rfl
  | some d => cases stateDetail s g i <;> intro h <;> simp [lowerDetail] at h

/-- A ready word has its own effect. -/
theorem word_ready {i : Instr} {s : State} {c : Issue} {g : Group} (h : Ready i s c g) (k : Issue → Group → State) :
    word i s k = .next (k c g) := by
  obtain ⟨h1, h2, h3, h4, h5⟩ := h
  have h6 : (if c.mask = 0 then none else g.regHazard (vectorDests g i)) = none := by
    rcases h4 with h4 | h4 <;> simp [h4]
  have h7 : (if excused c i then i.detail else illegalDetail s g i) = none := by
    split
    · exact detail_of_legal h3
    · exact h3
  simp only [word, h1, h2, h7, h6, h5]
  rfl

/-- An illegal word takes the illegal-instruction trap, whatever its effect would have been (R56), unless it is one that does
nothing (R80, R87). -/
theorem word_illegal {i : Instr} {s : State} {c : Issue} {g : Group} {d : BitVec 8} (hc : s.cur = some c)
    (hg : s.groupAt c.gid = some g) (hx : excused c i = false) (hd : illegalDetail s g i = some d) (k : Issue → Group → State) :
    word i s k = .next (s.trapWord c g 1 d.toNat (BitVec.ofNat 64 c.addr) 0) := by
  simp only [word, hc, hg, hx, hd]
  rfl

/-- A legal word of `lanesAlone` has its effect when it has no issuing lane, whatever registers it names (R80, R171). -/
theorem word_excused {i : Instr} {s : State} {c : Issue} {g : Group} (hc : s.cur = some c) (hg : s.groupAt c.gid = some g)
    (hx : excused c i = true) (hm : c.mask = 0) (hd : i.detail = none) (hr : stalled g i = false) (k : Issue → Group → State) :
    word i s k = .next (k c g) := by
  simp only [word, hc, hg, hx, hd, hm, hr]
  rfl

/-! ## Groups -/

@[simp] theorem groupAt_setGroup_same (s : State) (gid : Nat) (g : Group) : (s.setGroup gid g).groupAt gid = some g :=
  Table.at?_put_same ..

theorem groupAt_setGroup_other (s : State) {gid k : Nat} (g : Group) (h : k ≠ gid) :
    (s.setGroup gid g).groupAt k = s.groupAt k := Table.at?_put_other _ _ h

/-! ## Results -/

/-- What taking a generation leaves alone. -/
theorem takeGen_frame (g : Group) (k : Nat) :
    { g.takeGen k with results := g.results, gens := g.gens, offGens := g.offGens } = g ∧
    (g.takeGen k).results.length = g.results.length := by
  unfold Group.takeGen
  split
  · exact ⟨rfl, rfl⟩
  · exact ⟨rfl, by simp [Group.supersede]⟩

theorem takeGens_frame (ks : List Nat) : ∀ g : Group,
    { ks.foldl Group.takeGen g with results := g.results, gens := g.gens, offGens := g.offGens } = g ∧
    (ks.foldl Group.takeGen g).results.length = g.results.length := by
  induction ks with
  | nil => exact fun g => ⟨rfl, rfl⟩
  | cons k ks ih =>
    intro g
    have h1 := takeGen_frame g k
    have h2 := ih (g.takeGen k)
    simp only [List.foldl_cons]
    refine ⟨?_, by rw [h2.2, h1.2]⟩
    have := congrArg (fun x : Group => { x with results := g.results, gens := g.gens, offGens := g.offGens }) h2.1
    exact this.trans h1.1

/-- A result issued is outstanding, with its number and its generations, and nothing else has changed. -/
theorem pushResult_issued (s : State) (c : Issue) (g : Group) (r : Result) :
    ∃ tag, Issued s (s.pushResult c.gid g r) c g { r with seq := s.nextId, tag := tag } := by
  have h := takeGens_frame r.dest.keys g
  refine ⟨_, ⟨⟨_, groupAt_setGroup_same .., List.getLast?_concat .., ?_, ?_⟩, ?_, rfl⟩⟩
  · simp [h.2]
  · exact h.1
  · exact fun k hk => groupAt_setGroup_other _ _ hk

/-- The lanes that a vector result holds. -/
theorem lanes_at? (n : Nat) (lanes : List Nat) (f : Nat → Nat → Lane) (hl : ∀ i ∈ lanes, i < 64) (k j : Nat) (hk : k < n)
    (hj : j ∈ lanes) :
    Table.at? (((List.range n).map fun k => lanes.map fun i => (64 * k + i, f k i)).flatten) (64 * k + j) = some (f k j) := by
  have row : ∀ (ls : List Nat) (m : Nat) (rest : Table Lane), (∀ i ∈ ls, i < 64) → (m = k → j ∈ ls) →
      (m ≠ k → Table.at? rest (64 * k + j) = some (f k j)) →
      Table.at? ((ls.map fun i => (64 * m + i, f m i)) ++ rest) (64 * k + j) = some (f k j) := by
    intro ls m rest
    induction ls with
    | nil =>
      intro _ hm hr
      by_cases h : m = k
      · simp [h] at hm
      · exact hr h
    | cons a ls ih =>
      intro hls hm hr
      have ha := hls a (by simp)
      have hj64 := hl j hj
      simp only [List.map_cons, List.cons_append, Table.at?]
      split
      · rename_i he
        have h1 : m = k := by omega
        have h2 : a = j := by omega
        simp [h1, h2]
      · rename_i he
        refine ih (fun i hi => hls i (by simp [hi])) (fun h => ?_) hr
        have := hm h
        simp only [List.mem_cons] at this
        rcases this with h' | h'
        · subst h; subst h'; exact absurd rfl he
        · exact h'
  have all : ∀ (ms : List Nat), k ∈ ms →
      Table.at? ((ms.map fun k => lanes.map fun i => (64 * k + i, f k i)).flatten) (64 * k + j) = some (f k j) := by
    intro ms
    induction ms with
    | nil => simp
    | cons m ms ih =>
      intro hm
      simp only [List.map_cons, List.flatten_cons]
      refine row lanes m _ hl (fun _ => hj) (fun h => ih ?_)
      simp only [List.mem_cons] at hm
      exact hm.resolve_left (Ne.symm h)
  exact all _ (by simpa using hk)

theorem mem_lanesOf {w i : Nat} {m : Mask} : i ∈ lanesOf w m ↔ i < w ∧ m.getLsbD i = true := by simp [lanesOf]

/-- A scalar result: issued with the values and flags it was given. -/
theorem scalResult_issued (s : State) (c : Issue) (g : Group) (d : Reg) (vs : List Scalar) (fl : BitVec 5) :
    ∃ r, Issued s (s.scalResult c g d vs fl) c g r ∧ r.dest = g.dest d vs.length ∧ r.svals = vs ∧ r.flags = fl ∧
      r.ready = true := by
  obtain ⟨tag, h⟩ := pushResult_issued s c g
    { (default : Result) with dest := g.dest d vs.length, mask := c.mask, flags := fl, ready := true, svals := vs }
  exact ⟨_, h, rfl, rfl, rfl, rfl⟩

/-- A vector result without an issuing lane is none (R171). -/
theorem vecResult_none (s : State) {c : Issue} (g : Group) (d : Reg) (n : Nat) (fl : BitVec 5) (f : Nat → Nat → Lane)
    (h : c.mask = 0) : s.vecResult c g d n fl f = s := by simp [State.vecResult, h]

/-- A vector result: issued under the issue mask, with the lanes and flags it was given. -/
theorem vecResult_issued (s : State) {c : Issue} (g : Group) (d : Reg) (n : Nat) (fl : BitVec 5) (f : Nat → Nat → Lane)
    (hm : c.mask ≠ 0) : ∃ r, Issued s (s.vecResult c g d n fl f) c g r ∧ r.dest = g.dest d n ∧ r.mask = c.mask ∧ r.flags = fl ∧
      r.ready = true ∧
      ∀ k j, k < n → j < g.width → c.mask.getLsbD j = true → r.vals.at? (64 * k + j) = some (f k j) := by
  obtain ⟨tag, h⟩ := pushResult_issued s c g
    { (default : Result) with
      dest := g.dest d n, mask := c.mask, flags := fl, ready := true,
      vals := ((List.range n).map fun k => (lanesOf g.width c.mask).map fun i => (64 * k + i, f k i)).flatten }
  refine ⟨_, (if_neg hm : s.vecResult c g d n fl f = _) ▸ h, rfl, rfl, rfl, rfl,
    fun k j hk hj hm => lanes_at? n _ f ?_ k j hk (mem_lanesOf.mpr ⟨hj, hm⟩)⟩
  intro i hi
  have := (mem_lanesOf.mp hi).2
  by_contra hge
  simp [BitVec.getLsbD_of_ge _ _ (by omega : 64 ≤ i)] at this

/-! ## Words of one shape -/

/-- A word whose effect is one scalar result. -/
theorem scalarWord_of {i : Instr} {d : Reg} {v : State → Issue → Group → Scalar}
    (h : ∀ s, exec i s = word i s fun c g => s.scalResult c g d [v s c g] 0) : ScalarWord i d v := by
  intro s c g hr
  obtain ⟨r, h1, h2, h3, h4, h5⟩ := scalResult_issued s c g d [v s c g] 0
  exact ⟨_, r, (h s).trans (word_ready hr _), h1, h2, h3, h4, h5⟩

/-- A word whose effect is one vector result. -/
theorem givesLanes_of {i : Instr} {s : State} {c : Issue} {g : Group} {d : Reg} {n : Nat} {f : Nat → Nat → Lane} {fl : BitVec 5}
    (h : exec i s = .next (s.vecResult c g d n fl f)) : GivesLanes i s c g d n f fl := by
  refine ⟨fun hm => by rw [h, vecResult_none s g d n fl f hm], fun hm => ?_⟩
  obtain ⟨r, h1, h2, h3, h4, h5, h6⟩ := vecResult_issued s g d n fl f hm
  exact ⟨_, r, h, h1, h2, h3, h4, h5, h6⟩

/-- A word whose effect is one vector result without flags. -/
theorem laneWord_of {i : Instr} {d : Reg} {f : Group → Nat → Lane}
    (h : ∀ s, exec i s = word i s fun c g => s.vecResult c g d 1 0 fun _ j => f g j) : LaneWord i d f := by
  exact fun s c g hr => givesLanes_of ((h s).trans (word_ready hr _))

/-- A word whose effect is one float result. -/
theorem floatWord_of {i : Instr} {d : Reg} {n : Nat} {f : Group → Nat → Nat → Nat × BitVec 5}
    (h : ∀ s, exec i s = word i s fun c g => s.floatResult c g d n (f g)) : FloatWord i d n f := by
  exact fun s c g hr => givesLanes_of ((h s).trans (word_ready hr _))

/-- A word whose effect is to replace its group. -/
theorem groupWord_of {i : Instr} {f : State → Issue → Group → Group}
    (h : ∀ s, exec i s = word i s fun c g => s.setGroup c.gid (f s c g)) : GroupWord i f :=
  fun s _ _ hr => (h s).trans (word_ready hr _)

end Sys2Proof.Machine
end

