-- ==== Sys2Proof/Laws/Access.lean ====
section
/-! SUPPORT. What locating an access can change: the translations that one core caches, and nothing else. -/

namespace Sys2Proof.Machine

/-- A core replaced by one with the same L1 and clock. -/
theorem setCore_same (s : State) (c : Nat) (x : Core) (h1 : x.l1 = (s.coreAt c).l1) (h2 : x.phase = (s.coreAt c).phase)
    (k : Nat) : ((s.setCore c x).coreAt k).l1 = (s.coreAt k).l1 ∧ ((s.setCore c x).coreAt k).phase = (s.coreAt k).phase := by
  by_cases hk : k = c
  · subst hk
    have : (s.setCore k x).coreAt k = x := by simp [State.coreAt, State.setCore]
    rw [this]
    exact ⟨h1, h2⟩
  · have : (s.setCore c x).coreAt k = s.coreAt k := by simp [State.coreAt, State.setCore, Table.at?_put_other _ _ hk]
    rw [this]
    exact ⟨rfl, rfl⟩

/-- The end of a walk changes nothing, or caches the leaf that was found good. -/
theorem walked_state (s : State) (core ctx va : Nat) (w : Bool) (r : Except Nat Leaf) :
    (s.walked core ctx va w r).1 = s ∨
      ∃ l, (s.walked core ctx va w r).1 = s.setCore core ((s.coreAt core).cacheLeaf ctx l) := by
  cases r with
  | error d => exact .inl rfl
  | ok l =>
    have keep (j : Except (Nat × Nat) Target) : (s.keepGood core ctx l j).1 = s ∨
        (s.keepGood core ctx l j).1 = s.setCore core ((s.coreAt core).cacheLeaf ctx l) := by
      cases j with
      | ok t => exact .inr rfl
      | error e => exact .inl rfl
    exact (keep (s.judge ctx l va w true)).imp id fun h => ⟨l, h⟩

/-- A translation changes nothing, or caches one leaf in the core. -/
theorem translate_state (s : State) (core ctx va : Nat) (w : Bool) :
    (s.translate core ctx va w).1 = s ∨
      ∃ l, (s.translate core ctx va w).1 = s.setCore core ((s.coreAt core).cacheLeaf ctx l) := by
  have fresh := walked_state s core ctx va w (s.walk ctx va)
  unfold State.translate
  generalize s.walk ctx va = r at fresh
  generalize (s.coreAt core).cached ctx va = q
  cases q with
  | none => exact fresh
  | some l =>
    dsimp only
    generalize s.judge ctx l va w true = j
    cases j with
    | ok t => exact .inl rfl
    | error e => exact fresh

/-- The state after a translation differs from the one before in cached translations alone. -/
theorem translate_frame (s : State) (core ctx va : Nat) (w : Bool) :
    (∀ k, ((s.translate core ctx va w).1.coreAt k).l1 = (s.coreAt k).l1 ∧
      ((s.translate core ctx va w).1.coreAt k).phase = (s.coreAt k).phase) ∧
    { (s.translate core ctx va w).1 with cores := s.cores } = s := by
  rcases translate_state s core ctx va w with h | ⟨l, h⟩ <;> rw [h]
  · exact ⟨fun _ => ⟨rfl, rfl⟩, rfl⟩
  · exact ⟨fun k => setCore_same s core ((s.coreAt core).cacheLeaf ctx l) rfl rfl k, rfl⟩

/-- So does the state after one access has been located. -/
theorem locate_frame (s : State) (g : Group) (m : Mapped) (w : Bool) :
    (∀ k, ((s.locate g m w).1.coreAt k).l1 = (s.coreAt k).l1 ∧ ((s.locate g m w).1.coreAt k).phase = (s.coreAt k).phase) ∧
    { (s.locate g m w).1 with cores := s.cores } = s := by
  cases m with
  | global va =>
    have ht := translate_frame s g.core g.ctx va w
    simp only [State.locate]
    split <;> rename_i h <;> rw [h] at ht <;> exact ht
  | here p => cases p <;> exact ⟨fun _ => ⟨rfl, rfl⟩, rfl⟩

/-- An address outside global memory leads to the place that the map gives it. -/
theorem locate_here (s : State) (g : Group) (p q : Place) (w : Bool) (h : (s.locate g (.here p) w).2 = .ok q) : q = p := by
  cases p with
  | vault d v o =>
    simp only [State.locate] at h
    split at h <;> cases h
    rfl
  | _ =>
    simp only [State.locate] at h
    cases h
    rfl

/-- The bytes of a number, each by its place. -/
theorem toBytes_eq (v n : Nat) : toBytes v n = (List.range n).map fun k => BitVec.ofNat 8 (v / 2 ^ (8 * k)) := by
  induction n generalizing v with
  | zero => rfl
  | succ n ih =>
    simp only [toBytes, ih, List.range_succ_eq_map, List.map_cons, List.map_map]
    congr 1
    · simp
    · apply List.map_congr_left
      intro k _
      simp only [Function.comp]
      rw [Nat.div_div_eq_div_mul]
      congr 2
      rw [show 8 * (k + 1) = 8 + 8 * k from by ring, pow_add]
      norm_num

/-- Bytes read as a number and written again. -/
theorem toBytes_fromBytes (l : List Byte) : toBytes (fromBytes l) l.length = l := by
  induction l with
  | nil => rfl
  | cons b bs ih =>
    have h : (b.toNat + 256 * fromBytes bs) / 256 = fromBytes bs := by have := b.isLt; omega
    simp only [fromBytes, List.length_cons, toBytes, h, ih, List.cons.injEq, and_true]
    apply BitVec.eq_of_toNat_eq
    have := b.isLt
    simp only [BitVec.toNat_ofNat]
    omega

/-- A block read in pieces of 64 bytes comes back whole. -/
theorem blockBytes_pieces (l : List Byte) (n : Nat) (h : 64 * n ≤ l.length) :
    blockBytes 64 ((List.range n).map fun k => fromBytes ((l.drop (64 * k)).take 64)) = l.take (64 * n) := by
  induction n with
  | zero => rfl
  | succ n ih =>
    have hl : ((l.drop (64 * n)).take 64).length = 64 := by simp only [List.length_take, List.length_drop]; omega
    have := toBytes_fromBytes ((l.drop (64 * n)).take 64)
    rw [hl] at this
    simp only [blockBytes] at ih
    simp only [blockBytes, List.range_succ, List.map_append, List.flatten_append, ih (by omega), List.map_cons, List.map_nil,
      List.flatten_cons, List.flatten_nil, List.append_nil, this, Nat.mul_add, Nat.mul_one, List.take_add]

end Sys2Proof.Machine
end

