-- ==== Sys2Proof/Laws/Decode.lean ====
section
/-! SUPPORT. The fields of a word that the encoder's formats lay out, and the names of register fields. -/

namespace Sys2Proof

/-! ## Register fields (R37, R38) -/

@[simp] theorem Reg.ofField_field (r : Reg) : Reg.ofField r.field = r := by
  cases r with
  | v n =>
    have h := n.isLt
    have e : (BitVec.ofNat 7 n.val).toNat = n.val := by simp; omega
    simp [Reg.field, Reg.ofField, e, h]
  | s n =>
    have h := n.isLt
    have e : (BitVec.ofNat 7 (96 + n.val)).toNat = 96 + n.val := by simp; omega
    simp only [Reg.field, Reg.ofField, e]
    rw [dif_neg (by omega), dif_pos (by omega)]
    simp
  | _ => rfl

@[simp] theorem Reg.field_ofField (f : BitVec 7) : (Reg.ofField f).field = f := by
  revert f; decide

/-! ## Formats (R52) -/

/-- The fields of an RRR word. -/
theorem rrr_fields (s : Bool) (m : BitVec 4) (f : BitVec 6) (d a b : BitVec 7) :
    parkMark (rrr s m f d a b) = s ∧ majorOf (rrr s m f d a b) = m ∧ fn6Of (rrr s m f d a b) = f ∧ rrrD (rrr s m f d a b) = d ∧
      rrrA (rrr s m f d a b) = a ∧ rrrB (rrr s m f d a b) = b := by
  refine ⟨?_, ?_, ?_, ?_, ?_, ?_⟩
  · simp only [parkMark, rrr, BitVec.getLsbD_append]
    cases s <;> simp
  all_goals
    apply BitVec.eq_of_getLsbD_eq
    intro i hi
    simp only [majorOf, fn6Of, rrrD, rrrA, rrrB, rrr, BitVec.getLsbD_extractLsb', BitVec.getLsbD_append, hi, decide_true, Bool.true_and]
    repeat' split
    all_goals first | omega | (congr 1; omega)

/-- The fields of an RI word. -/
theorem ri_fields (s : Bool) (m : BitVec 4) (f : BitVec 3) (d a : BitVec 7) (k : BitVec 10) :
    parkMark (ri s m f d a k) = s ∧ majorOf (ri s m f d a k) = m ∧ fn3Of (ri s m f d a k) = f ∧ immD (ri s m f d a k) = d ∧
      immA (ri s m f d a k) = a ∧ imm10Of (ri s m f d a k) = k := by
  refine ⟨?_, ?_, ?_, ?_, ?_, ?_⟩
  · simp only [parkMark, ri, BitVec.getLsbD_append]
    cases s <;> simp
  all_goals
    apply BitVec.eq_of_getLsbD_eq
    intro i hi
    simp only [majorOf, fn3Of, immD, immA, imm10Of, ri, BitVec.getLsbD_extractLsb', BitVec.getLsbD_append, hi, decide_true, Bool.true_and]
    repeat' split
    all_goals first | omega | (congr 1; omega)

/-- The fields of an RL or B word. -/
theorem rl_fields (s : Bool) (m : BitVec 4) (f : BitVec 3) (d : BitVec 7) (k : BitVec 17) :
    parkMark (rl s m f d k) = s ∧ majorOf (rl s m f d k) = m ∧ fn3Of (rl s m f d k) = f ∧ immD (rl s m f d k) = d ∧
      imm17Of (rl s m f d k) = k := by
  refine ⟨?_, ?_, ?_, ?_, ?_⟩
  · simp only [parkMark, rl, BitVec.getLsbD_append]
    cases s <;> simp
  all_goals
    apply BitVec.eq_of_getLsbD_eq
    intro i hi
    simp only [majorOf, fn3Of, immD, imm17Of, rl, BitVec.getLsbD_extractLsb', BitVec.getLsbD_append, hi, decide_true, Bool.true_and]
    repeat' split
    all_goals first | omega | (congr 1; omega)

/-- The fields of an MX word. -/
theorem mx_fields (s : Bool) (f : BitVec 3) (d : BitVec 7) (sa sb : BitVec 5) (fmt : BitVec 3) (bsel : BitVec 4) :
    parkMark (mx s f d sa sb fmt bsel) = s ∧ majorOf (mx s f d sa sb fmt bsel) = 6 ∧ fn3Of (mx s f d sa sb fmt bsel) = f ∧
      immD (mx s f d sa sb fmt bsel) = d ∧ mxSa (mx s f d sa sb fmt bsel) = sa ∧ mxSb (mx s f d sa sb fmt bsel) = sb ∧
      mxFmt (mx s f d sa sb fmt bsel) = fmt ∧ mxBsel (mx s f d sa sb fmt bsel) = bsel := by
  refine ⟨?_, ?_, ?_, ?_, ?_, ?_, ?_, ?_⟩
  · simp only [parkMark, mx, BitVec.getLsbD_append]
    cases s <;> simp
  all_goals
    apply BitVec.eq_of_getLsbD_eq
    intro i hi
    simp only [majorOf, fn3Of, immD, mxSa, mxSb, mxFmt, mxBsel, mx, BitVec.getLsbD_extractLsb', BitVec.getLsbD_append, hi, decide_true,
      Bool.true_and]
    repeat' split
    all_goals first | omega | (congr 1; omega)

end Sys2Proof
end

