-- ==== Sys2Proof/Laws/State.lean ====
section
/-! SUPPORT. One lemma for each field of the state under each update, true by definition, so that no proof unfolds a record. -/

namespace Sys2Proof.Machine

/-! ## `setGroup` -/

@[simp] theorem setGroup_agenda (s : State) (k : Nat) (x : Group) : (s.setGroup k x).agenda = s.agenda := rfl
@[simp] theorem setGroup_cur (s : State) (k : Nat) (x : Group) : (s.setGroup k x).cur = s.cur := rfl
@[simp] theorem setGroup_time (s : State) (k : Nat) (x : Group) : (s.setGroup k x).time = s.time := rfl
@[simp] theorem setGroup_epoch (s : State) (k : Nat) (x : Group) : (s.setGroup k x).epoch = s.epoch := rfl
@[simp] theorem setGroup_nextId (s : State) (k : Nat) (x : Group) : (s.setGroup k x).nextId = s.nextId := rfl
@[simp] theorem setGroup_draws (s : State) (k : Nat) (x : Group) : (s.setGroup k x).draws = s.draws := rfl
@[simp] theorem setGroup_boot (s : State) (k : Nat) (x : Group) : (s.setGroup k x).boot = s.boot := rfl
@[simp] theorem setGroup_dram (s : State) (k : Nat) (x : Group) : (s.setGroup k x).dram = s.dram := rfl
@[simp] theorem setGroup_keys (s : State) (k : Nat) (x : Group) : (s.setGroup k x).keys = s.keys := rfl
@[simp] theorem setGroup_hostMem (s : State) (k : Nat) (x : Group) : (s.setGroup k x).hostMem = s.hostMem := rfl
@[simp] theorem setGroup_vaultMem (s : State) (k : Nat) (x : Group) : (s.setGroup k x).vaultMem = s.vaultMem := rfl
@[simp] theorem setGroup_vaultLast (s : State) (k : Nat) (x : Group) : (s.setGroup k x).vaultLast = s.vaultLast := rfl
@[simp] theorem setGroup_lines (s : State) (k : Nat) (x : Group) : (s.setGroup k x).lines = s.lines := rfl
@[simp] theorem setGroup_poison (s : State) (k : Nat) (x : Group) : (s.setGroup k x).poison = s.poison := rfl
@[simp] theorem setGroup_groups (s : State) (k : Nat) (x : Group) : (s.setGroup k x).groups = s.groups.put k x := rfl
@[simp] theorem setGroup_groves (s : State) (k : Nat) (x : Group) : (s.setGroup k x).groves = s.groves := rfl
@[simp] theorem setGroup_launches (s : State) (k : Nat) (x : Group) : (s.setGroup k x).launches = s.launches := rfl
@[simp] theorem setGroup_graphs (s : State) (k : Nat) (x : Group) : (s.setGroup k x).graphs = s.graphs := rfl
@[simp] theorem setGroup_loads (s : State) (k : Nat) (x : Group) : (s.setGroup k x).loads = s.loads := rfl
@[simp] theorem setGroup_entries (s : State) (k : Nat) (x : Group) : (s.setGroup k x).entries = s.entries := rfl
@[simp] theorem setGroup_locals (s : State) (k : Nat) (x : Group) : (s.setGroup k x).locals = s.locals := rfl
@[simp] theorem setGroup_atoms (s : State) (k : Nat) (x : Group) : (s.setGroup k x).atoms = s.atoms := rfl
@[simp] theorem setGroup_contribs (s : State) (k : Nat) (x : Group) : (s.setGroup k x).contribs = s.contribs := rfl
@[simp] theorem setGroup_cores (s : State) (k : Nat) (x : Group) : (s.setGroup k x).cores = s.cores := rfl
@[simp] theorem setGroup_slices (s : State) (k : Nat) (x : Group) : (s.setGroup k x).slices = s.slices := rfl
@[simp] theorem setGroup_channels (s : State) (k : Nat) (x : Group) : (s.setGroup k x).channels = s.channels := rfl
@[simp] theorem setGroup_contexts (s : State) (k : Nat) (x : Group) : (s.setGroup k x).contexts = s.contexts := rfl
@[simp] theorem setGroup_ctxKeys (s : State) (k : Nat) (x : Group) : (s.setGroup k x).ctxKeys = s.ctxKeys := rfl
@[simp] theorem setGroup_glades (s : State) (k : Nat) (x : Group) : (s.setGroup k x).glades = s.glades := rfl
@[simp] theorem setGroup_vfs (s : State) (k : Nat) (x : Group) : (s.setGroup k x).vfs = s.vfs := rfl
@[simp] theorem setGroup_pages (s : State) (k : Nat) (x : Group) : (s.setGroup k x).pages = s.pages := rfl
@[simp] theorem setGroup_ports (s : State) (k : Nat) (x : Group) : (s.setGroup k x).ports = s.ports := rfl
@[simp] theorem setGroup_links (s : State) (k : Nat) (x : Group) : (s.setGroup k x).links = s.links := rfl
@[simp] theorem setGroup_zeroed (s : State) (k : Nat) (x : Group) : (s.setGroup k x).zeroed = s.zeroed := rfl
@[simp] theorem setGroup_slotWrites (s : State) (k : Nat) (x : Group) : (s.setGroup k x).slotWrites = s.slotWrites := rfl
@[simp] theorem setGroup_flights (s : State) (k : Nat) (x : Group) : (s.setGroup k x).flights = s.flights := rfl
@[simp] theorem setGroup_prefetches (s : State) (k : Nat) (x : Group) : (s.setGroup k x).prefetches = s.prefetches := rfl
@[simp] theorem setGroup_asks (s : State) (k : Nat) (x : Group) : (s.setGroup k x).asks = s.asks := rfl
@[simp] theorem setGroup_conflicts (s : State) (k : Nat) (x : Group) : (s.setGroup k x).conflicts = s.conflicts := rfl
@[simp] theorem setGroup_cuts (s : State) (k : Nat) (x : Group) : (s.setGroup k x).cuts = s.cuts := rfl
@[simp] theorem setGroup_doneTime (s : State) (k : Nat) (x : Group) : (s.setGroup k x).doneTime = s.doneTime := rfl

/-! ## `setContext` -/

@[simp] theorem setContext_agenda (s : State) (k : Nat) (x : Context) : (s.setContext k x).agenda = s.agenda := rfl
@[simp] theorem setContext_cur (s : State) (k : Nat) (x : Context) : (s.setContext k x).cur = s.cur := rfl
@[simp] theorem setContext_time (s : State) (k : Nat) (x : Context) : (s.setContext k x).time = s.time := rfl
@[simp] theorem setContext_epoch (s : State) (k : Nat) (x : Context) : (s.setContext k x).epoch = s.epoch := rfl
@[simp] theorem setContext_nextId (s : State) (k : Nat) (x : Context) : (s.setContext k x).nextId = s.nextId := rfl
@[simp] theorem setContext_draws (s : State) (k : Nat) (x : Context) : (s.setContext k x).draws = s.draws := rfl
@[simp] theorem setContext_boot (s : State) (k : Nat) (x : Context) : (s.setContext k x).boot = s.boot := rfl
@[simp] theorem setContext_dram (s : State) (k : Nat) (x : Context) : (s.setContext k x).dram = s.dram := rfl
@[simp] theorem setContext_keys (s : State) (k : Nat) (x : Context) : (s.setContext k x).keys = s.keys := rfl
@[simp] theorem setContext_hostMem (s : State) (k : Nat) (x : Context) : (s.setContext k x).hostMem = s.hostMem := rfl
@[simp] theorem setContext_vaultMem (s : State) (k : Nat) (x : Context) : (s.setContext k x).vaultMem = s.vaultMem := rfl
@[simp] theorem setContext_vaultLast (s : State) (k : Nat) (x : Context) : (s.setContext k x).vaultLast = s.vaultLast := rfl
@[simp] theorem setContext_lines (s : State) (k : Nat) (x : Context) : (s.setContext k x).lines = s.lines := rfl
@[simp] theorem setContext_poison (s : State) (k : Nat) (x : Context) : (s.setContext k x).poison = s.poison := rfl
@[simp] theorem setContext_groups (s : State) (k : Nat) (x : Context) : (s.setContext k x).groups = s.groups := rfl
@[simp] theorem setContext_groves (s : State) (k : Nat) (x : Context) : (s.setContext k x).groves = s.groves := rfl
@[simp] theorem setContext_launches (s : State) (k : Nat) (x : Context) : (s.setContext k x).launches = s.launches := rfl
@[simp] theorem setContext_graphs (s : State) (k : Nat) (x : Context) : (s.setContext k x).graphs = s.graphs := rfl
@[simp] theorem setContext_loads (s : State) (k : Nat) (x : Context) : (s.setContext k x).loads = s.loads := rfl
@[simp] theorem setContext_entries (s : State) (k : Nat) (x : Context) : (s.setContext k x).entries = s.entries := rfl
@[simp] theorem setContext_locals (s : State) (k : Nat) (x : Context) : (s.setContext k x).locals = s.locals := rfl
@[simp] theorem setContext_atoms (s : State) (k : Nat) (x : Context) : (s.setContext k x).atoms = s.atoms := rfl
@[simp] theorem setContext_contribs (s : State) (k : Nat) (x : Context) : (s.setContext k x).contribs = s.contribs := rfl
@[simp] theorem setContext_cores (s : State) (k : Nat) (x : Context) : (s.setContext k x).cores = s.cores := rfl
@[simp] theorem setContext_slices (s : State) (k : Nat) (x : Context) : (s.setContext k x).slices = s.slices := rfl
@[simp] theorem setContext_channels (s : State) (k : Nat) (x : Context) : (s.setContext k x).channels = s.channels := rfl
@[simp] theorem setContext_contexts (s : State) (k : Nat) (x : Context) : (s.setContext k x).contexts = s.contexts.put k x := rfl
@[simp] theorem setContext_ctxKeys (s : State) (k : Nat) (x : Context) : (s.setContext k x).ctxKeys = s.ctxKeys := rfl
@[simp] theorem setContext_glades (s : State) (k : Nat) (x : Context) : (s.setContext k x).glades = s.glades := rfl
@[simp] theorem setContext_vfs (s : State) (k : Nat) (x : Context) : (s.setContext k x).vfs = s.vfs := rfl
@[simp] theorem setContext_pages (s : State) (k : Nat) (x : Context) : (s.setContext k x).pages = s.pages := rfl
@[simp] theorem setContext_ports (s : State) (k : Nat) (x : Context) : (s.setContext k x).ports = s.ports := rfl
@[simp] theorem setContext_links (s : State) (k : Nat) (x : Context) : (s.setContext k x).links = s.links := rfl
@[simp] theorem setContext_zeroed (s : State) (k : Nat) (x : Context) : (s.setContext k x).zeroed = s.zeroed := rfl
@[simp] theorem setContext_slotWrites (s : State) (k : Nat) (x : Context) : (s.setContext k x).slotWrites = s.slotWrites := rfl
@[simp] theorem setContext_flights (s : State) (k : Nat) (x : Context) : (s.setContext k x).flights = s.flights := rfl
@[simp] theorem setContext_prefetches (s : State) (k : Nat) (x : Context) : (s.setContext k x).prefetches = s.prefetches := rfl
@[simp] theorem setContext_asks (s : State) (k : Nat) (x : Context) : (s.setContext k x).asks = s.asks := rfl
@[simp] theorem setContext_conflicts (s : State) (k : Nat) (x : Context) : (s.setContext k x).conflicts = s.conflicts := rfl
@[simp] theorem setContext_cuts (s : State) (k : Nat) (x : Context) : (s.setContext k x).cuts = s.cuts := rfl
@[simp] theorem setContext_doneTime (s : State) (k : Nat) (x : Context) : (s.setContext k x).doneTime = s.doneTime := rfl

/-! ## `setChannel` -/

@[simp] theorem setChannel_agenda (s : State) (k : Nat) (x : Channel) : (s.setChannel k x).agenda = s.agenda := rfl
@[simp] theorem setChannel_cur (s : State) (k : Nat) (x : Channel) : (s.setChannel k x).cur = s.cur := rfl
@[simp] theorem setChannel_time (s : State) (k : Nat) (x : Channel) : (s.setChannel k x).time = s.time := rfl
@[simp] theorem setChannel_epoch (s : State) (k : Nat) (x : Channel) : (s.setChannel k x).epoch = s.epoch := rfl
@[simp] theorem setChannel_nextId (s : State) (k : Nat) (x : Channel) : (s.setChannel k x).nextId = s.nextId := rfl
@[simp] theorem setChannel_draws (s : State) (k : Nat) (x : Channel) : (s.setChannel k x).draws = s.draws := rfl
@[simp] theorem setChannel_boot (s : State) (k : Nat) (x : Channel) : (s.setChannel k x).boot = s.boot := rfl
@[simp] theorem setChannel_dram (s : State) (k : Nat) (x : Channel) : (s.setChannel k x).dram = s.dram := rfl
@[simp] theorem setChannel_keys (s : State) (k : Nat) (x : Channel) : (s.setChannel k x).keys = s.keys := rfl
@[simp] theorem setChannel_hostMem (s : State) (k : Nat) (x : Channel) : (s.setChannel k x).hostMem = s.hostMem := rfl
@[simp] theorem setChannel_vaultMem (s : State) (k : Nat) (x : Channel) : (s.setChannel k x).vaultMem = s.vaultMem := rfl
@[simp] theorem setChannel_vaultLast (s : State) (k : Nat) (x : Channel) : (s.setChannel k x).vaultLast = s.vaultLast := rfl
@[simp] theorem setChannel_lines (s : State) (k : Nat) (x : Channel) : (s.setChannel k x).lines = s.lines := rfl
@[simp] theorem setChannel_poison (s : State) (k : Nat) (x : Channel) : (s.setChannel k x).poison = s.poison := rfl
@[simp] theorem setChannel_groups (s : State) (k : Nat) (x : Channel) : (s.setChannel k x).groups = s.groups := rfl
@[simp] theorem setChannel_groves (s : State) (k : Nat) (x : Channel) : (s.setChannel k x).groves = s.groves := rfl
@[simp] theorem setChannel_launches (s : State) (k : Nat) (x : Channel) : (s.setChannel k x).launches = s.launches := rfl
@[simp] theorem setChannel_graphs (s : State) (k : Nat) (x : Channel) : (s.setChannel k x).graphs = s.graphs := rfl
@[simp] theorem setChannel_loads (s : State) (k : Nat) (x : Channel) : (s.setChannel k x).loads = s.loads := rfl
@[simp] theorem setChannel_entries (s : State) (k : Nat) (x : Channel) : (s.setChannel k x).entries = s.entries := rfl
@[simp] theorem setChannel_locals (s : State) (k : Nat) (x : Channel) : (s.setChannel k x).locals = s.locals := rfl
@[simp] theorem setChannel_atoms (s : State) (k : Nat) (x : Channel) : (s.setChannel k x).atoms = s.atoms := rfl
@[simp] theorem setChannel_contribs (s : State) (k : Nat) (x : Channel) : (s.setChannel k x).contribs = s.contribs := rfl
@[simp] theorem setChannel_cores (s : State) (k : Nat) (x : Channel) : (s.setChannel k x).cores = s.cores := rfl
@[simp] theorem setChannel_slices (s : State) (k : Nat) (x : Channel) : (s.setChannel k x).slices = s.slices := rfl
@[simp] theorem setChannel_channels (s : State) (k : Nat) (x : Channel) : (s.setChannel k x).channels = s.channels.put k x := rfl
@[simp] theorem setChannel_contexts (s : State) (k : Nat) (x : Channel) : (s.setChannel k x).contexts = s.contexts := rfl
@[simp] theorem setChannel_ctxKeys (s : State) (k : Nat) (x : Channel) : (s.setChannel k x).ctxKeys = s.ctxKeys := rfl
@[simp] theorem setChannel_glades (s : State) (k : Nat) (x : Channel) : (s.setChannel k x).glades = s.glades := rfl
@[simp] theorem setChannel_vfs (s : State) (k : Nat) (x : Channel) : (s.setChannel k x).vfs = s.vfs := rfl
@[simp] theorem setChannel_pages (s : State) (k : Nat) (x : Channel) : (s.setChannel k x).pages = s.pages := rfl
@[simp] theorem setChannel_ports (s : State) (k : Nat) (x : Channel) : (s.setChannel k x).ports = s.ports := rfl
@[simp] theorem setChannel_links (s : State) (k : Nat) (x : Channel) : (s.setChannel k x).links = s.links := rfl
@[simp] theorem setChannel_zeroed (s : State) (k : Nat) (x : Channel) : (s.setChannel k x).zeroed = s.zeroed := rfl
@[simp] theorem setChannel_slotWrites (s : State) (k : Nat) (x : Channel) : (s.setChannel k x).slotWrites = s.slotWrites := rfl
@[simp] theorem setChannel_flights (s : State) (k : Nat) (x : Channel) : (s.setChannel k x).flights = s.flights := rfl
@[simp] theorem setChannel_prefetches (s : State) (k : Nat) (x : Channel) : (s.setChannel k x).prefetches = s.prefetches := rfl
@[simp] theorem setChannel_asks (s : State) (k : Nat) (x : Channel) : (s.setChannel k x).asks = s.asks := rfl
@[simp] theorem setChannel_conflicts (s : State) (k : Nat) (x : Channel) : (s.setChannel k x).conflicts = s.conflicts := rfl
@[simp] theorem setChannel_cuts (s : State) (k : Nat) (x : Channel) : (s.setChannel k x).cuts = s.cuts := rfl
@[simp] theorem setChannel_doneTime (s : State) (k : Nat) (x : Channel) : (s.setChannel k x).doneTime = s.doneTime := rfl

/-! ## `setLaunch` -/

@[simp] theorem setLaunch_agenda (s : State) (k : Nat) (x : Launch) : (s.setLaunch k x).agenda = s.agenda := rfl
@[simp] theorem setLaunch_cur (s : State) (k : Nat) (x : Launch) : (s.setLaunch k x).cur = s.cur := rfl
@[simp] theorem setLaunch_time (s : State) (k : Nat) (x : Launch) : (s.setLaunch k x).time = s.time := rfl
@[simp] theorem setLaunch_epoch (s : State) (k : Nat) (x : Launch) : (s.setLaunch k x).epoch = s.epoch := rfl
@[simp] theorem setLaunch_nextId (s : State) (k : Nat) (x : Launch) : (s.setLaunch k x).nextId = s.nextId := rfl
@[simp] theorem setLaunch_draws (s : State) (k : Nat) (x : Launch) : (s.setLaunch k x).draws = s.draws := rfl
@[simp] theorem setLaunch_boot (s : State) (k : Nat) (x : Launch) : (s.setLaunch k x).boot = s.boot := rfl
@[simp] theorem setLaunch_dram (s : State) (k : Nat) (x : Launch) : (s.setLaunch k x).dram = s.dram := rfl
@[simp] theorem setLaunch_keys (s : State) (k : Nat) (x : Launch) : (s.setLaunch k x).keys = s.keys := rfl
@[simp] theorem setLaunch_hostMem (s : State) (k : Nat) (x : Launch) : (s.setLaunch k x).hostMem = s.hostMem := rfl
@[simp] theorem setLaunch_vaultMem (s : State) (k : Nat) (x : Launch) : (s.setLaunch k x).vaultMem = s.vaultMem := rfl
@[simp] theorem setLaunch_vaultLast (s : State) (k : Nat) (x : Launch) : (s.setLaunch k x).vaultLast = s.vaultLast := rfl
@[simp] theorem setLaunch_lines (s : State) (k : Nat) (x : Launch) : (s.setLaunch k x).lines = s.lines := rfl
@[simp] theorem setLaunch_poison (s : State) (k : Nat) (x : Launch) : (s.setLaunch k x).poison = s.poison := rfl
@[simp] theorem setLaunch_groups (s : State) (k : Nat) (x : Launch) : (s.setLaunch k x).groups = s.groups := rfl
@[simp] theorem setLaunch_groves (s : State) (k : Nat) (x : Launch) : (s.setLaunch k x).groves = s.groves := rfl
@[simp] theorem setLaunch_launches (s : State) (k : Nat) (x : Launch) : (s.setLaunch k x).launches = s.launches.put k x := rfl
@[simp] theorem setLaunch_graphs (s : State) (k : Nat) (x : Launch) : (s.setLaunch k x).graphs = s.graphs := rfl
@[simp] theorem setLaunch_loads (s : State) (k : Nat) (x : Launch) : (s.setLaunch k x).loads = s.loads := rfl
@[simp] theorem setLaunch_entries (s : State) (k : Nat) (x : Launch) : (s.setLaunch k x).entries = s.entries := rfl
@[simp] theorem setLaunch_locals (s : State) (k : Nat) (x : Launch) : (s.setLaunch k x).locals = s.locals := rfl
@[simp] theorem setLaunch_atoms (s : State) (k : Nat) (x : Launch) : (s.setLaunch k x).atoms = s.atoms := rfl
@[simp] theorem setLaunch_contribs (s : State) (k : Nat) (x : Launch) : (s.setLaunch k x).contribs = s.contribs := rfl
@[simp] theorem setLaunch_cores (s : State) (k : Nat) (x : Launch) : (s.setLaunch k x).cores = s.cores := rfl
@[simp] theorem setLaunch_slices (s : State) (k : Nat) (x : Launch) : (s.setLaunch k x).slices = s.slices := rfl
@[simp] theorem setLaunch_channels (s : State) (k : Nat) (x : Launch) : (s.setLaunch k x).channels = s.channels := rfl
@[simp] theorem setLaunch_contexts (s : State) (k : Nat) (x : Launch) : (s.setLaunch k x).contexts = s.contexts := rfl
@[simp] theorem setLaunch_ctxKeys (s : State) (k : Nat) (x : Launch) : (s.setLaunch k x).ctxKeys = s.ctxKeys := rfl
@[simp] theorem setLaunch_glades (s : State) (k : Nat) (x : Launch) : (s.setLaunch k x).glades = s.glades := rfl
@[simp] theorem setLaunch_vfs (s : State) (k : Nat) (x : Launch) : (s.setLaunch k x).vfs = s.vfs := rfl
@[simp] theorem setLaunch_pages (s : State) (k : Nat) (x : Launch) : (s.setLaunch k x).pages = s.pages := rfl
@[simp] theorem setLaunch_ports (s : State) (k : Nat) (x : Launch) : (s.setLaunch k x).ports = s.ports := rfl
@[simp] theorem setLaunch_links (s : State) (k : Nat) (x : Launch) : (s.setLaunch k x).links = s.links := rfl
@[simp] theorem setLaunch_zeroed (s : State) (k : Nat) (x : Launch) : (s.setLaunch k x).zeroed = s.zeroed := rfl
@[simp] theorem setLaunch_slotWrites (s : State) (k : Nat) (x : Launch) : (s.setLaunch k x).slotWrites = s.slotWrites := rfl
@[simp] theorem setLaunch_flights (s : State) (k : Nat) (x : Launch) : (s.setLaunch k x).flights = s.flights := rfl
@[simp] theorem setLaunch_prefetches (s : State) (k : Nat) (x : Launch) : (s.setLaunch k x).prefetches = s.prefetches := rfl
@[simp] theorem setLaunch_asks (s : State) (k : Nat) (x : Launch) : (s.setLaunch k x).asks = s.asks := rfl
@[simp] theorem setLaunch_conflicts (s : State) (k : Nat) (x : Launch) : (s.setLaunch k x).conflicts = s.conflicts := rfl
@[simp] theorem setLaunch_cuts (s : State) (k : Nat) (x : Launch) : (s.setLaunch k x).cuts = s.cuts := rfl
@[simp] theorem setLaunch_doneTime (s : State) (k : Nat) (x : Launch) : (s.setLaunch k x).doneTime = s.doneTime := rfl

/-! ## `setGrove` -/

@[simp] theorem setGrove_agenda (s : State) (k : Nat) (x : Grove) : (s.setGrove k x).agenda = s.agenda := rfl
@[simp] theorem setGrove_cur (s : State) (k : Nat) (x : Grove) : (s.setGrove k x).cur = s.cur := rfl
@[simp] theorem setGrove_time (s : State) (k : Nat) (x : Grove) : (s.setGrove k x).time = s.time := rfl
@[simp] theorem setGrove_epoch (s : State) (k : Nat) (x : Grove) : (s.setGrove k x).epoch = s.epoch := rfl
@[simp] theorem setGrove_nextId (s : State) (k : Nat) (x : Grove) : (s.setGrove k x).nextId = s.nextId := rfl
@[simp] theorem setGrove_draws (s : State) (k : Nat) (x : Grove) : (s.setGrove k x).draws = s.draws := rfl
@[simp] theorem setGrove_boot (s : State) (k : Nat) (x : Grove) : (s.setGrove k x).boot = s.boot := rfl
@[simp] theorem setGrove_dram (s : State) (k : Nat) (x : Grove) : (s.setGrove k x).dram = s.dram := rfl
@[simp] theorem setGrove_keys (s : State) (k : Nat) (x : Grove) : (s.setGrove k x).keys = s.keys := rfl
@[simp] theorem setGrove_hostMem (s : State) (k : Nat) (x : Grove) : (s.setGrove k x).hostMem = s.hostMem := rfl
@[simp] theorem setGrove_vaultMem (s : State) (k : Nat) (x : Grove) : (s.setGrove k x).vaultMem = s.vaultMem := rfl
@[simp] theorem setGrove_vaultLast (s : State) (k : Nat) (x : Grove) : (s.setGrove k x).vaultLast = s.vaultLast := rfl
@[simp] theorem setGrove_lines (s : State) (k : Nat) (x : Grove) : (s.setGrove k x).lines = s.lines := rfl
@[simp] theorem setGrove_poison (s : State) (k : Nat) (x : Grove) : (s.setGrove k x).poison = s.poison := rfl
@[simp] theorem setGrove_groups (s : State) (k : Nat) (x : Grove) : (s.setGrove k x).groups = s.groups := rfl
@[simp] theorem setGrove_groves (s : State) (k : Nat) (x : Grove) : (s.setGrove k x).groves = s.groves.put k x := rfl
@[simp] theorem setGrove_launches (s : State) (k : Nat) (x : Grove) : (s.setGrove k x).launches = s.launches := rfl
@[simp] theorem setGrove_graphs (s : State) (k : Nat) (x : Grove) : (s.setGrove k x).graphs = s.graphs := rfl
@[simp] theorem setGrove_loads (s : State) (k : Nat) (x : Grove) : (s.setGrove k x).loads = s.loads := rfl
@[simp] theorem setGrove_entries (s : State) (k : Nat) (x : Grove) : (s.setGrove k x).entries = s.entries := rfl
@[simp] theorem setGrove_locals (s : State) (k : Nat) (x : Grove) : (s.setGrove k x).locals = s.locals := rfl
@[simp] theorem setGrove_atoms (s : State) (k : Nat) (x : Grove) : (s.setGrove k x).atoms = s.atoms := rfl
@[simp] theorem setGrove_contribs (s : State) (k : Nat) (x : Grove) : (s.setGrove k x).contribs = s.contribs := rfl
@[simp] theorem setGrove_cores (s : State) (k : Nat) (x : Grove) : (s.setGrove k x).cores = s.cores := rfl
@[simp] theorem setGrove_slices (s : State) (k : Nat) (x : Grove) : (s.setGrove k x).slices = s.slices := rfl
@[simp] theorem setGrove_channels (s : State) (k : Nat) (x : Grove) : (s.setGrove k x).channels = s.channels := rfl
@[simp] theorem setGrove_contexts (s : State) (k : Nat) (x : Grove) : (s.setGrove k x).contexts = s.contexts := rfl
@[simp] theorem setGrove_ctxKeys (s : State) (k : Nat) (x : Grove) : (s.setGrove k x).ctxKeys = s.ctxKeys := rfl
@[simp] theorem setGrove_glades (s : State) (k : Nat) (x : Grove) : (s.setGrove k x).glades = s.glades := rfl
@[simp] theorem setGrove_vfs (s : State) (k : Nat) (x : Grove) : (s.setGrove k x).vfs = s.vfs := rfl
@[simp] theorem setGrove_pages (s : State) (k : Nat) (x : Grove) : (s.setGrove k x).pages = s.pages := rfl
@[simp] theorem setGrove_ports (s : State) (k : Nat) (x : Grove) : (s.setGrove k x).ports = s.ports := rfl
@[simp] theorem setGrove_links (s : State) (k : Nat) (x : Grove) : (s.setGrove k x).links = s.links := rfl
@[simp] theorem setGrove_zeroed (s : State) (k : Nat) (x : Grove) : (s.setGrove k x).zeroed = s.zeroed := rfl
@[simp] theorem setGrove_slotWrites (s : State) (k : Nat) (x : Grove) : (s.setGrove k x).slotWrites = s.slotWrites := rfl
@[simp] theorem setGrove_flights (s : State) (k : Nat) (x : Grove) : (s.setGrove k x).flights = s.flights := rfl
@[simp] theorem setGrove_prefetches (s : State) (k : Nat) (x : Grove) : (s.setGrove k x).prefetches = s.prefetches := rfl
@[simp] theorem setGrove_asks (s : State) (k : Nat) (x : Grove) : (s.setGrove k x).asks = s.asks := rfl
@[simp] theorem setGrove_conflicts (s : State) (k : Nat) (x : Grove) : (s.setGrove k x).conflicts = s.conflicts := rfl
@[simp] theorem setGrove_cuts (s : State) (k : Nat) (x : Grove) : (s.setGrove k x).cuts = s.cuts := rfl
@[simp] theorem setGrove_doneTime (s : State) (k : Nat) (x : Grove) : (s.setGrove k x).doneTime = s.doneTime := rfl

/-! ## `setGlade` -/

@[simp] theorem setGlade_agenda (s : State) (k : Nat) (x : Glade) : (s.setGlade k x).agenda = s.agenda := rfl
@[simp] theorem setGlade_cur (s : State) (k : Nat) (x : Glade) : (s.setGlade k x).cur = s.cur := rfl
@[simp] theorem setGlade_time (s : State) (k : Nat) (x : Glade) : (s.setGlade k x).time = s.time := rfl
@[simp] theorem setGlade_epoch (s : State) (k : Nat) (x : Glade) : (s.setGlade k x).epoch = s.epoch := rfl
@[simp] theorem setGlade_nextId (s : State) (k : Nat) (x : Glade) : (s.setGlade k x).nextId = s.nextId := rfl
@[simp] theorem setGlade_draws (s : State) (k : Nat) (x : Glade) : (s.setGlade k x).draws = s.draws := rfl
@[simp] theorem setGlade_boot (s : State) (k : Nat) (x : Glade) : (s.setGlade k x).boot = s.boot := rfl
@[simp] theorem setGlade_dram (s : State) (k : Nat) (x : Glade) : (s.setGlade k x).dram = s.dram := rfl
@[simp] theorem setGlade_keys (s : State) (k : Nat) (x : Glade) : (s.setGlade k x).keys = s.keys := rfl
@[simp] theorem setGlade_hostMem (s : State) (k : Nat) (x : Glade) : (s.setGlade k x).hostMem = s.hostMem := rfl
@[simp] theorem setGlade_vaultMem (s : State) (k : Nat) (x : Glade) : (s.setGlade k x).vaultMem = s.vaultMem := rfl
@[simp] theorem setGlade_vaultLast (s : State) (k : Nat) (x : Glade) : (s.setGlade k x).vaultLast = s.vaultLast := rfl
@[simp] theorem setGlade_lines (s : State) (k : Nat) (x : Glade) : (s.setGlade k x).lines = s.lines := rfl
@[simp] theorem setGlade_poison (s : State) (k : Nat) (x : Glade) : (s.setGlade k x).poison = s.poison := rfl
@[simp] theorem setGlade_groups (s : State) (k : Nat) (x : Glade) : (s.setGlade k x).groups = s.groups := rfl
@[simp] theorem setGlade_groves (s : State) (k : Nat) (x : Glade) : (s.setGlade k x).groves = s.groves := rfl
@[simp] theorem setGlade_launches (s : State) (k : Nat) (x : Glade) : (s.setGlade k x).launches = s.launches := rfl
@[simp] theorem setGlade_graphs (s : State) (k : Nat) (x : Glade) : (s.setGlade k x).graphs = s.graphs := rfl
@[simp] theorem setGlade_loads (s : State) (k : Nat) (x : Glade) : (s.setGlade k x).loads = s.loads := rfl
@[simp] theorem setGlade_entries (s : State) (k : Nat) (x : Glade) : (s.setGlade k x).entries = s.entries := rfl
@[simp] theorem setGlade_locals (s : State) (k : Nat) (x : Glade) : (s.setGlade k x).locals = s.locals := rfl
@[simp] theorem setGlade_atoms (s : State) (k : Nat) (x : Glade) : (s.setGlade k x).atoms = s.atoms := rfl
@[simp] theorem setGlade_contribs (s : State) (k : Nat) (x : Glade) : (s.setGlade k x).contribs = s.contribs := rfl
@[simp] theorem setGlade_cores (s : State) (k : Nat) (x : Glade) : (s.setGlade k x).cores = s.cores := rfl
@[simp] theorem setGlade_slices (s : State) (k : Nat) (x : Glade) : (s.setGlade k x).slices = s.slices := rfl
@[simp] theorem setGlade_channels (s : State) (k : Nat) (x : Glade) : (s.setGlade k x).channels = s.channels := rfl
@[simp] theorem setGlade_contexts (s : State) (k : Nat) (x : Glade) : (s.setGlade k x).contexts = s.contexts := rfl
@[simp] theorem setGlade_ctxKeys (s : State) (k : Nat) (x : Glade) : (s.setGlade k x).ctxKeys = s.ctxKeys := rfl
@[simp] theorem setGlade_glades (s : State) (k : Nat) (x : Glade) : (s.setGlade k x).glades = s.glades.put k x := rfl
@[simp] theorem setGlade_vfs (s : State) (k : Nat) (x : Glade) : (s.setGlade k x).vfs = s.vfs := rfl
@[simp] theorem setGlade_pages (s : State) (k : Nat) (x : Glade) : (s.setGlade k x).pages = s.pages := rfl
@[simp] theorem setGlade_ports (s : State) (k : Nat) (x : Glade) : (s.setGlade k x).ports = s.ports := rfl
@[simp] theorem setGlade_links (s : State) (k : Nat) (x : Glade) : (s.setGlade k x).links = s.links := rfl
@[simp] theorem setGlade_zeroed (s : State) (k : Nat) (x : Glade) : (s.setGlade k x).zeroed = s.zeroed := rfl
@[simp] theorem setGlade_slotWrites (s : State) (k : Nat) (x : Glade) : (s.setGlade k x).slotWrites = s.slotWrites := rfl
@[simp] theorem setGlade_flights (s : State) (k : Nat) (x : Glade) : (s.setGlade k x).flights = s.flights := rfl
@[simp] theorem setGlade_prefetches (s : State) (k : Nat) (x : Glade) : (s.setGlade k x).prefetches = s.prefetches := rfl
@[simp] theorem setGlade_asks (s : State) (k : Nat) (x : Glade) : (s.setGlade k x).asks = s.asks := rfl
@[simp] theorem setGlade_conflicts (s : State) (k : Nat) (x : Glade) : (s.setGlade k x).conflicts = s.conflicts := rfl
@[simp] theorem setGlade_cuts (s : State) (k : Nat) (x : Glade) : (s.setGlade k x).cuts = s.cuts := rfl
@[simp] theorem setGlade_doneTime (s : State) (k : Nat) (x : Glade) : (s.setGlade k x).doneTime = s.doneTime := rfl

/-! ## `setCore` -/

@[simp] theorem setCore_agenda (s : State) (k : Nat) (x : Core) : (s.setCore k x).agenda = s.agenda := rfl
@[simp] theorem setCore_cur (s : State) (k : Nat) (x : Core) : (s.setCore k x).cur = s.cur := rfl
@[simp] theorem setCore_time (s : State) (k : Nat) (x : Core) : (s.setCore k x).time = s.time := rfl
@[simp] theorem setCore_epoch (s : State) (k : Nat) (x : Core) : (s.setCore k x).epoch = s.epoch := rfl
@[simp] theorem setCore_nextId (s : State) (k : Nat) (x : Core) : (s.setCore k x).nextId = s.nextId := rfl
@[simp] theorem setCore_draws (s : State) (k : Nat) (x : Core) : (s.setCore k x).draws = s.draws := rfl
@[simp] theorem setCore_boot (s : State) (k : Nat) (x : Core) : (s.setCore k x).boot = s.boot := rfl
@[simp] theorem setCore_dram (s : State) (k : Nat) (x : Core) : (s.setCore k x).dram = s.dram := rfl
@[simp] theorem setCore_keys (s : State) (k : Nat) (x : Core) : (s.setCore k x).keys = s.keys := rfl
@[simp] theorem setCore_hostMem (s : State) (k : Nat) (x : Core) : (s.setCore k x).hostMem = s.hostMem := rfl
@[simp] theorem setCore_vaultMem (s : State) (k : Nat) (x : Core) : (s.setCore k x).vaultMem = s.vaultMem := rfl
@[simp] theorem setCore_vaultLast (s : State) (k : Nat) (x : Core) : (s.setCore k x).vaultLast = s.vaultLast := rfl
@[simp] theorem setCore_lines (s : State) (k : Nat) (x : Core) : (s.setCore k x).lines = s.lines := rfl
@[simp] theorem setCore_poison (s : State) (k : Nat) (x : Core) : (s.setCore k x).poison = s.poison := rfl
@[simp] theorem setCore_groups (s : State) (k : Nat) (x : Core) : (s.setCore k x).groups = s.groups := rfl
@[simp] theorem setCore_groves (s : State) (k : Nat) (x : Core) : (s.setCore k x).groves = s.groves := rfl
@[simp] theorem setCore_launches (s : State) (k : Nat) (x : Core) : (s.setCore k x).launches = s.launches := rfl
@[simp] theorem setCore_graphs (s : State) (k : Nat) (x : Core) : (s.setCore k x).graphs = s.graphs := rfl
@[simp] theorem setCore_loads (s : State) (k : Nat) (x : Core) : (s.setCore k x).loads = s.loads := rfl
@[simp] theorem setCore_entries (s : State) (k : Nat) (x : Core) : (s.setCore k x).entries = s.entries := rfl
@[simp] theorem setCore_locals (s : State) (k : Nat) (x : Core) : (s.setCore k x).locals = s.locals := rfl
@[simp] theorem setCore_atoms (s : State) (k : Nat) (x : Core) : (s.setCore k x).atoms = s.atoms := rfl
@[simp] theorem setCore_contribs (s : State) (k : Nat) (x : Core) : (s.setCore k x).contribs = s.contribs := rfl
@[simp] theorem setCore_cores (s : State) (k : Nat) (x : Core) : (s.setCore k x).cores = s.cores.put k x := rfl
@[simp] theorem setCore_slices (s : State) (k : Nat) (x : Core) : (s.setCore k x).slices = s.slices := rfl
@[simp] theorem setCore_channels (s : State) (k : Nat) (x : Core) : (s.setCore k x).channels = s.channels := rfl
@[simp] theorem setCore_contexts (s : State) (k : Nat) (x : Core) : (s.setCore k x).contexts = s.contexts := rfl
@[simp] theorem setCore_ctxKeys (s : State) (k : Nat) (x : Core) : (s.setCore k x).ctxKeys = s.ctxKeys := rfl
@[simp] theorem setCore_glades (s : State) (k : Nat) (x : Core) : (s.setCore k x).glades = s.glades := rfl
@[simp] theorem setCore_vfs (s : State) (k : Nat) (x : Core) : (s.setCore k x).vfs = s.vfs := rfl
@[simp] theorem setCore_pages (s : State) (k : Nat) (x : Core) : (s.setCore k x).pages = s.pages := rfl
@[simp] theorem setCore_ports (s : State) (k : Nat) (x : Core) : (s.setCore k x).ports = s.ports := rfl
@[simp] theorem setCore_links (s : State) (k : Nat) (x : Core) : (s.setCore k x).links = s.links := rfl
@[simp] theorem setCore_zeroed (s : State) (k : Nat) (x : Core) : (s.setCore k x).zeroed = s.zeroed := rfl
@[simp] theorem setCore_slotWrites (s : State) (k : Nat) (x : Core) : (s.setCore k x).slotWrites = s.slotWrites := rfl
@[simp] theorem setCore_flights (s : State) (k : Nat) (x : Core) : (s.setCore k x).flights = s.flights := rfl
@[simp] theorem setCore_prefetches (s : State) (k : Nat) (x : Core) : (s.setCore k x).prefetches = s.prefetches := rfl
@[simp] theorem setCore_asks (s : State) (k : Nat) (x : Core) : (s.setCore k x).asks = s.asks := rfl
@[simp] theorem setCore_conflicts (s : State) (k : Nat) (x : Core) : (s.setCore k x).conflicts = s.conflicts := rfl
@[simp] theorem setCore_cuts (s : State) (k : Nat) (x : Core) : (s.setCore k x).cuts = s.cuts := rfl
@[simp] theorem setCore_doneTime (s : State) (k : Nat) (x : Core) : (s.setCore k x).doneTime = s.doneTime := rfl

/-! ## `setSlice` -/

@[simp] theorem setSlice_agenda (s : State) (k : Nat) (x : Slice) : (s.setSlice k x).agenda = s.agenda := rfl
@[simp] theorem setSlice_cur (s : State) (k : Nat) (x : Slice) : (s.setSlice k x).cur = s.cur := rfl
@[simp] theorem setSlice_time (s : State) (k : Nat) (x : Slice) : (s.setSlice k x).time = s.time := rfl
@[simp] theorem setSlice_epoch (s : State) (k : Nat) (x : Slice) : (s.setSlice k x).epoch = s.epoch := rfl
@[simp] theorem setSlice_nextId (s : State) (k : Nat) (x : Slice) : (s.setSlice k x).nextId = s.nextId := rfl
@[simp] theorem setSlice_draws (s : State) (k : Nat) (x : Slice) : (s.setSlice k x).draws = s.draws := rfl
@[simp] theorem setSlice_boot (s : State) (k : Nat) (x : Slice) : (s.setSlice k x).boot = s.boot := rfl
@[simp] theorem setSlice_dram (s : State) (k : Nat) (x : Slice) : (s.setSlice k x).dram = s.dram := rfl
@[simp] theorem setSlice_keys (s : State) (k : Nat) (x : Slice) : (s.setSlice k x).keys = s.keys := rfl
@[simp] theorem setSlice_hostMem (s : State) (k : Nat) (x : Slice) : (s.setSlice k x).hostMem = s.hostMem := rfl
@[simp] theorem setSlice_vaultMem (s : State) (k : Nat) (x : Slice) : (s.setSlice k x).vaultMem = s.vaultMem := rfl
@[simp] theorem setSlice_vaultLast (s : State) (k : Nat) (x : Slice) : (s.setSlice k x).vaultLast = s.vaultLast := rfl
@[simp] theorem setSlice_lines (s : State) (k : Nat) (x : Slice) : (s.setSlice k x).lines = s.lines := rfl
@[simp] theorem setSlice_poison (s : State) (k : Nat) (x : Slice) : (s.setSlice k x).poison = s.poison := rfl
@[simp] theorem setSlice_groups (s : State) (k : Nat) (x : Slice) : (s.setSlice k x).groups = s.groups := rfl
@[simp] theorem setSlice_groves (s : State) (k : Nat) (x : Slice) : (s.setSlice k x).groves = s.groves := rfl
@[simp] theorem setSlice_launches (s : State) (k : Nat) (x : Slice) : (s.setSlice k x).launches = s.launches := rfl
@[simp] theorem setSlice_graphs (s : State) (k : Nat) (x : Slice) : (s.setSlice k x).graphs = s.graphs := rfl
@[simp] theorem setSlice_loads (s : State) (k : Nat) (x : Slice) : (s.setSlice k x).loads = s.loads := rfl
@[simp] theorem setSlice_entries (s : State) (k : Nat) (x : Slice) : (s.setSlice k x).entries = s.entries := rfl
@[simp] theorem setSlice_locals (s : State) (k : Nat) (x : Slice) : (s.setSlice k x).locals = s.locals := rfl
@[simp] theorem setSlice_atoms (s : State) (k : Nat) (x : Slice) : (s.setSlice k x).atoms = s.atoms := rfl
@[simp] theorem setSlice_contribs (s : State) (k : Nat) (x : Slice) : (s.setSlice k x).contribs = s.contribs := rfl
@[simp] theorem setSlice_cores (s : State) (k : Nat) (x : Slice) : (s.setSlice k x).cores = s.cores := rfl
@[simp] theorem setSlice_slices (s : State) (k : Nat) (x : Slice) : (s.setSlice k x).slices = s.slices.put k x := rfl
@[simp] theorem setSlice_channels (s : State) (k : Nat) (x : Slice) : (s.setSlice k x).channels = s.channels := rfl
@[simp] theorem setSlice_contexts (s : State) (k : Nat) (x : Slice) : (s.setSlice k x).contexts = s.contexts := rfl
@[simp] theorem setSlice_ctxKeys (s : State) (k : Nat) (x : Slice) : (s.setSlice k x).ctxKeys = s.ctxKeys := rfl
@[simp] theorem setSlice_glades (s : State) (k : Nat) (x : Slice) : (s.setSlice k x).glades = s.glades := rfl
@[simp] theorem setSlice_vfs (s : State) (k : Nat) (x : Slice) : (s.setSlice k x).vfs = s.vfs := rfl
@[simp] theorem setSlice_pages (s : State) (k : Nat) (x : Slice) : (s.setSlice k x).pages = s.pages := rfl
@[simp] theorem setSlice_ports (s : State) (k : Nat) (x : Slice) : (s.setSlice k x).ports = s.ports := rfl
@[simp] theorem setSlice_links (s : State) (k : Nat) (x : Slice) : (s.setSlice k x).links = s.links := rfl
@[simp] theorem setSlice_zeroed (s : State) (k : Nat) (x : Slice) : (s.setSlice k x).zeroed = s.zeroed := rfl
@[simp] theorem setSlice_slotWrites (s : State) (k : Nat) (x : Slice) : (s.setSlice k x).slotWrites = s.slotWrites := rfl
@[simp] theorem setSlice_flights (s : State) (k : Nat) (x : Slice) : (s.setSlice k x).flights = s.flights := rfl
@[simp] theorem setSlice_prefetches (s : State) (k : Nat) (x : Slice) : (s.setSlice k x).prefetches = s.prefetches := rfl
@[simp] theorem setSlice_asks (s : State) (k : Nat) (x : Slice) : (s.setSlice k x).asks = s.asks := rfl
@[simp] theorem setSlice_conflicts (s : State) (k : Nat) (x : Slice) : (s.setSlice k x).conflicts = s.conflicts := rfl
@[simp] theorem setSlice_cuts (s : State) (k : Nat) (x : Slice) : (s.setSlice k x).cuts = s.cuts := rfl
@[simp] theorem setSlice_doneTime (s : State) (k : Nat) (x : Slice) : (s.setSlice k x).doneTime = s.doneTime := rfl

/-! ## `setPort` -/

@[simp] theorem setPort_agenda (s : State) (k : Nat) (x : Port) : (s.setPort k x).agenda = s.agenda := rfl
@[simp] theorem setPort_cur (s : State) (k : Nat) (x : Port) : (s.setPort k x).cur = s.cur := rfl
@[simp] theorem setPort_time (s : State) (k : Nat) (x : Port) : (s.setPort k x).time = s.time := rfl
@[simp] theorem setPort_epoch (s : State) (k : Nat) (x : Port) : (s.setPort k x).epoch = s.epoch := rfl
@[simp] theorem setPort_nextId (s : State) (k : Nat) (x : Port) : (s.setPort k x).nextId = s.nextId := rfl
@[simp] theorem setPort_draws (s : State) (k : Nat) (x : Port) : (s.setPort k x).draws = s.draws := rfl
@[simp] theorem setPort_boot (s : State) (k : Nat) (x : Port) : (s.setPort k x).boot = s.boot := rfl
@[simp] theorem setPort_dram (s : State) (k : Nat) (x : Port) : (s.setPort k x).dram = s.dram := rfl
@[simp] theorem setPort_keys (s : State) (k : Nat) (x : Port) : (s.setPort k x).keys = s.keys := rfl
@[simp] theorem setPort_hostMem (s : State) (k : Nat) (x : Port) : (s.setPort k x).hostMem = s.hostMem := rfl
@[simp] theorem setPort_vaultMem (s : State) (k : Nat) (x : Port) : (s.setPort k x).vaultMem = s.vaultMem := rfl
@[simp] theorem setPort_vaultLast (s : State) (k : Nat) (x : Port) : (s.setPort k x).vaultLast = s.vaultLast := rfl
@[simp] theorem setPort_lines (s : State) (k : Nat) (x : Port) : (s.setPort k x).lines = s.lines := rfl
@[simp] theorem setPort_poison (s : State) (k : Nat) (x : Port) : (s.setPort k x).poison = s.poison := rfl
@[simp] theorem setPort_groups (s : State) (k : Nat) (x : Port) : (s.setPort k x).groups = s.groups := rfl
@[simp] theorem setPort_groves (s : State) (k : Nat) (x : Port) : (s.setPort k x).groves = s.groves := rfl
@[simp] theorem setPort_launches (s : State) (k : Nat) (x : Port) : (s.setPort k x).launches = s.launches := rfl
@[simp] theorem setPort_graphs (s : State) (k : Nat) (x : Port) : (s.setPort k x).graphs = s.graphs := rfl
@[simp] theorem setPort_loads (s : State) (k : Nat) (x : Port) : (s.setPort k x).loads = s.loads := rfl
@[simp] theorem setPort_entries (s : State) (k : Nat) (x : Port) : (s.setPort k x).entries = s.entries := rfl
@[simp] theorem setPort_locals (s : State) (k : Nat) (x : Port) : (s.setPort k x).locals = s.locals := rfl
@[simp] theorem setPort_atoms (s : State) (k : Nat) (x : Port) : (s.setPort k x).atoms = s.atoms := rfl
@[simp] theorem setPort_contribs (s : State) (k : Nat) (x : Port) : (s.setPort k x).contribs = s.contribs := rfl
@[simp] theorem setPort_cores (s : State) (k : Nat) (x : Port) : (s.setPort k x).cores = s.cores := rfl
@[simp] theorem setPort_slices (s : State) (k : Nat) (x : Port) : (s.setPort k x).slices = s.slices := rfl
@[simp] theorem setPort_channels (s : State) (k : Nat) (x : Port) : (s.setPort k x).channels = s.channels := rfl
@[simp] theorem setPort_contexts (s : State) (k : Nat) (x : Port) : (s.setPort k x).contexts = s.contexts := rfl
@[simp] theorem setPort_ctxKeys (s : State) (k : Nat) (x : Port) : (s.setPort k x).ctxKeys = s.ctxKeys := rfl
@[simp] theorem setPort_glades (s : State) (k : Nat) (x : Port) : (s.setPort k x).glades = s.glades := rfl
@[simp] theorem setPort_vfs (s : State) (k : Nat) (x : Port) : (s.setPort k x).vfs = s.vfs := rfl
@[simp] theorem setPort_pages (s : State) (k : Nat) (x : Port) : (s.setPort k x).pages = s.pages := rfl
@[simp] theorem setPort_ports (s : State) (k : Nat) (x : Port) : (s.setPort k x).ports = s.ports.put k x := rfl
@[simp] theorem setPort_links (s : State) (k : Nat) (x : Port) : (s.setPort k x).links = s.links := rfl
@[simp] theorem setPort_zeroed (s : State) (k : Nat) (x : Port) : (s.setPort k x).zeroed = s.zeroed := rfl
@[simp] theorem setPort_slotWrites (s : State) (k : Nat) (x : Port) : (s.setPort k x).slotWrites = s.slotWrites := rfl
@[simp] theorem setPort_flights (s : State) (k : Nat) (x : Port) : (s.setPort k x).flights = s.flights := rfl
@[simp] theorem setPort_prefetches (s : State) (k : Nat) (x : Port) : (s.setPort k x).prefetches = s.prefetches := rfl
@[simp] theorem setPort_asks (s : State) (k : Nat) (x : Port) : (s.setPort k x).asks = s.asks := rfl
@[simp] theorem setPort_conflicts (s : State) (k : Nat) (x : Port) : (s.setPort k x).conflicts = s.conflicts := rfl
@[simp] theorem setPort_cuts (s : State) (k : Nat) (x : Port) : (s.setPort k x).cuts = s.cuts := rfl
@[simp] theorem setPort_doneTime (s : State) (k : Nat) (x : Port) : (s.setPort k x).doneTime = s.doneTime := rfl

/-! ## `setPage` -/

@[simp] theorem setPage_agenda (s : State) (v k : Nat) (x : CtxPage) : (s.setPage v k x).agenda = s.agenda := rfl
@[simp] theorem setPage_cur (s : State) (v k : Nat) (x : CtxPage) : (s.setPage v k x).cur = s.cur := rfl
@[simp] theorem setPage_time (s : State) (v k : Nat) (x : CtxPage) : (s.setPage v k x).time = s.time := rfl
@[simp] theorem setPage_epoch (s : State) (v k : Nat) (x : CtxPage) : (s.setPage v k x).epoch = s.epoch := rfl
@[simp] theorem setPage_nextId (s : State) (v k : Nat) (x : CtxPage) : (s.setPage v k x).nextId = s.nextId := rfl
@[simp] theorem setPage_draws (s : State) (v k : Nat) (x : CtxPage) : (s.setPage v k x).draws = s.draws := rfl
@[simp] theorem setPage_boot (s : State) (v k : Nat) (x : CtxPage) : (s.setPage v k x).boot = s.boot := rfl
@[simp] theorem setPage_dram (s : State) (v k : Nat) (x : CtxPage) : (s.setPage v k x).dram = s.dram := rfl
@[simp] theorem setPage_keys (s : State) (v k : Nat) (x : CtxPage) : (s.setPage v k x).keys = s.keys := rfl
@[simp] theorem setPage_hostMem (s : State) (v k : Nat) (x : CtxPage) : (s.setPage v k x).hostMem = s.hostMem := rfl
@[simp] theorem setPage_vaultMem (s : State) (v k : Nat) (x : CtxPage) : (s.setPage v k x).vaultMem = s.vaultMem := rfl
@[simp] theorem setPage_vaultLast (s : State) (v k : Nat) (x : CtxPage) : (s.setPage v k x).vaultLast = s.vaultLast := rfl
@[simp] theorem setPage_lines (s : State) (v k : Nat) (x : CtxPage) : (s.setPage v k x).lines = s.lines := rfl
@[simp] theorem setPage_poison (s : State) (v k : Nat) (x : CtxPage) : (s.setPage v k x).poison = s.poison := rfl
@[simp] theorem setPage_groups (s : State) (v k : Nat) (x : CtxPage) : (s.setPage v k x).groups = s.groups := rfl
@[simp] theorem setPage_groves (s : State) (v k : Nat) (x : CtxPage) : (s.setPage v k x).groves = s.groves := rfl
@[simp] theorem setPage_launches (s : State) (v k : Nat) (x : CtxPage) : (s.setPage v k x).launches = s.launches := rfl
@[simp] theorem setPage_graphs (s : State) (v k : Nat) (x : CtxPage) : (s.setPage v k x).graphs = s.graphs := rfl
@[simp] theorem setPage_loads (s : State) (v k : Nat) (x : CtxPage) : (s.setPage v k x).loads = s.loads := rfl
@[simp] theorem setPage_entries (s : State) (v k : Nat) (x : CtxPage) : (s.setPage v k x).entries = s.entries := rfl
@[simp] theorem setPage_locals (s : State) (v k : Nat) (x : CtxPage) : (s.setPage v k x).locals = s.locals := rfl
@[simp] theorem setPage_atoms (s : State) (v k : Nat) (x : CtxPage) : (s.setPage v k x).atoms = s.atoms := rfl
@[simp] theorem setPage_contribs (s : State) (v k : Nat) (x : CtxPage) : (s.setPage v k x).contribs = s.contribs := rfl
@[simp] theorem setPage_cores (s : State) (v k : Nat) (x : CtxPage) : (s.setPage v k x).cores = s.cores := rfl
@[simp] theorem setPage_slices (s : State) (v k : Nat) (x : CtxPage) : (s.setPage v k x).slices = s.slices := rfl
@[simp] theorem setPage_channels (s : State) (v k : Nat) (x : CtxPage) : (s.setPage v k x).channels = s.channels := rfl
@[simp] theorem setPage_contexts (s : State) (v k : Nat) (x : CtxPage) : (s.setPage v k x).contexts = s.contexts := rfl
@[simp] theorem setPage_ctxKeys (s : State) (v k : Nat) (x : CtxPage) : (s.setPage v k x).ctxKeys = s.ctxKeys := rfl
@[simp] theorem setPage_glades (s : State) (v k : Nat) (x : CtxPage) : (s.setPage v k x).glades = s.glades := rfl
@[simp] theorem setPage_vfs (s : State) (v k : Nat) (x : CtxPage) : (s.setPage v k x).vfs = s.vfs := rfl
@[simp] theorem setPage_pages (s : State) (v k : Nat) (x : CtxPage) : (s.setPage v k x).pages = s.pages.put (4 * v + k) x := rfl
@[simp] theorem setPage_ports (s : State) (v k : Nat) (x : CtxPage) : (s.setPage v k x).ports = s.ports := rfl
@[simp] theorem setPage_links (s : State) (v k : Nat) (x : CtxPage) : (s.setPage v k x).links = s.links := rfl
@[simp] theorem setPage_zeroed (s : State) (v k : Nat) (x : CtxPage) : (s.setPage v k x).zeroed = s.zeroed := rfl
@[simp] theorem setPage_slotWrites (s : State) (v k : Nat) (x : CtxPage) : (s.setPage v k x).slotWrites = s.slotWrites := rfl
@[simp] theorem setPage_flights (s : State) (v k : Nat) (x : CtxPage) : (s.setPage v k x).flights = s.flights := rfl
@[simp] theorem setPage_prefetches (s : State) (v k : Nat) (x : CtxPage) : (s.setPage v k x).prefetches = s.prefetches := rfl
@[simp] theorem setPage_asks (s : State) (v k : Nat) (x : CtxPage) : (s.setPage v k x).asks = s.asks := rfl
@[simp] theorem setPage_conflicts (s : State) (v k : Nat) (x : CtxPage) : (s.setPage v k x).conflicts = s.conflicts := rfl
@[simp] theorem setPage_cuts (s : State) (v k : Nat) (x : CtxPage) : (s.setPage v k x).cuts = s.cuts := rfl
@[simp] theorem setPage_doneTime (s : State) (v k : Nat) (x : CtxPage) : (s.setPage v k x).doneTime = s.doneTime := rfl

/-! ## `setVf` -/

@[simp] theorem setVf_agenda (s : State) (k : Nat) (x : Vf) : (s.setVf k x).agenda = s.agenda := rfl
@[simp] theorem setVf_cur (s : State) (k : Nat) (x : Vf) : (s.setVf k x).cur = s.cur := rfl
@[simp] theorem setVf_time (s : State) (k : Nat) (x : Vf) : (s.setVf k x).time = s.time := rfl
@[simp] theorem setVf_epoch (s : State) (k : Nat) (x : Vf) : (s.setVf k x).epoch = s.epoch := rfl
@[simp] theorem setVf_nextId (s : State) (k : Nat) (x : Vf) : (s.setVf k x).nextId = s.nextId := rfl
@[simp] theorem setVf_draws (s : State) (k : Nat) (x : Vf) : (s.setVf k x).draws = s.draws := rfl
@[simp] theorem setVf_boot (s : State) (k : Nat) (x : Vf) : (s.setVf k x).boot = s.boot := rfl
@[simp] theorem setVf_dram (s : State) (k : Nat) (x : Vf) : (s.setVf k x).dram = s.dram := rfl
@[simp] theorem setVf_keys (s : State) (k : Nat) (x : Vf) : (s.setVf k x).keys = s.keys := rfl
@[simp] theorem setVf_hostMem (s : State) (k : Nat) (x : Vf) : (s.setVf k x).hostMem = s.hostMem := rfl
@[simp] theorem setVf_vaultMem (s : State) (k : Nat) (x : Vf) : (s.setVf k x).vaultMem = s.vaultMem := rfl
@[simp] theorem setVf_vaultLast (s : State) (k : Nat) (x : Vf) : (s.setVf k x).vaultLast = s.vaultLast := rfl
@[simp] theorem setVf_lines (s : State) (k : Nat) (x : Vf) : (s.setVf k x).lines = s.lines := rfl
@[simp] theorem setVf_poison (s : State) (k : Nat) (x : Vf) : (s.setVf k x).poison = s.poison := rfl
@[simp] theorem setVf_groups (s : State) (k : Nat) (x : Vf) : (s.setVf k x).groups = s.groups := rfl
@[simp] theorem setVf_groves (s : State) (k : Nat) (x : Vf) : (s.setVf k x).groves = s.groves := rfl
@[simp] theorem setVf_launches (s : State) (k : Nat) (x : Vf) : (s.setVf k x).launches = s.launches := rfl
@[simp] theorem setVf_graphs (s : State) (k : Nat) (x : Vf) : (s.setVf k x).graphs = s.graphs := rfl
@[simp] theorem setVf_loads (s : State) (k : Nat) (x : Vf) : (s.setVf k x).loads = s.loads := rfl
@[simp] theorem setVf_entries (s : State) (k : Nat) (x : Vf) : (s.setVf k x).entries = s.entries := rfl
@[simp] theorem setVf_locals (s : State) (k : Nat) (x : Vf) : (s.setVf k x).locals = s.locals := rfl
@[simp] theorem setVf_atoms (s : State) (k : Nat) (x : Vf) : (s.setVf k x).atoms = s.atoms := rfl
@[simp] theorem setVf_contribs (s : State) (k : Nat) (x : Vf) : (s.setVf k x).contribs = s.contribs := rfl
@[simp] theorem setVf_cores (s : State) (k : Nat) (x : Vf) : (s.setVf k x).cores = s.cores := rfl
@[simp] theorem setVf_slices (s : State) (k : Nat) (x : Vf) : (s.setVf k x).slices = s.slices := rfl
@[simp] theorem setVf_channels (s : State) (k : Nat) (x : Vf) : (s.setVf k x).channels = s.channels := rfl
@[simp] theorem setVf_contexts (s : State) (k : Nat) (x : Vf) : (s.setVf k x).contexts = s.contexts := rfl
@[simp] theorem setVf_ctxKeys (s : State) (k : Nat) (x : Vf) : (s.setVf k x).ctxKeys = s.ctxKeys := rfl
@[simp] theorem setVf_glades (s : State) (k : Nat) (x : Vf) : (s.setVf k x).glades = s.glades := rfl
@[simp] theorem setVf_vfs (s : State) (k : Nat) (x : Vf) : (s.setVf k x).vfs = s.vfs.put k x := rfl
@[simp] theorem setVf_pages (s : State) (k : Nat) (x : Vf) : (s.setVf k x).pages = s.pages := rfl
@[simp] theorem setVf_ports (s : State) (k : Nat) (x : Vf) : (s.setVf k x).ports = s.ports := rfl
@[simp] theorem setVf_links (s : State) (k : Nat) (x : Vf) : (s.setVf k x).links = s.links := rfl
@[simp] theorem setVf_zeroed (s : State) (k : Nat) (x : Vf) : (s.setVf k x).zeroed = s.zeroed := rfl
@[simp] theorem setVf_slotWrites (s : State) (k : Nat) (x : Vf) : (s.setVf k x).slotWrites = s.slotWrites := rfl
@[simp] theorem setVf_flights (s : State) (k : Nat) (x : Vf) : (s.setVf k x).flights = s.flights := rfl
@[simp] theorem setVf_prefetches (s : State) (k : Nat) (x : Vf) : (s.setVf k x).prefetches = s.prefetches := rfl
@[simp] theorem setVf_asks (s : State) (k : Nat) (x : Vf) : (s.setVf k x).asks = s.asks := rfl
@[simp] theorem setVf_conflicts (s : State) (k : Nat) (x : Vf) : (s.setVf k x).conflicts = s.conflicts := rfl
@[simp] theorem setVf_cuts (s : State) (k : Nat) (x : Vf) : (s.setVf k x).cuts = s.cuts := rfl
@[simp] theorem setVf_doneTime (s : State) (k : Nat) (x : Vf) : (s.setVf k x).doneTime = s.doneTime := rfl

/-! ## `setLink` -/

@[simp] theorem setLink_agenda (s : State) (k : Nat) (x : Link) : (s.setLink k x).agenda = s.agenda := rfl
@[simp] theorem setLink_cur (s : State) (k : Nat) (x : Link) : (s.setLink k x).cur = s.cur := rfl
@[simp] theorem setLink_time (s : State) (k : Nat) (x : Link) : (s.setLink k x).time = s.time := rfl
@[simp] theorem setLink_epoch (s : State) (k : Nat) (x : Link) : (s.setLink k x).epoch = s.epoch := rfl
@[simp] theorem setLink_nextId (s : State) (k : Nat) (x : Link) : (s.setLink k x).nextId = s.nextId := rfl
@[simp] theorem setLink_draws (s : State) (k : Nat) (x : Link) : (s.setLink k x).draws = s.draws := rfl
@[simp] theorem setLink_boot (s : State) (k : Nat) (x : Link) : (s.setLink k x).boot = s.boot := rfl
@[simp] theorem setLink_dram (s : State) (k : Nat) (x : Link) : (s.setLink k x).dram = s.dram := rfl
@[simp] theorem setLink_keys (s : State) (k : Nat) (x : Link) : (s.setLink k x).keys = s.keys := rfl
@[simp] theorem setLink_hostMem (s : State) (k : Nat) (x : Link) : (s.setLink k x).hostMem = s.hostMem := rfl
@[simp] theorem setLink_vaultMem (s : State) (k : Nat) (x : Link) : (s.setLink k x).vaultMem = s.vaultMem := rfl
@[simp] theorem setLink_vaultLast (s : State) (k : Nat) (x : Link) : (s.setLink k x).vaultLast = s.vaultLast := rfl
@[simp] theorem setLink_lines (s : State) (k : Nat) (x : Link) : (s.setLink k x).lines = s.lines := rfl
@[simp] theorem setLink_poison (s : State) (k : Nat) (x : Link) : (s.setLink k x).poison = s.poison := rfl
@[simp] theorem setLink_groups (s : State) (k : Nat) (x : Link) : (s.setLink k x).groups = s.groups := rfl
@[simp] theorem setLink_groves (s : State) (k : Nat) (x : Link) : (s.setLink k x).groves = s.groves := rfl
@[simp] theorem setLink_launches (s : State) (k : Nat) (x : Link) : (s.setLink k x).launches = s.launches := rfl
@[simp] theorem setLink_graphs (s : State) (k : Nat) (x : Link) : (s.setLink k x).graphs = s.graphs := rfl
@[simp] theorem setLink_loads (s : State) (k : Nat) (x : Link) : (s.setLink k x).loads = s.loads := rfl
@[simp] theorem setLink_entries (s : State) (k : Nat) (x : Link) : (s.setLink k x).entries = s.entries := rfl
@[simp] theorem setLink_locals (s : State) (k : Nat) (x : Link) : (s.setLink k x).locals = s.locals := rfl
@[simp] theorem setLink_atoms (s : State) (k : Nat) (x : Link) : (s.setLink k x).atoms = s.atoms := rfl
@[simp] theorem setLink_contribs (s : State) (k : Nat) (x : Link) : (s.setLink k x).contribs = s.contribs := rfl
@[simp] theorem setLink_cores (s : State) (k : Nat) (x : Link) : (s.setLink k x).cores = s.cores := rfl
@[simp] theorem setLink_slices (s : State) (k : Nat) (x : Link) : (s.setLink k x).slices = s.slices := rfl
@[simp] theorem setLink_channels (s : State) (k : Nat) (x : Link) : (s.setLink k x).channels = s.channels := rfl
@[simp] theorem setLink_contexts (s : State) (k : Nat) (x : Link) : (s.setLink k x).contexts = s.contexts := rfl
@[simp] theorem setLink_ctxKeys (s : State) (k : Nat) (x : Link) : (s.setLink k x).ctxKeys = s.ctxKeys := rfl
@[simp] theorem setLink_glades (s : State) (k : Nat) (x : Link) : (s.setLink k x).glades = s.glades := rfl
@[simp] theorem setLink_vfs (s : State) (k : Nat) (x : Link) : (s.setLink k x).vfs = s.vfs := rfl
@[simp] theorem setLink_pages (s : State) (k : Nat) (x : Link) : (s.setLink k x).pages = s.pages := rfl
@[simp] theorem setLink_ports (s : State) (k : Nat) (x : Link) : (s.setLink k x).ports = s.ports := rfl
@[simp] theorem setLink_links (s : State) (k : Nat) (x : Link) : (s.setLink k x).links = s.links.put k x := rfl
@[simp] theorem setLink_zeroed (s : State) (k : Nat) (x : Link) : (s.setLink k x).zeroed = s.zeroed := rfl
@[simp] theorem setLink_slotWrites (s : State) (k : Nat) (x : Link) : (s.setLink k x).slotWrites = s.slotWrites := rfl
@[simp] theorem setLink_flights (s : State) (k : Nat) (x : Link) : (s.setLink k x).flights = s.flights := rfl
@[simp] theorem setLink_prefetches (s : State) (k : Nat) (x : Link) : (s.setLink k x).prefetches = s.prefetches := rfl
@[simp] theorem setLink_asks (s : State) (k : Nat) (x : Link) : (s.setLink k x).asks = s.asks := rfl
@[simp] theorem setLink_conflicts (s : State) (k : Nat) (x : Link) : (s.setLink k x).conflicts = s.conflicts := rfl
@[simp] theorem setLink_cuts (s : State) (k : Nat) (x : Link) : (s.setLink k x).cuts = s.cuts := rfl
@[simp] theorem setLink_doneTime (s : State) (k : Nat) (x : Link) : (s.setLink k x).doneTime = s.doneTime := rfl

/-! ## `setBad` -/

@[simp] theorem setBad_agenda (s : State) (p : Place) (m : Nat) : (s.setBad p m).agenda = s.agenda := rfl
@[simp] theorem setBad_cur (s : State) (p : Place) (m : Nat) : (s.setBad p m).cur = s.cur := rfl
@[simp] theorem setBad_time (s : State) (p : Place) (m : Nat) : (s.setBad p m).time = s.time := rfl
@[simp] theorem setBad_epoch (s : State) (p : Place) (m : Nat) : (s.setBad p m).epoch = s.epoch := rfl
@[simp] theorem setBad_nextId (s : State) (p : Place) (m : Nat) : (s.setBad p m).nextId = s.nextId := rfl
@[simp] theorem setBad_draws (s : State) (p : Place) (m : Nat) : (s.setBad p m).draws = s.draws := rfl
@[simp] theorem setBad_boot (s : State) (p : Place) (m : Nat) : (s.setBad p m).boot = s.boot := rfl
@[simp] theorem setBad_dram (s : State) (p : Place) (m : Nat) : (s.setBad p m).dram = s.dram := rfl
@[simp] theorem setBad_keys (s : State) (p : Place) (m : Nat) : (s.setBad p m).keys = s.keys := rfl
@[simp] theorem setBad_hostMem (s : State) (p : Place) (m : Nat) : (s.setBad p m).hostMem = s.hostMem := rfl
@[simp] theorem setBad_vaultMem (s : State) (p : Place) (m : Nat) : (s.setBad p m).vaultMem = s.vaultMem := rfl
@[simp] theorem setBad_vaultLast (s : State) (p : Place) (m : Nat) : (s.setBad p m).vaultLast = s.vaultLast := rfl
@[simp] theorem setBad_lines (s : State) (p : Place) (m : Nat) : (s.setBad p m).lines = s.lines := rfl
@[simp] theorem setBad_poison (s : State) (p : Place) (m : Nat) : (s.setBad p m).poison =
    if m = 0 then s.poison.drop p.sectorKey else s.poison.put p.sectorKey m := rfl
@[simp] theorem setBad_groups (s : State) (p : Place) (m : Nat) : (s.setBad p m).groups = s.groups := rfl
@[simp] theorem setBad_groves (s : State) (p : Place) (m : Nat) : (s.setBad p m).groves = s.groves := rfl
@[simp] theorem setBad_launches (s : State) (p : Place) (m : Nat) : (s.setBad p m).launches = s.launches := rfl
@[simp] theorem setBad_graphs (s : State) (p : Place) (m : Nat) : (s.setBad p m).graphs = s.graphs := rfl
@[simp] theorem setBad_loads (s : State) (p : Place) (m : Nat) : (s.setBad p m).loads = s.loads := rfl
@[simp] theorem setBad_entries (s : State) (p : Place) (m : Nat) : (s.setBad p m).entries = s.entries := rfl
@[simp] theorem setBad_locals (s : State) (p : Place) (m : Nat) : (s.setBad p m).locals = s.locals := rfl
@[simp] theorem setBad_atoms (s : State) (p : Place) (m : Nat) : (s.setBad p m).atoms = s.atoms := rfl
@[simp] theorem setBad_contribs (s : State) (p : Place) (m : Nat) : (s.setBad p m).contribs = s.contribs := rfl
@[simp] theorem setBad_cores (s : State) (p : Place) (m : Nat) : (s.setBad p m).cores = s.cores := rfl
@[simp] theorem setBad_slices (s : State) (p : Place) (m : Nat) : (s.setBad p m).slices = s.slices := rfl
@[simp] theorem setBad_channels (s : State) (p : Place) (m : Nat) : (s.setBad p m).channels = s.channels := rfl
@[simp] theorem setBad_contexts (s : State) (p : Place) (m : Nat) : (s.setBad p m).contexts = s.contexts := rfl
@[simp] theorem setBad_ctxKeys (s : State) (p : Place) (m : Nat) : (s.setBad p m).ctxKeys = s.ctxKeys := rfl
@[simp] theorem setBad_glades (s : State) (p : Place) (m : Nat) : (s.setBad p m).glades = s.glades := rfl
@[simp] theorem setBad_vfs (s : State) (p : Place) (m : Nat) : (s.setBad p m).vfs = s.vfs := rfl
@[simp] theorem setBad_pages (s : State) (p : Place) (m : Nat) : (s.setBad p m).pages = s.pages := rfl
@[simp] theorem setBad_ports (s : State) (p : Place) (m : Nat) : (s.setBad p m).ports = s.ports := rfl
@[simp] theorem setBad_links (s : State) (p : Place) (m : Nat) : (s.setBad p m).links = s.links := rfl
@[simp] theorem setBad_zeroed (s : State) (p : Place) (m : Nat) : (s.setBad p m).zeroed = s.zeroed := rfl
@[simp] theorem setBad_slotWrites (s : State) (p : Place) (m : Nat) : (s.setBad p m).slotWrites = s.slotWrites := rfl
@[simp] theorem setBad_flights (s : State) (p : Place) (m : Nat) : (s.setBad p m).flights = s.flights := rfl
@[simp] theorem setBad_prefetches (s : State) (p : Place) (m : Nat) : (s.setBad p m).prefetches = s.prefetches := rfl
@[simp] theorem setBad_asks (s : State) (p : Place) (m : Nat) : (s.setBad p m).asks = s.asks := rfl
@[simp] theorem setBad_conflicts (s : State) (p : Place) (m : Nat) : (s.setBad p m).conflicts = s.conflicts := rfl
@[simp] theorem setBad_cuts (s : State) (p : Place) (m : Nat) : (s.setBad p m).cuts = s.cuts := rfl
@[simp] theorem setBad_doneTime (s : State) (p : Place) (m : Nat) : (s.setBad p m).doneTime = s.doneTime := rfl

/-! ## `clearBad` -/

/-- A byte is marked no more, or nothing changes. -/
theorem clearBad_cases (s : State) (p : Place) : s.clearBad p = s ∨ ∃ m, s.clearBad p = s.setBad p m := by
  unfold State.clearBad; split
  · exact .inr ⟨_, rfl⟩
  · exact .inl rfl

@[simp] theorem clearBad_agenda (s : State) (p : Place) : (s.clearBad p).agenda = s.agenda := by unfold State.clearBad; split <;> rfl
@[simp] theorem clearBad_cur (s : State) (p : Place) : (s.clearBad p).cur = s.cur := by unfold State.clearBad; split <;> rfl
@[simp] theorem clearBad_time (s : State) (p : Place) : (s.clearBad p).time = s.time := by unfold State.clearBad; split <;> rfl
@[simp] theorem clearBad_epoch (s : State) (p : Place) : (s.clearBad p).epoch = s.epoch := by unfold State.clearBad; split <;> rfl
@[simp] theorem clearBad_nextId (s : State) (p : Place) : (s.clearBad p).nextId = s.nextId := by unfold State.clearBad; split <;> rfl
@[simp] theorem clearBad_draws (s : State) (p : Place) : (s.clearBad p).draws = s.draws := by unfold State.clearBad; split <;> rfl
@[simp] theorem clearBad_boot (s : State) (p : Place) : (s.clearBad p).boot = s.boot := by unfold State.clearBad; split <;> rfl
@[simp] theorem clearBad_dram (s : State) (p : Place) : (s.clearBad p).dram = s.dram := by unfold State.clearBad; split <;> rfl
@[simp] theorem clearBad_keys (s : State) (p : Place) : (s.clearBad p).keys = s.keys := by unfold State.clearBad; split <;> rfl
@[simp] theorem clearBad_hostMem (s : State) (p : Place) : (s.clearBad p).hostMem = s.hostMem := by unfold State.clearBad; split <;> rfl
@[simp] theorem clearBad_vaultMem (s : State) (p : Place) : (s.clearBad p).vaultMem = s.vaultMem := by unfold State.clearBad; split <;> rfl
@[simp] theorem clearBad_vaultLast (s : State) (p : Place) : (s.clearBad p).vaultLast = s.vaultLast := by unfold State.clearBad; split <;> rfl
@[simp] theorem clearBad_lines (s : State) (p : Place) : (s.clearBad p).lines = s.lines := by unfold State.clearBad; split <;> rfl
@[simp] theorem clearBad_groups (s : State) (p : Place) : (s.clearBad p).groups = s.groups := by unfold State.clearBad; split <;> rfl
@[simp] theorem clearBad_groves (s : State) (p : Place) : (s.clearBad p).groves = s.groves := by unfold State.clearBad; split <;> rfl
@[simp] theorem clearBad_launches (s : State) (p : Place) : (s.clearBad p).launches = s.launches := by unfold State.clearBad; split <;> rfl
@[simp] theorem clearBad_graphs (s : State) (p : Place) : (s.clearBad p).graphs = s.graphs := by unfold State.clearBad; split <;> rfl
@[simp] theorem clearBad_loads (s : State) (p : Place) : (s.clearBad p).loads = s.loads := by unfold State.clearBad; split <;> rfl
@[simp] theorem clearBad_entries (s : State) (p : Place) : (s.clearBad p).entries = s.entries := by unfold State.clearBad; split <;> rfl
@[simp] theorem clearBad_locals (s : State) (p : Place) : (s.clearBad p).locals = s.locals := by unfold State.clearBad; split <;> rfl
@[simp] theorem clearBad_atoms (s : State) (p : Place) : (s.clearBad p).atoms = s.atoms := by unfold State.clearBad; split <;> rfl
@[simp] theorem clearBad_contribs (s : State) (p : Place) : (s.clearBad p).contribs = s.contribs := by unfold State.clearBad; split <;> rfl
@[simp] theorem clearBad_cores (s : State) (p : Place) : (s.clearBad p).cores = s.cores := by unfold State.clearBad; split <;> rfl
@[simp] theorem clearBad_slices (s : State) (p : Place) : (s.clearBad p).slices = s.slices := by unfold State.clearBad; split <;> rfl
@[simp] theorem clearBad_channels (s : State) (p : Place) : (s.clearBad p).channels = s.channels := by unfold State.clearBad; split <;> rfl
@[simp] theorem clearBad_contexts (s : State) (p : Place) : (s.clearBad p).contexts = s.contexts := by unfold State.clearBad; split <;> rfl
@[simp] theorem clearBad_ctxKeys (s : State) (p : Place) : (s.clearBad p).ctxKeys = s.ctxKeys := by unfold State.clearBad; split <;> rfl
@[simp] theorem clearBad_glades (s : State) (p : Place) : (s.clearBad p).glades = s.glades := by unfold State.clearBad; split <;> rfl
@[simp] theorem clearBad_vfs (s : State) (p : Place) : (s.clearBad p).vfs = s.vfs := by unfold State.clearBad; split <;> rfl
@[simp] theorem clearBad_pages (s : State) (p : Place) : (s.clearBad p).pages = s.pages := by unfold State.clearBad; split <;> rfl
@[simp] theorem clearBad_ports (s : State) (p : Place) : (s.clearBad p).ports = s.ports := by unfold State.clearBad; split <;> rfl
@[simp] theorem clearBad_links (s : State) (p : Place) : (s.clearBad p).links = s.links := by unfold State.clearBad; split <;> rfl
@[simp] theorem clearBad_zeroed (s : State) (p : Place) : (s.clearBad p).zeroed = s.zeroed := by unfold State.clearBad; split <;> rfl
@[simp] theorem clearBad_slotWrites (s : State) (p : Place) : (s.clearBad p).slotWrites = s.slotWrites := by unfold State.clearBad; split <;> rfl
@[simp] theorem clearBad_flights (s : State) (p : Place) : (s.clearBad p).flights = s.flights := by unfold State.clearBad; split <;> rfl
@[simp] theorem clearBad_prefetches (s : State) (p : Place) : (s.clearBad p).prefetches = s.prefetches := by unfold State.clearBad; split <;> rfl
@[simp] theorem clearBad_asks (s : State) (p : Place) : (s.clearBad p).asks = s.asks := by unfold State.clearBad; split <;> rfl
@[simp] theorem clearBad_conflicts (s : State) (p : Place) : (s.clearBad p).conflicts = s.conflicts := by unfold State.clearBad; split <;> rfl
@[simp] theorem clearBad_cuts (s : State) (p : Place) : (s.clearBad p).cuts = s.cuts := by unfold State.clearBad; split <;> rfl
@[simp] theorem clearBad_doneTime (s : State) (p : Place) : (s.clearBad p).doneTime = s.doneTime := by unfold State.clearBad; split <;> rfl

/-! ## `fresh` -/

@[simp] theorem fresh_agenda (s : State) : (s.fresh).agenda = s.agenda := rfl
@[simp] theorem fresh_cur (s : State) : (s.fresh).cur = s.cur := rfl
@[simp] theorem fresh_time (s : State) : (s.fresh).time = s.time := rfl
@[simp] theorem fresh_epoch (s : State) : (s.fresh).epoch = s.epoch := rfl
@[simp] theorem fresh_nextId (s : State) : (s.fresh).nextId = s.nextId + 1 := rfl
@[simp] theorem fresh_draws (s : State) : (s.fresh).draws = s.draws := rfl
@[simp] theorem fresh_boot (s : State) : (s.fresh).boot = s.boot := rfl
@[simp] theorem fresh_dram (s : State) : (s.fresh).dram = s.dram := rfl
@[simp] theorem fresh_keys (s : State) : (s.fresh).keys = s.keys := rfl
@[simp] theorem fresh_hostMem (s : State) : (s.fresh).hostMem = s.hostMem := rfl
@[simp] theorem fresh_vaultMem (s : State) : (s.fresh).vaultMem = s.vaultMem := rfl
@[simp] theorem fresh_vaultLast (s : State) : (s.fresh).vaultLast = s.vaultLast := rfl
@[simp] theorem fresh_lines (s : State) : (s.fresh).lines = s.lines := rfl
@[simp] theorem fresh_poison (s : State) : (s.fresh).poison = s.poison := rfl
@[simp] theorem fresh_groups (s : State) : (s.fresh).groups = s.groups := rfl
@[simp] theorem fresh_groves (s : State) : (s.fresh).groves = s.groves := rfl
@[simp] theorem fresh_launches (s : State) : (s.fresh).launches = s.launches := rfl
@[simp] theorem fresh_graphs (s : State) : (s.fresh).graphs = s.graphs := rfl
@[simp] theorem fresh_loads (s : State) : (s.fresh).loads = s.loads := rfl
@[simp] theorem fresh_entries (s : State) : (s.fresh).entries = s.entries := rfl
@[simp] theorem fresh_locals (s : State) : (s.fresh).locals = s.locals := rfl
@[simp] theorem fresh_atoms (s : State) : (s.fresh).atoms = s.atoms := rfl
@[simp] theorem fresh_contribs (s : State) : (s.fresh).contribs = s.contribs := rfl
@[simp] theorem fresh_cores (s : State) : (s.fresh).cores = s.cores := rfl
@[simp] theorem fresh_slices (s : State) : (s.fresh).slices = s.slices := rfl
@[simp] theorem fresh_channels (s : State) : (s.fresh).channels = s.channels := rfl
@[simp] theorem fresh_contexts (s : State) : (s.fresh).contexts = s.contexts := rfl
@[simp] theorem fresh_ctxKeys (s : State) : (s.fresh).ctxKeys = s.ctxKeys := rfl
@[simp] theorem fresh_glades (s : State) : (s.fresh).glades = s.glades := rfl
@[simp] theorem fresh_vfs (s : State) : (s.fresh).vfs = s.vfs := rfl
@[simp] theorem fresh_pages (s : State) : (s.fresh).pages = s.pages := rfl
@[simp] theorem fresh_ports (s : State) : (s.fresh).ports = s.ports := rfl
@[simp] theorem fresh_links (s : State) : (s.fresh).links = s.links := rfl
@[simp] theorem fresh_zeroed (s : State) : (s.fresh).zeroed = s.zeroed := rfl
@[simp] theorem fresh_slotWrites (s : State) : (s.fresh).slotWrites = s.slotWrites := rfl
@[simp] theorem fresh_flights (s : State) : (s.fresh).flights = s.flights := rfl
@[simp] theorem fresh_prefetches (s : State) : (s.fresh).prefetches = s.prefetches := rfl
@[simp] theorem fresh_asks (s : State) : (s.fresh).asks = s.asks := rfl
@[simp] theorem fresh_conflicts (s : State) : (s.fresh).conflicts = s.conflicts := rfl
@[simp] theorem fresh_cuts (s : State) : (s.fresh).cuts = s.cuts := rfl
@[simp] theorem fresh_doneTime (s : State) : (s.fresh).doneTime = s.doneTime := rfl

/-! ## `draw` -/

@[simp] theorem draw_agenda (s : State) : (s.draw).agenda = s.agenda := rfl
@[simp] theorem draw_cur (s : State) : (s.draw).cur = s.cur := rfl
@[simp] theorem draw_time (s : State) : (s.draw).time = s.time := rfl
@[simp] theorem draw_epoch (s : State) : (s.draw).epoch = s.epoch := rfl
@[simp] theorem draw_nextId (s : State) : (s.draw).nextId = s.nextId := rfl
@[simp] theorem draw_draws (s : State) : (s.draw).draws = s.draws + 1 := rfl
@[simp] theorem draw_boot (s : State) : (s.draw).boot = s.boot := rfl
@[simp] theorem draw_dram (s : State) : (s.draw).dram = s.dram := rfl
@[simp] theorem draw_keys (s : State) : (s.draw).keys = s.keys := rfl
@[simp] theorem draw_hostMem (s : State) : (s.draw).hostMem = s.hostMem := rfl
@[simp] theorem draw_vaultMem (s : State) : (s.draw).vaultMem = s.vaultMem := rfl
@[simp] theorem draw_vaultLast (s : State) : (s.draw).vaultLast = s.vaultLast := rfl
@[simp] theorem draw_lines (s : State) : (s.draw).lines = s.lines := rfl
@[simp] theorem draw_poison (s : State) : (s.draw).poison = s.poison := rfl
@[simp] theorem draw_groups (s : State) : (s.draw).groups = s.groups := rfl
@[simp] theorem draw_groves (s : State) : (s.draw).groves = s.groves := rfl
@[simp] theorem draw_launches (s : State) : (s.draw).launches = s.launches := rfl
@[simp] theorem draw_graphs (s : State) : (s.draw).graphs = s.graphs := rfl
@[simp] theorem draw_loads (s : State) : (s.draw).loads = s.loads := rfl
@[simp] theorem draw_entries (s : State) : (s.draw).entries = s.entries := rfl
@[simp] theorem draw_locals (s : State) : (s.draw).locals = s.locals := rfl
@[simp] theorem draw_atoms (s : State) : (s.draw).atoms = s.atoms := rfl
@[simp] theorem draw_contribs (s : State) : (s.draw).contribs = s.contribs := rfl
@[simp] theorem draw_cores (s : State) : (s.draw).cores = s.cores := rfl
@[simp] theorem draw_slices (s : State) : (s.draw).slices = s.slices := rfl
@[simp] theorem draw_channels (s : State) : (s.draw).channels = s.channels := rfl
@[simp] theorem draw_contexts (s : State) : (s.draw).contexts = s.contexts := rfl
@[simp] theorem draw_ctxKeys (s : State) : (s.draw).ctxKeys = s.ctxKeys := rfl
@[simp] theorem draw_glades (s : State) : (s.draw).glades = s.glades := rfl
@[simp] theorem draw_vfs (s : State) : (s.draw).vfs = s.vfs := rfl
@[simp] theorem draw_pages (s : State) : (s.draw).pages = s.pages := rfl
@[simp] theorem draw_ports (s : State) : (s.draw).ports = s.ports := rfl
@[simp] theorem draw_links (s : State) : (s.draw).links = s.links := rfl
@[simp] theorem draw_zeroed (s : State) : (s.draw).zeroed = s.zeroed := rfl
@[simp] theorem draw_slotWrites (s : State) : (s.draw).slotWrites = s.slotWrites := rfl
@[simp] theorem draw_flights (s : State) : (s.draw).flights = s.flights := rfl
@[simp] theorem draw_prefetches (s : State) : (s.draw).prefetches = s.prefetches := rfl
@[simp] theorem draw_asks (s : State) : (s.draw).asks = s.asks := rfl
@[simp] theorem draw_conflicts (s : State) : (s.draw).conflicts = s.conflicts := rfl
@[simp] theorem draw_cuts (s : State) : (s.draw).cuts = s.cuts := rfl
@[simp] theorem draw_doneTime (s : State) : (s.draw).doneTime = s.doneTime := rfl

/-! ## `fate` -/

@[simp] theorem fate_agenda (s : State) (f : Fate) : (s.fate f).agenda = s.agenda := rfl
@[simp] theorem fate_cur (s : State) (f : Fate) : (s.fate f).cur = s.cur.map fun c => { c with fate := f } := rfl
@[simp] theorem fate_time (s : State) (f : Fate) : (s.fate f).time = s.time := rfl
@[simp] theorem fate_epoch (s : State) (f : Fate) : (s.fate f).epoch = s.epoch := rfl
@[simp] theorem fate_nextId (s : State) (f : Fate) : (s.fate f).nextId = s.nextId := rfl
@[simp] theorem fate_draws (s : State) (f : Fate) : (s.fate f).draws = s.draws := rfl
@[simp] theorem fate_boot (s : State) (f : Fate) : (s.fate f).boot = s.boot := rfl
@[simp] theorem fate_dram (s : State) (f : Fate) : (s.fate f).dram = s.dram := rfl
@[simp] theorem fate_keys (s : State) (f : Fate) : (s.fate f).keys = s.keys := rfl
@[simp] theorem fate_hostMem (s : State) (f : Fate) : (s.fate f).hostMem = s.hostMem := rfl
@[simp] theorem fate_vaultMem (s : State) (f : Fate) : (s.fate f).vaultMem = s.vaultMem := rfl
@[simp] theorem fate_vaultLast (s : State) (f : Fate) : (s.fate f).vaultLast = s.vaultLast := rfl
@[simp] theorem fate_lines (s : State) (f : Fate) : (s.fate f).lines = s.lines := rfl
@[simp] theorem fate_poison (s : State) (f : Fate) : (s.fate f).poison = s.poison := rfl
@[simp] theorem fate_groups (s : State) (f : Fate) : (s.fate f).groups = s.groups := rfl
@[simp] theorem fate_groves (s : State) (f : Fate) : (s.fate f).groves = s.groves := rfl
@[simp] theorem fate_launches (s : State) (f : Fate) : (s.fate f).launches = s.launches := rfl
@[simp] theorem fate_graphs (s : State) (f : Fate) : (s.fate f).graphs = s.graphs := rfl
@[simp] theorem fate_loads (s : State) (f : Fate) : (s.fate f).loads = s.loads := rfl
@[simp] theorem fate_entries (s : State) (f : Fate) : (s.fate f).entries = s.entries := rfl
@[simp] theorem fate_locals (s : State) (f : Fate) : (s.fate f).locals = s.locals := rfl
@[simp] theorem fate_atoms (s : State) (f : Fate) : (s.fate f).atoms = s.atoms := rfl
@[simp] theorem fate_contribs (s : State) (f : Fate) : (s.fate f).contribs = s.contribs := rfl
@[simp] theorem fate_cores (s : State) (f : Fate) : (s.fate f).cores = s.cores := rfl
@[simp] theorem fate_slices (s : State) (f : Fate) : (s.fate f).slices = s.slices := rfl
@[simp] theorem fate_channels (s : State) (f : Fate) : (s.fate f).channels = s.channels := rfl
@[simp] theorem fate_contexts (s : State) (f : Fate) : (s.fate f).contexts = s.contexts := rfl
@[simp] theorem fate_ctxKeys (s : State) (f : Fate) : (s.fate f).ctxKeys = s.ctxKeys := rfl
@[simp] theorem fate_glades (s : State) (f : Fate) : (s.fate f).glades = s.glades := rfl
@[simp] theorem fate_vfs (s : State) (f : Fate) : (s.fate f).vfs = s.vfs := rfl
@[simp] theorem fate_pages (s : State) (f : Fate) : (s.fate f).pages = s.pages := rfl
@[simp] theorem fate_ports (s : State) (f : Fate) : (s.fate f).ports = s.ports := rfl
@[simp] theorem fate_links (s : State) (f : Fate) : (s.fate f).links = s.links := rfl
@[simp] theorem fate_zeroed (s : State) (f : Fate) : (s.fate f).zeroed = s.zeroed := rfl
@[simp] theorem fate_slotWrites (s : State) (f : Fate) : (s.fate f).slotWrites = s.slotWrites := rfl
@[simp] theorem fate_flights (s : State) (f : Fate) : (s.fate f).flights = s.flights := rfl
@[simp] theorem fate_prefetches (s : State) (f : Fate) : (s.fate f).prefetches = s.prefetches := rfl
@[simp] theorem fate_asks (s : State) (f : Fate) : (s.fate f).asks = s.asks := rfl
@[simp] theorem fate_conflicts (s : State) (f : Fate) : (s.fate f).conflicts = s.conflicts := rfl
@[simp] theorem fate_cuts (s : State) (f : Fate) : (s.fate f).cuts = s.cuts := rfl
@[simp] theorem fate_doneTime (s : State) (f : Fate) : (s.fate f).doneTime = s.doneTime := rfl

/-! ## A part that was set, and the others -/

@[simp] theorem contextAt_setContext_same (s : State) (k : Nat) (x : Context) : (s.setContext k x).contextAt k = x := by simp [State.contextAt]
theorem contextAt_setContext_other (s : State) {k j : Nat} (x : Context) (h : j ≠ k) : (s.setContext k x).contextAt j = s.contextAt j := by
  simp [State.contextAt, Table.at?_put_other _ _ h]
@[simp] theorem channelAt_setChannel_same (s : State) (k : Nat) (x : Channel) : (s.setChannel k x).channelAt k = x := by simp [State.channelAt]
theorem channelAt_setChannel_other (s : State) {k j : Nat} (x : Channel) (h : j ≠ k) : (s.setChannel k x).channelAt j = s.channelAt j := by
  simp [State.channelAt, Table.at?_put_other _ _ h]
@[simp] theorem launchAt_setLaunch_same (s : State) (k : Nat) (x : Launch) : (s.setLaunch k x).launchAt k = x := by simp [State.launchAt]
theorem launchAt_setLaunch_other (s : State) {k j : Nat} (x : Launch) (h : j ≠ k) : (s.setLaunch k x).launchAt j = s.launchAt j := by
  simp [State.launchAt, Table.at?_put_other _ _ h]
@[simp] theorem groveAt_setGrove_same (s : State) (k : Nat) (x : Grove) : (s.setGrove k x).groveAt k = x := by simp [State.groveAt]
theorem groveAt_setGrove_other (s : State) {k j : Nat} (x : Grove) (h : j ≠ k) : (s.setGrove k x).groveAt j = s.groveAt j := by
  simp [State.groveAt, Table.at?_put_other _ _ h]
@[simp] theorem gladeAt_setGlade_same (s : State) (k : Nat) (x : Glade) : (s.setGlade k x).gladeAt k = x := by simp [State.gladeAt]
theorem gladeAt_setGlade_other (s : State) {k j : Nat} (x : Glade) (h : j ≠ k) : (s.setGlade k x).gladeAt j = s.gladeAt j := by
  simp [State.gladeAt, Table.at?_put_other _ _ h]
@[simp] theorem coreAt_setCore_same (s : State) (k : Nat) (x : Core) : (s.setCore k x).coreAt k = x := by simp [State.coreAt]
theorem coreAt_setCore_other (s : State) {k j : Nat} (x : Core) (h : j ≠ k) : (s.setCore k x).coreAt j = s.coreAt j := by
  simp [State.coreAt, Table.at?_put_other _ _ h]
@[simp] theorem sliceAt_setSlice_same (s : State) (k : Nat) (x : Slice) : (s.setSlice k x).sliceAt k = x := by simp [State.sliceAt]
theorem sliceAt_setSlice_other (s : State) {k j : Nat} (x : Slice) (h : j ≠ k) : (s.setSlice k x).sliceAt j = s.sliceAt j := by
  simp [State.sliceAt, Table.at?_put_other _ _ h]
@[simp] theorem portAt_setPort_same (s : State) (k : Nat) (x : Port) : (s.setPort k x).portAt k = x := by simp [State.portAt]
theorem portAt_setPort_other (s : State) {k j : Nat} (x : Port) (h : j ≠ k) : (s.setPort k x).portAt j = s.portAt j := by
  simp [State.portAt, Table.at?_put_other _ _ h]
@[simp] theorem vfAt_setVf_same (s : State) (k : Nat) (x : Vf) : (s.setVf k x).vfAt k = x := by simp [State.vfAt]
theorem vfAt_setVf_other (s : State) {k j : Nat} (x : Vf) (h : j ≠ k) : (s.setVf k x).vfAt j = s.vfAt j := by
  simp [State.vfAt, Table.at?_put_other _ _ h]
@[simp] theorem linkAt_setLink_same (s : State) (k : Nat) (x : Link) : (s.setLink k x).linkAt k = x := by simp [State.linkAt]
theorem linkAt_setLink_other (s : State) {k j : Nat} (x : Link) (h : j ≠ k) : (s.setLink k x).linkAt j = s.linkAt j := by
  simp [State.linkAt, Table.at?_put_other _ _ h]

end Sys2Proof.Machine
end

