-- ==== Sys2Proof/Laws/Memory.lean ====
section
/-! SUPPORT. Every operation on the package's memories keeps their canonical form, and
what a write leaves alone. -/

namespace Sys2Proof.Machine

open Sys2Proof.Safety

/-! ## The canonical form -/

theorem canonical_of_same {s t : State} (h : SameMemory s t) (hs : Canonical s) : Canonical t := by
  obtain ⟨h1, h2, h3, -⟩ := h
  exact ⟨h1 ▸ hs.1, h2 ▸ hs.2.1, h3 ▸ hs.2.2⟩

/-- What bringing a line under a key comes to: nothing; the line's key; or its bytes too. -/
theorem rekey_cases (s : State) (key sl o : Nat) : ∃ k m, s.rekey key sl o = { s with keys := k, dram := m } ∧
    (m = s.dram ∨ ∃ a bs, m = s.dram.writeN a bs) := by
  unfold State.rekey
  dsimp only
  generalize s.writtenKey sl o = w
  by_cases h : w = key
  · exact ⟨s.keys, s.dram, by rw [if_pos h], .inl rfl⟩
  · by_cases h0 : w = 0
    · exact ⟨_, s.dram, by rw [if_neg h, if_pos h0], .inl rfl⟩
    · exact ⟨_, _, by rw [if_neg h, if_neg h0], .inr ⟨_, _, rfl⟩⟩

theorem canonical_rekey (s : State) (key sl o : Nat) (h : Canonical s) : Canonical (s.rekey key sl o) := by
  obtain ⟨k, m, e, rfl | ⟨a, bs, rfl⟩⟩ := rekey_cases s key sl o <;> rw [e]
  · exact h
  · exact ⟨Memory.wf_writeN _ _ _ h.1, h.2.1, h.2.2⟩

theorem canonical_clearBad (s : State) (p : Place) (h : Canonical s) : Canonical (s.clearBad p) :=
  canonical_of_same ⟨clearBad_dram .., clearBad_hostMem .., clearBad_vaultMem .., clearBad_keys ..⟩ h

theorem canonical_storeByte (s : State) (key : Nat) (p : Place) (b : Byte) (h : Canonical s) : Canonical (s.storeByte key p b) := by
  cases p with
  | dram sl o =>
    have k := canonical_rekey s key sl o h
    exact ⟨Memory.wf_write _ _ _ k.1, k.2.1, k.2.2⟩
  | host q _ a => exact ⟨h.1, Memory.wf_write _ _ _ h.2.1, h.2.2⟩
  | scratch g o => exact h
  | regs g o => exact h
  | vault d v o => exact ⟨h.1, h.2.1, Memory.wf_write _ _ _ h.2.2⟩

theorem canonical_putByte (s : State) (key : Nat) (p : Place) (b : Byte) (h : Canonical s) : Canonical (s.putByte key p b) :=
  canonical_storeByte _ key p b (canonical_clearBad s p h)

theorem canonical_putBytes (bs : List Byte) : ∀ (s : State) (key : Nat) (p : Place), Canonical s → Canonical (s.putBytes key p bs) := by
  induction bs with
  | nil => exact fun s key p h => h
  | cons b bs ih => exact fun s key p h => ih _ _ _ (canonical_putByte s key p b h)

theorem canonical_setLine (s : State) (p : Place) (x : Line) (h : Canonical s) : Canonical (s.setLine p x) := by
  simp only [State.setLine]
  split <;> exact h

theorem keyOf_setLine (s : State) (p : Place) (x : Line) (ctx : Nat) : (s.setLine p x).keyOf ctx = s.keyOf ctx := by
  simp only [State.setLine]
  split <;> rfl

theorem canonical_untrackKey (s : State) (h k : Nat) (hs : Canonical s) : Canonical (s.untrackKey h k) := by
  unfold State.untrackKey
  split <;> exact hs

/-- What a line's taking its place in an L3 leaves alone: every memory. -/
theorem holdLine_same (s : State) (ctx : Nat) (p : Place) : SameMemory s (s.holdLine ctx p) := by
  unfold State.holdLine
  split
  · exact ⟨rfl, rfl, rfl, rfl⟩
  · dsimp only
    split <;> exact ⟨rfl, rfl, rfl, rfl⟩

theorem canonical_holdLine (s : State) (ctx : Nat) (p : Place) (h : Canonical s) : Canonical (s.holdLine ctx p) :=
  canonical_of_same (holdLine_same s ctx p) h

theorem canonical_writeAtHome (s : State) (ctx : Nat) (p : Place) (bytes : List Byte) (t : Nat) (h : Canonical s) :
    Canonical (s.writeAtHome ctx p bytes t) := by
  exact canonical_holdLine _ _ _ (canonical_putBytes bytes _ _ p (canonical_setLine s p _ h))

theorem canonical_storeLine (s : State) (ctx : Nat) (line : Place) (bytes : Table Byte) (clk : Nat) (h : Canonical s) :
    Canonical (s.storeLine ctx line bytes clk).1 := by
  have fold : ∀ (l : Table Byte) (t : State), Canonical t →
      Canonical (l.foldl (fun s e => s.putByte (s.keyOf ctx) (line.plus e.1) e.2) t) := by
    intro l
    induction l with
    | nil => exact fun t ht => ht
    | cons e l ih => exact fun t ht => ih _ (canonical_putByte t _ _ _ ht)
  exact canonical_holdLine _ _ _ (fold _ _ (canonical_setLine s line _ h))

theorem canonical_zeroDram (s : State) (z : Zeroing) (h : Canonical s) : Canonical (s.zeroDram z) := by
  have k := Memory.wf_clear s.dram (fun a => z.holds (a / sliceBytes) (a % sliceBytes)) h.1
  exact ⟨k, h.2.1, h.2.2⟩

theorem canonical_zeroVaults (s : State) (p : Nat → Nat → Bool) (h : Canonical s) : Canonical (s.zeroVaults p) := by
  have k := Memory.wf_clear s.vaultMem (fun a => p (a / vaultBytes / 72) (a / vaultBytes % 72)) h.2.2
  exact ⟨h.1, h.2.1, k⟩

/-! ## Other parts of the state -/

/-- A byte written changes the memories, the scratch of a grove or the registers of a group, the keys of DRAM lines and the marks
of poison; nothing else. -/
theorem putByte_frame (s : State) (key : Nat) (p : Place) (b : Byte) :
    { s.putByte key p b with dram := s.dram, hostMem := s.hostMem, vaultMem := s.vaultMem, keys := s.keys, groves := s.groves,
                             groups := s.groups, poison := s.poison } = s := by
  have store (t : State) : { t.storeByte key p b with dram := t.dram, hostMem := t.hostMem, vaultMem := t.vaultMem, keys := t.keys,
                                                      groves := t.groves, groups := t.groups } = t := by
    cases p with
    | dram sl o =>
      obtain ⟨k, m, e, -⟩ := rekey_cases t key sl o
      simp only [State.storeByte, e]
    | host q _ a => rfl
    | scratch g o => rfl
    | regs g o => rfl
    | vault d v o => rfl
  rcases clearBad_cases s p with h | ⟨m, h⟩ <;> rw [State.putByte, h]
  · exact congrArg (fun x : State => { x with poison := s.poison }) (store s)
  · exact congrArg (fun x : State => { x with poison := s.poison }) (store (s.setBad p m))

theorem putBytes_frame (bs : List Byte) : ∀ (s : State) (key : Nat) (p : Place),
    { s.putBytes key p bs with dram := s.dram, hostMem := s.hostMem, vaultMem := s.vaultMem, keys := s.keys, groves := s.groves,
                               groups := s.groups, poison := s.poison } = s := by
  induction bs with
  | nil => exact fun s key p => rfl
  | cons b bs ih =>
    intro s key p
    have h1 := ih (s.putByte key p b) key (p.plus 1)
    have h2 := putByte_frame s key p b
    rw [State.putBytes]
    generalize (s.putByte key p b).putBytes key (p.plus 1) bs = t at h1 ⊢
    generalize s.putByte key p b = u at h1 h2
    rw [← h1] at h2
    exact h2

end Sys2Proof.Machine
end

