-- ==== Sys2Proof/Laws/PerInstr.lean ====
section
/-! SUPPORT. Statements made for every instruction, one lemma for each constructor. -/

namespace Sys2Proof.Laws

/-! ## The park mark is bit 31 and nothing else (R49, R52) -/

/-- The word of the instruction with the other park mark differs in bit 31 alone. -/
def MarkBit.Statement (i : Instr) : Prop := ∀ s w, encode s i = some w → encode (!s) i = some (w ^^^ 0x80000000)

theorem MarkBit.flip (s : Bool) (r : BitVec 31) : BitVec.ofBool (!s) ++ r = (BitVec.ofBool s ++ r) ^^^ (0x80000000 : BitVec 32) := by
  rw [show (0x80000000 : BitVec 32) = (1#1 ++ 0#31 : BitVec 32) from rfl, BitVec.xor_append]
  cases s <;> simp

theorem MarkBit.ofWord {f : Bool → BitVec 32} (g : BitVec 31) (hf : ∀ s, f s = BitVec.ofBool s ++ g) :
    ∀ s w, some (f s) = some w → some (f (!s)) = some (w ^^^ 0x80000000) := by
  intro s w h
  injection h with h
  rw [← h, hf, hf, MarkBit.flip]

theorem MarkBit.sadd x1 x2 x3 : MarkBit.Statement (.sadd x1 x2 x3) := MarkBit.ofWord _ fun _ => rfl
theorem MarkBit.ssub x1 x2 x3 : MarkBit.Statement (.ssub x1 x2 x3) := MarkBit.ofWord _ fun _ => rfl
theorem MarkBit.smul x1 x2 x3 : MarkBit.Statement (.smul x1 x2 x3) := MarkBit.ofWord _ fun _ => rfl
theorem MarkBit.smulhI x1 x2 x3 : MarkBit.Statement (.smulhI x1 x2 x3) := MarkBit.ofWord _ fun _ => rfl
theorem MarkBit.smulhN x1 x2 x3 : MarkBit.Statement (.smulhN x1 x2 x3) := MarkBit.ofWord _ fun _ => rfl
theorem MarkBit.sdivI x1 x2 x3 : MarkBit.Statement (.sdivI x1 x2 x3) := MarkBit.ofWord _ fun _ => rfl
theorem MarkBit.sdivN x1 x2 x3 : MarkBit.Statement (.sdivN x1 x2 x3) := MarkBit.ofWord _ fun _ => rfl
theorem MarkBit.smodI x1 x2 x3 : MarkBit.Statement (.smodI x1 x2 x3) := MarkBit.ofWord _ fun _ => rfl
theorem MarkBit.smodN x1 x2 x3 : MarkBit.Statement (.smodN x1 x2 x3) := MarkBit.ofWord _ fun _ => rfl
theorem MarkBit.sand x1 x2 x3 : MarkBit.Statement (.sand x1 x2 x3) := MarkBit.ofWord _ fun _ => rfl
theorem MarkBit.sor x1 x2 x3 : MarkBit.Statement (.sor x1 x2 x3) := MarkBit.ofWord _ fun _ => rfl
theorem MarkBit.sxor x1 x2 x3 : MarkBit.Statement (.sxor x1 x2 x3) := MarkBit.ofWord _ fun _ => rfl
theorem MarkBit.sandn x1 x2 x3 : MarkBit.Statement (.sandn x1 x2 x3) := MarkBit.ofWord _ fun _ => rfl
theorem MarkBit.sshl x1 x2 x3 : MarkBit.Statement (.sshl x1 x2 x3) := MarkBit.ofWord _ fun _ => rfl
theorem MarkBit.sshr x1 x2 x3 : MarkBit.Statement (.sshr x1 x2 x3) := MarkBit.ofWord _ fun _ => rfl
theorem MarkBit.ssra x1 x2 x3 : MarkBit.Statement (.ssra x1 x2 x3) := MarkBit.ofWord _ fun _ => rfl
theorem MarkBit.sminI x1 x2 x3 : MarkBit.Statement (.sminI x1 x2 x3) := MarkBit.ofWord _ fun _ => rfl
theorem MarkBit.sminN x1 x2 x3 : MarkBit.Statement (.sminN x1 x2 x3) := MarkBit.ofWord _ fun _ => rfl
theorem MarkBit.smaxI x1 x2 x3 : MarkBit.Statement (.smaxI x1 x2 x3) := MarkBit.ofWord _ fun _ => rfl
theorem MarkBit.smaxN x1 x2 x3 : MarkBit.Statement (.smaxN x1 x2 x3) := MarkBit.ofWord _ fun _ => rfl
theorem MarkBit.ssltI x1 x2 x3 : MarkBit.Statement (.ssltI x1 x2 x3) := MarkBit.ofWord _ fun _ => rfl
theorem MarkBit.ssltN x1 x2 x3 : MarkBit.Statement (.ssltN x1 x2 x3) := MarkBit.ofWord _ fun _ => rfl
theorem MarkBit.sseq x1 x2 x3 : MarkBit.Statement (.sseq x1 x2 x3) := MarkBit.ofWord _ fun _ => rfl
theorem MarkBit.sclz x1 x2 : MarkBit.Statement (.sclz x1 x2) := MarkBit.ofWord _ fun _ => rfl
theorem MarkBit.spop x1 x2 : MarkBit.Statement (.spop x1 x2) := MarkBit.ofWord _ fun _ => rfl
theorem MarkBit.smov x1 x2 : MarkBit.Statement (.smov x1 x2) := MarkBit.ofWord _ fun _ => rfl
theorem MarkBit.vadd x1 x2 x3 : MarkBit.Statement (.vadd x1 x2 x3) := MarkBit.ofWord _ fun _ => rfl
theorem MarkBit.vsub x1 x2 x3 : MarkBit.Statement (.vsub x1 x2 x3) := MarkBit.ofWord _ fun _ => rfl
theorem MarkBit.vmul x1 x2 x3 : MarkBit.Statement (.vmul x1 x2 x3) := MarkBit.ofWord _ fun _ => rfl
theorem MarkBit.vmulhI x1 x2 x3 : MarkBit.Statement (.vmulhI x1 x2 x3) := MarkBit.ofWord _ fun _ => rfl
theorem MarkBit.vmulhN x1 x2 x3 : MarkBit.Statement (.vmulhN x1 x2 x3) := MarkBit.ofWord _ fun _ => rfl
theorem MarkBit.vmad x1 x2 x3 : MarkBit.Statement (.vmad x1 x2 x3) := MarkBit.ofWord _ fun _ => rfl
theorem MarkBit.vminI x1 x2 x3 : MarkBit.Statement (.vminI x1 x2 x3) := MarkBit.ofWord _ fun _ => rfl
theorem MarkBit.vminN x1 x2 x3 : MarkBit.Statement (.vminN x1 x2 x3) := MarkBit.ofWord _ fun _ => rfl
theorem MarkBit.vmaxI x1 x2 x3 : MarkBit.Statement (.vmaxI x1 x2 x3) := MarkBit.ofWord _ fun _ => rfl
theorem MarkBit.vmaxN x1 x2 x3 : MarkBit.Statement (.vmaxN x1 x2 x3) := MarkBit.ofWord _ fun _ => rfl
theorem MarkBit.vabs x1 x2 : MarkBit.Statement (.vabs x1 x2) := MarkBit.ofWord _ fun _ => rfl
theorem MarkBit.vand x1 x2 x3 : MarkBit.Statement (.vand x1 x2 x3) := MarkBit.ofWord _ fun _ => rfl
theorem MarkBit.vor x1 x2 x3 : MarkBit.Statement (.vor x1 x2 x3) := MarkBit.ofWord _ fun _ => rfl
theorem MarkBit.vxor x1 x2 x3 : MarkBit.Statement (.vxor x1 x2 x3) := MarkBit.ofWord _ fun _ => rfl
theorem MarkBit.vandn x1 x2 x3 : MarkBit.Statement (.vandn x1 x2 x3) := MarkBit.ofWord _ fun _ => rfl
theorem MarkBit.vshl x1 x2 x3 : MarkBit.Statement (.vshl x1 x2 x3) := MarkBit.ofWord _ fun _ => rfl
theorem MarkBit.vshr x1 x2 x3 : MarkBit.Statement (.vshr x1 x2 x3) := MarkBit.ofWord _ fun _ => rfl
theorem MarkBit.vsra x1 x2 x3 : MarkBit.Statement (.vsra x1 x2 x3) := MarkBit.ofWord _ fun _ => rfl
theorem MarkBit.vclz x1 x2 : MarkBit.Statement (.vclz x1 x2) := MarkBit.ofWord _ fun _ => rfl
theorem MarkBit.vpop x1 x2 : MarkBit.Statement (.vpop x1 x2) := MarkBit.ofWord _ fun _ => rfl
theorem MarkBit.vbrev x1 x2 : MarkBit.Statement (.vbrev x1 x2) := MarkBit.ofWord _ fun _ => rfl
theorem MarkBit.vsel x1 x2 x3 : MarkBit.Statement (.vsel x1 x2 x3) := MarkBit.ofWord _ fun _ => rfl
theorem MarkBit.vcmpEq x1 x2 : MarkBit.Statement (.vcmpEq x1 x2) := MarkBit.ofWord _ fun _ => rfl
theorem MarkBit.vcmpNe x1 x2 : MarkBit.Statement (.vcmpNe x1 x2) := MarkBit.ofWord _ fun _ => rfl
theorem MarkBit.vcmpLtI x1 x2 : MarkBit.Statement (.vcmpLtI x1 x2) := MarkBit.ofWord _ fun _ => rfl
theorem MarkBit.vcmpLtN x1 x2 : MarkBit.Statement (.vcmpLtN x1 x2) := MarkBit.ofWord _ fun _ => rfl
theorem MarkBit.vcmpLeI x1 x2 : MarkBit.Statement (.vcmpLeI x1 x2) := MarkBit.ofWord _ fun _ => rfl
theorem MarkBit.vcmpLeN x1 x2 : MarkBit.Statement (.vcmpLeN x1 x2) := MarkBit.ofWord _ fun _ => rfl
theorem MarkBit.vdp4I x1 x2 x3 : MarkBit.Statement (.vdp4I x1 x2 x3) := MarkBit.ofWord _ fun _ => rfl
theorem MarkBit.vdp4N x1 x2 x3 : MarkBit.Statement (.vdp4N x1 x2 x3) := MarkBit.ofWord _ fun _ => rfl
theorem MarkBit.vfadd x1 x2 x3 : MarkBit.Statement (.vfadd x1 x2 x3) := MarkBit.ofWord _ fun _ => rfl
theorem MarkBit.vfsub x1 x2 x3 : MarkBit.Statement (.vfsub x1 x2 x3) := MarkBit.ofWord _ fun _ => rfl
theorem MarkBit.vfmul x1 x2 x3 : MarkBit.Statement (.vfmul x1 x2 x3) := MarkBit.ofWord _ fun _ => rfl
theorem MarkBit.vffma x1 x2 x3 : MarkBit.Statement (.vffma x1 x2 x3) := MarkBit.ofWord _ fun _ => rfl
theorem MarkBit.vfmin x1 x2 x3 : MarkBit.Statement (.vfmin x1 x2 x3) := MarkBit.ofWord _ fun _ => rfl
theorem MarkBit.vfmax x1 x2 x3 : MarkBit.Statement (.vfmax x1 x2 x3) := MarkBit.ofWord _ fun _ => rfl
theorem MarkBit.vfabs x1 x2 : MarkBit.Statement (.vfabs x1 x2) := MarkBit.ofWord _ fun _ => rfl
theorem MarkBit.vfneg x1 x2 : MarkBit.Statement (.vfneg x1 x2) := MarkBit.ofWord _ fun _ => rfl
theorem MarkBit.vfcmpEq x1 x2 : MarkBit.Statement (.vfcmpEq x1 x2) := MarkBit.ofWord _ fun _ => rfl
theorem MarkBit.vfcmpLt x1 x2 : MarkBit.Statement (.vfcmpLt x1 x2) := MarkBit.ofWord _ fun _ => rfl
theorem MarkBit.vfcmpLe x1 x2 : MarkBit.Statement (.vfcmpLe x1 x2) := MarkBit.ofWord _ fun _ => rfl
theorem MarkBit.vfcmpUn x1 x2 : MarkBit.Statement (.vfcmpUn x1 x2) := MarkBit.ofWord _ fun _ => rfl
theorem MarkBit.vfrcp x1 x2 : MarkBit.Statement (.vfrcp x1 x2) := MarkBit.ofWord _ fun _ => rfl
theorem MarkBit.vfrsq x1 x2 : MarkBit.Statement (.vfrsq x1 x2) := MarkBit.ofWord _ fun _ => rfl
theorem MarkBit.vfsqrt x1 x2 : MarkBit.Statement (.vfsqrt x1 x2) := MarkBit.ofWord _ fun _ => rfl
theorem MarkBit.vfexp2 x1 x2 : MarkBit.Statement (.vfexp2 x1 x2) := MarkBit.ofWord _ fun _ => rfl
theorem MarkBit.vflog2 x1 x2 : MarkBit.Statement (.vflog2 x1 x2) := MarkBit.ofWord _ fun _ => rfl
theorem MarkBit.vftanh x1 x2 : MarkBit.Statement (.vftanh x1 x2) := MarkBit.ofWord _ fun _ => rfl
theorem MarkBit.vhadd x1 x2 x3 : MarkBit.Statement (.vhadd x1 x2 x3) := MarkBit.ofWord _ fun _ => rfl
theorem MarkBit.vhmul x1 x2 x3 : MarkBit.Statement (.vhmul x1 x2 x3) := MarkBit.ofWord _ fun _ => rfl
theorem MarkBit.vhfma x1 x2 x3 : MarkBit.Statement (.vhfma x1 x2 x3) := MarkBit.ofWord _ fun _ => rfl
theorem MarkBit.vbadd x1 x2 x3 : MarkBit.Statement (.vbadd x1 x2 x3) := MarkBit.ofWord _ fun _ => rfl
theorem MarkBit.vbmul x1 x2 x3 : MarkBit.Statement (.vbmul x1 x2 x3) := MarkBit.ofWord _ fun _ => rfl
theorem MarkBit.vbfma x1 x2 x3 : MarkBit.Statement (.vbfma x1 x2 x3) := MarkBit.ofWord _ fun _ => rfl
theorem MarkBit.vcvtFI x1 x2 : MarkBit.Statement (.vcvtFI x1 x2) := MarkBit.ofWord _ fun _ => rfl
theorem MarkBit.vcvtIF x1 x2 : MarkBit.Statement (.vcvtIF x1 x2) := MarkBit.ofWord _ fun _ => rfl
theorem MarkBit.vcvtFH x1 x2 : MarkBit.Statement (.vcvtFH x1 x2) := MarkBit.ofWord _ fun _ => rfl
theorem MarkBit.vcvtHF x1 x2 : MarkBit.Statement (.vcvtHF x1 x2) := MarkBit.ofWord _ fun _ => rfl
theorem MarkBit.vcvtFB x1 x2 : MarkBit.Statement (.vcvtFB x1 x2) := MarkBit.ofWord _ fun _ => rfl
theorem MarkBit.vcvtBF x1 x2 : MarkBit.Statement (.vcvtBF x1 x2) := MarkBit.ofWord _ fun _ => rfl
theorem MarkBit.vpackE4 x1 x2 : MarkBit.Statement (.vpackE4 x1 x2) := MarkBit.ofWord _ fun _ => rfl
theorem MarkBit.vpackE5 x1 x2 : MarkBit.Statement (.vpackE5 x1 x2) := MarkBit.ofWord _ fun _ => rfl
theorem MarkBit.vpackLx x1 x2 : MarkBit.Statement (.vpackLx x1 x2) := MarkBit.ofWord _ fun _ => rfl
theorem MarkBit.vunpkE4 x1 x2 : MarkBit.Statement (.vunpkE4 x1 x2) := MarkBit.ofWord _ fun _ => rfl
theorem MarkBit.vunpkE5 x1 x2 : MarkBit.Statement (.vunpkE5 x1 x2) := MarkBit.ofWord _ fun _ => rfl
theorem MarkBit.vunpkLx x1 x2 : MarkBit.Statement (.vunpkLx x1 x2) := MarkBit.ofWord _ fun _ => rfl
theorem MarkBit.vshfl x1 x2 x3 : MarkBit.Statement (.vshfl x1 x2 x3) := MarkBit.ofWord _ fun _ => rfl
theorem MarkBit.vrot x1 x2 x3 : MarkBit.Statement (.vrot x1 x2 x3) := MarkBit.ofWord _ fun _ => rfl
theorem MarkBit.vbcast x1 x2 x3 : MarkBit.Statement (.vbcast x1 x2 x3) := MarkBit.ofWord _ fun _ => rfl
theorem MarkBit.vredAddI x1 x2 : MarkBit.Statement (.vredAddI x1 x2) := MarkBit.ofWord _ fun _ => rfl
theorem MarkBit.vredAddF x1 x2 : MarkBit.Statement (.vredAddF x1 x2) := MarkBit.ofWord _ fun _ => rfl
theorem MarkBit.vredMinI x1 x2 : MarkBit.Statement (.vredMinI x1 x2) := MarkBit.ofWord _ fun _ => rfl
theorem MarkBit.vredMaxI x1 x2 : MarkBit.Statement (.vredMaxI x1 x2) := MarkBit.ofWord _ fun _ => rfl
theorem MarkBit.vredMaxF x1 x2 : MarkBit.Statement (.vredMaxF x1 x2) := MarkBit.ofWord _ fun _ => rfl
theorem MarkBit.vscanAddI x1 x2 : MarkBit.Statement (.vscanAddI x1 x2) := MarkBit.ofWord _ fun _ => rfl
theorem MarkBit.vballot x1 x2 : MarkBit.Statement (.vballot x1 x2) := MarkBit.ofWord _ fun _ => rfl
theorem MarkBit.vmovs x1 x2 : MarkBit.Statement (.vmovs x1 x2) := MarkBit.ofWord _ fun _ => rfl
theorem MarkBit.smovv x1 x2 x3 : MarkBit.Statement (.smovv x1 x2 x3) := MarkBit.ofWord _ fun _ => rfl
theorem MarkBit.vif : MarkBit.Statement (.vif) := MarkBit.ofWord _ fun _ => rfl
theorem MarkBit.velse : MarkBit.Statement (.velse) := MarkBit.ofWord _ fun _ => rfl
theorem MarkBit.vendif : MarkBit.Statement (.vendif) := MarkBit.ofWord _ fun _ => rfl
theorem MarkBit.xmset x1 : MarkBit.Statement (.xmset x1) := MarkBit.ofWord _ fun _ => rfl
theorem MarkBit.xmget x1 : MarkBit.Statement (.xmget x1) := MarkBit.ofWord _ fun _ => rfl
theorem MarkBit.plset x1 : MarkBit.Statement (.plset x1) := MarkBit.ofWord _ fun _ => rfl
theorem MarkBit.plsel x1 : MarkBit.Statement (.plsel x1) := MarkBit.ofWord _ fun _ => rfl
theorem MarkBit.pljoin : MarkBit.Statement (.pljoin) := MarkBit.ofWord _ fun _ => rfl
theorem MarkBit.plmask x1 : MarkBit.Statement (.plmask x1) := MarkBit.ofWord _ fun _ => rfl
theorem MarkBit.plocc x1 : MarkBit.Statement (.plocc x1) := MarkBit.ofWord _ fun _ => rfl
theorem MarkBit.vldB x1 x2 x3 : MarkBit.Statement (.vldB x1 x2 x3) := MarkBit.ofWord _ fun _ => rfl
theorem MarkBit.vldBI x1 x2 x3 : MarkBit.Statement (.vldBI x1 x2 x3) := MarkBit.ofWord _ fun _ => rfl
theorem MarkBit.vldH x1 x2 x3 : MarkBit.Statement (.vldH x1 x2 x3) := MarkBit.ofWord _ fun _ => rfl
theorem MarkBit.vldHI x1 x2 x3 : MarkBit.Statement (.vldHI x1 x2 x3) := MarkBit.ofWord _ fun _ => rfl
theorem MarkBit.vldW x1 x2 x3 : MarkBit.Statement (.vldW x1 x2 x3) := MarkBit.ofWord _ fun _ => rfl
theorem MarkBit.vldD x1 x2 x3 : MarkBit.Statement (.vldD x1 x2 x3) := MarkBit.ofWord _ fun _ => rfl
theorem MarkBit.vldQ x1 x2 x3 : MarkBit.Statement (.vldQ x1 x2 x3) := MarkBit.ofWord _ fun _ => rfl
theorem MarkBit.vstB x1 x2 x3 : MarkBit.Statement (.vstB x1 x2 x3) := MarkBit.ofWord _ fun _ => rfl
theorem MarkBit.vstH x1 x2 x3 : MarkBit.Statement (.vstH x1 x2 x3) := MarkBit.ofWord _ fun _ => rfl
theorem MarkBit.vstW x1 x2 x3 : MarkBit.Statement (.vstW x1 x2 x3) := MarkBit.ofWord _ fun _ => rfl
theorem MarkBit.vstD x1 x2 x3 : MarkBit.Statement (.vstD x1 x2 x3) := MarkBit.ofWord _ fun _ => rfl
theorem MarkBit.vstQ x1 x2 x3 : MarkBit.Statement (.vstQ x1 x2 x3) := MarkBit.ofWord _ fun _ => rfl
theorem MarkBit.sldW x1 x2 x3 : MarkBit.Statement (.sldW x1 x2 x3) := MarkBit.ofWord _ fun _ => rfl
theorem MarkBit.sldD x1 x2 x3 : MarkBit.Statement (.sldD x1 x2 x3) := MarkBit.ofWord _ fun _ => rfl
theorem MarkBit.sstW x1 x2 x3 : MarkBit.Statement (.sstW x1 x2 x3) := MarkBit.ofWord _ fun _ => rfl
theorem MarkBit.sstD x1 x2 x3 : MarkBit.Statement (.sstD x1 x2 x3) := MarkBit.ofWord _ fun _ => rfl
theorem MarkBit.vpref x1 x2 : MarkBit.Statement (.vpref x1 x2) := MarkBit.ofWord _ fun _ => rfl
theorem MarkBit.vatomAdd x1 x2 x3 : MarkBit.Statement (.vatomAdd x1 x2 x3) := MarkBit.ofWord _ fun _ => rfl
theorem MarkBit.vatomAddf x1 x2 x3 : MarkBit.Statement (.vatomAddf x1 x2 x3) := MarkBit.ofWord _ fun _ => rfl
theorem MarkBit.vatomMinI x1 x2 x3 : MarkBit.Statement (.vatomMinI x1 x2 x3) := MarkBit.ofWord _ fun _ => rfl
theorem MarkBit.vatomMaxI x1 x2 x3 : MarkBit.Statement (.vatomMaxI x1 x2 x3) := MarkBit.ofWord _ fun _ => rfl
theorem MarkBit.vatomAnd x1 x2 x3 : MarkBit.Statement (.vatomAnd x1 x2 x3) := MarkBit.ofWord _ fun _ => rfl
theorem MarkBit.vatomOr x1 x2 x3 : MarkBit.Statement (.vatomOr x1 x2 x3) := MarkBit.ofWord _ fun _ => rfl
theorem MarkBit.vatomXor x1 x2 x3 : MarkBit.Statement (.vatomXor x1 x2 x3) := MarkBit.ofWord _ fun _ => rfl
theorem MarkBit.vatomXchg x1 x2 x3 : MarkBit.Statement (.vatomXchg x1 x2 x3) := MarkBit.ofWord _ fun _ => rfl
theorem MarkBit.vatomCas x1 x2 x3 : MarkBit.Statement (.vatomCas x1 x2 x3) := MarkBit.ofWord _ fun _ => rfl
theorem MarkBit.satomAdd x1 x2 x3 : MarkBit.Statement (.satomAdd x1 x2 x3) := MarkBit.ofWord _ fun _ => rfl
theorem MarkBit.satomCas x1 x2 x3 : MarkBit.Statement (.satomCas x1 x2 x3) := MarkBit.ofWord _ fun _ => rfl
theorem MarkBit.gredAdd x1 x2 x3 : MarkBit.Statement (.gredAdd x1 x2 x3) := MarkBit.ofWord _ fun _ => rfl
theorem MarkBit.gredAddf x1 x2 x3 : MarkBit.Statement (.gredAddf x1 x2 x3) := MarkBit.ofWord _ fun _ => rfl
theorem MarkBit.gredMaxI x1 x2 x3 : MarkBit.Statement (.gredMaxI x1 x2 x3) := MarkBit.ofWord _ fun _ => rfl
theorem MarkBit.sqredAddf x1 x2 x3 : MarkBit.Statement (.sqredAddf x1 x2 x3) := MarkBit.ofWord _ fun _ => rfl
theorem MarkBit.sqredAdd x1 x2 x3 : MarkBit.Statement (.sqredAdd x1 x2 x3) := MarkBit.ofWord _ fun _ => rfl
theorem MarkBit.sqopen x1 x2 x3 : MarkBit.Statement (.sqopen x1 x2 x3) := MarkBit.ofWord _ fun _ => rfl
theorem MarkBit.sqclose x1 : MarkBit.Statement (.sqclose x1) := MarkBit.ofWord _ fun _ => rfl
theorem MarkBit.fenceG : MarkBit.Statement (.fenceG) := MarkBit.ofWord _ fun _ => rfl
theorem MarkBit.fenceC : MarkBit.Statement (.fenceC) := MarkBit.ofWord _ fun _ => rfl
theorem MarkBit.fenceD : MarkBit.Statement (.fenceD) := MarkBit.ofWord _ fun _ => rfl
theorem MarkBit.fenceP : MarkBit.Statement (.fenceP) := MarkBit.ofWord _ fun _ => rfl
theorem MarkBit.fenceS : MarkBit.Statement (.fenceS) := MarkBit.ofWord _ fun _ => rfl
theorem MarkBit.xfence : MarkBit.Statement (.xfence) := MarkBit.ofWord _ fun _ => rfl
theorem MarkBit.barArr x1 : MarkBit.Statement (.barArr x1) := MarkBit.ofWord _ fun _ => rfl
theorem MarkBit.barWt x1 : MarkBit.Statement (.barWt x1) := MarkBit.ofWord _ fun _ => rfl
theorem MarkBit.barSync x1 : MarkBit.Statement (.barSync x1) := MarkBit.ofWord _ fun _ => rfl
theorem MarkBit.barQ x1 x2 : MarkBit.Statement (.barQ x1 x2) := MarkBit.ofWord _ fun _ => rfl
theorem MarkBit.mma x1 x2 x3 x4 x5 : MarkBit.Statement (.mma x1 x2 x3 x4 x5) := MarkBit.ofWord _ fun _ => rfl
theorem MarkBit.mmas x1 x2 x3 x4 x5 : MarkBit.Statement (.mmas x1 x2 x3 x4 x5) := MarkBit.ofWord _ fun _ => rfl
theorem MarkBit.mzero x1 : MarkBit.Statement (.mzero x1) := MarkBit.ofWord _ fun _ => rfl
theorem MarkBit.mbatch x1 : MarkBit.Statement (.mbatch x1) := MarkBit.ofWord _ fun _ => rfl
theorem MarkBit.mwait x1 : MarkBit.Statement (.mwait x1) := MarkBit.ofWord _ fun _ => rfl
theorem MarkBit.mquery x1 x2 : MarkBit.Statement (.mquery x1 x2) := MarkBit.ofWord _ fun _ => rfl
theorem MarkBit.cpy x1 x2 x3 : MarkBit.Statement (.cpy x1 x2 x3) := MarkBit.ofWord _ fun _ => rfl
theorem MarkBit.cpyt x1 x2 x3 : MarkBit.Statement (.cpyt x1 x2 x3) := MarkBit.ofWord _ fun _ => rfl
theorem MarkBit.cpyq x1 x2 x3 : MarkBit.Statement (.cpyq x1 x2 x3) := MarkBit.ofWord _ fun _ => rfl
theorem MarkBit.cwp x1 x2 : MarkBit.Statement (.cwp x1 x2) := MarkBit.ofWord _ fun _ => rfl
theorem MarkBit.cwait x1 x2 : MarkBit.Statement (.cwait x1 x2) := MarkBit.ofWord _ fun _ => rfl
theorem MarkBit.launch x1 x2 : MarkBit.Statement (.launch x1 x2) := MarkBit.ofWord _ fun _ => rfl
theorem MarkBit.lquery x1 x2 : MarkBit.Statement (.lquery x1 x2) := MarkBit.ofWord _ fun _ => rfl
theorem MarkBit.saddi x1 x2 x3 : MarkBit.Statement (.saddi x1 x2 x3) := MarkBit.ofWord _ fun _ => rfl
theorem MarkBit.sandi x1 x2 x3 : MarkBit.Statement (.sandi x1 x2 x3) := MarkBit.ofWord _ fun _ => rfl
theorem MarkBit.sori x1 x2 x3 : MarkBit.Statement (.sori x1 x2 x3) := MarkBit.ofWord _ fun _ => rfl
theorem MarkBit.sxori x1 x2 x3 : MarkBit.Statement (.sxori x1 x2 x3) := MarkBit.ofWord _ fun _ => rfl
theorem MarkBit.sshli x1 x2 x3 : MarkBit.Statement (.sshli x1 x2 x3) := MarkBit.ofWord _ fun _ => rfl
theorem MarkBit.sshri x1 x2 x3 : MarkBit.Statement (.sshri x1 x2 x3) := MarkBit.ofWord _ fun _ => rfl
theorem MarkBit.ssrai x1 x2 x3 : MarkBit.Statement (.ssrai x1 x2 x3) := MarkBit.ofWord _ fun _ => rfl
theorem MarkBit.sslti x1 x2 x3 : MarkBit.Statement (.sslti x1 x2 x3) := MarkBit.ofWord _ fun _ => rfl
theorem MarkBit.vaddi x1 x2 x3 : MarkBit.Statement (.vaddi x1 x2 x3) := MarkBit.ofWord _ fun _ => rfl
theorem MarkBit.vandi x1 x2 x3 : MarkBit.Statement (.vandi x1 x2 x3) := MarkBit.ofWord _ fun _ => rfl
theorem MarkBit.vori x1 x2 x3 : MarkBit.Statement (.vori x1 x2 x3) := MarkBit.ofWord _ fun _ => rfl
theorem MarkBit.vxori x1 x2 x3 : MarkBit.Statement (.vxori x1 x2 x3) := MarkBit.ofWord _ fun _ => rfl
theorem MarkBit.vshli x1 x2 x3 : MarkBit.Statement (.vshli x1 x2 x3) := MarkBit.ofWord _ fun _ => rfl
theorem MarkBit.vshri x1 x2 x3 : MarkBit.Statement (.vshri x1 x2 x3) := MarkBit.ofWord _ fun _ => rfl
theorem MarkBit.vsrai x1 x2 x3 : MarkBit.Statement (.vsrai x1 x2 x3) := MarkBit.ofWord _ fun _ => rfl
theorem MarkBit.vmovi x1 x2 : MarkBit.Statement (.vmovi x1 x2) := MarkBit.ofWord _ fun _ => rfl
theorem MarkBit.vldWO x1 x2 x3 : MarkBit.Statement (.vldWO x1 x2 x3) := MarkBit.ofWord _ fun _ => rfl
theorem MarkBit.vldDO x1 x2 x3 : MarkBit.Statement (.vldDO x1 x2 x3) := MarkBit.ofWord _ fun _ => rfl
theorem MarkBit.vstWO x1 x2 x3 : MarkBit.Statement (.vstWO x1 x2 x3) := MarkBit.ofWord _ fun _ => rfl
theorem MarkBit.vstDO x1 x2 x3 : MarkBit.Statement (.vstDO x1 x2 x3) := MarkBit.ofWord _ fun _ => rfl
theorem MarkBit.sldWO x1 x2 x3 : MarkBit.Statement (.sldWO x1 x2 x3) := MarkBit.ofWord _ fun _ => rfl
theorem MarkBit.sldDO x1 x2 x3 : MarkBit.Statement (.sldDO x1 x2 x3) := MarkBit.ofWord _ fun _ => rfl
theorem MarkBit.sstWO x1 x2 x3 : MarkBit.Statement (.sstWO x1 x2 x3) := MarkBit.ofWord _ fun _ => rfl
theorem MarkBit.sstDO x1 x2 x3 : MarkBit.Statement (.sstDO x1 x2 x3) := MarkBit.ofWord _ fun _ => rfl
theorem MarkBit.smovi x1 x2 : MarkBit.Statement (.smovi x1 x2) := MarkBit.ofWord _ fun _ => rfl
theorem MarkBit.slui x1 x2 : MarkBit.Statement (.slui x1 x2) := MarkBit.ofWord _ fun _ => rfl
theorem MarkBit.saddpc x1 x2 : MarkBit.Statement (.saddpc x1 x2) := MarkBit.ofWord _ fun _ => rfl
theorem MarkBit.bra x1 : MarkBit.Statement (.bra x1) := MarkBit.ofWord _ fun _ => rfl
theorem MarkBit.bz x1 x2 : MarkBit.Statement (.bz x1 x2) := MarkBit.ofWord _ fun _ => rfl
theorem MarkBit.bnz x1 x2 : MarkBit.Statement (.bnz x1 x2) := MarkBit.ofWord _ fun _ => rfl
theorem MarkBit.bneg x1 x2 : MarkBit.Statement (.bneg x1 x2) := MarkBit.ofWord _ fun _ => rfl
theorem MarkBit.bnn x1 x2 : MarkBit.Statement (.bnn x1 x2) := MarkBit.ofWord _ fun _ => rfl
theorem MarkBit.bloop x1 x2 : MarkBit.Statement (.bloop x1 x2) := MarkBit.ofWord _ fun _ => rfl
theorem MarkBit.bcall x1 x2 : MarkBit.Statement (.bcall x1 x2) := MarkBit.ofWord _ fun _ => rfl
theorem MarkBit.bany x1 : MarkBit.Statement (.bany x1) := MarkBit.ofWord _ fun _ => rfl
theorem MarkBit.nop : MarkBit.Statement (.nop) := MarkBit.ofWord _ fun _ => rfl
theorem MarkBit.park : MarkBit.Statement (.park) := MarkBit.ofWord _ fun _ => rfl
theorem MarkBit.exit : MarkBit.Statement (.exit) := MarkBit.ofWord _ fun _ => rfl
theorem MarkBit.jmp x1 : MarkBit.Statement (.jmp x1) := MarkBit.ofWord _ fun _ => rfl
theorem MarkBit.ret x1 : MarkBit.Statement (.ret x1) := MarkBit.ofWord _ fun _ => rfl
theorem MarkBit.wbase x1 : MarkBit.Statement (.wbase x1) := MarkBit.ofWord _ fun _ => rfl
theorem MarkBit.wget x1 : MarkBit.Statement (.wget x1) := MarkBit.ofWord _ fun _ => rfl
theorem MarkBit.region x1 x2 : MarkBit.Statement (.region x1 x2) := MarkBit.ofWord _ fun _ => rfl
theorem MarkBit.trap x1 : MarkBit.Statement (.trap x1) := MarkBit.ofWord _ fun _ => rfl
theorem MarkBit.brk x1 : MarkBit.Statement (.brk x1) := MarkBit.ofWord _ fun _ => rfl
theorem MarkBit.tret : MarkBit.Statement (.tret) := MarkBit.ofWord _ fun _ => rfl
theorem MarkBit.ctlrd x1 x2 : MarkBit.Statement (.ctlrd x1 x2) := MarkBit.ofWord _ fun _ => rfl
theorem MarkBit.ctlwr x1 x2 : MarkBit.Statement (.ctlwr x1 x2) := MarkBit.ofWord _ fun _ => rfl
theorem MarkBit.svc x1 : MarkBit.Statement (.svc x1) := MarkBit.ofWord _ fun _ => rfl
theorem MarkBit.tick x1 : MarkBit.Statement (.tick x1) := MarkBit.ofWord _ fun _ => rfl
theorem MarkBit.spin : MarkBit.Statement (.spin) := MarkBit.ofWord _ fun _ => rfl
theorem MarkBit.sealst x1 x2 x3 : MarkBit.Statement (.sealst x1 x2 x3) := MarkBit.ofWord _ fun _ => rfl
theorem MarkBit.sealld x1 x2 x3 : MarkBit.Statement (.sealld x1 x2 x3) := MarkBit.ofWord _ fun _ => rfl
theorem MarkBit.dsave x1 : MarkBit.Statement (.dsave x1) := MarkBit.ofWord _ fun _ => rfl
theorem MarkBit.dload x1 : MarkBit.Statement (.dload x1) := MarkBit.ofWord _ fun _ => rfl
theorem MarkBit.resultReturn x1 x2 : MarkBit.Statement (.resultReturn x1 x2) := fun _ _ h => nomatch h
theorem MarkBit.loadReturn x1 : MarkBit.Statement (.loadReturn x1) := fun _ _ h => nomatch h
theorem MarkBit.automaticTick x1 : MarkBit.Statement (.automaticTick x1) := fun _ _ h => nomatch h
theorem MarkBit.spinDemotionEnd x1 : MarkBit.Statement (.spinDemotionEnd x1) := fun _ _ h => nomatch h
theorem MarkBit.storeBufferDrain x1 : MarkBit.Statement (.storeBufferDrain x1) := fun _ _ h => nomatch h
theorem MarkBit.storeBufferAgeLimit x1 : MarkBit.Statement (.storeBufferAgeLimit x1) := fun _ _ h => nomatch h
theorem MarkBit.scratchStoreArrival x1 : MarkBit.Statement (.scratchStoreArrival x1) := fun _ _ h => nomatch h
theorem MarkBit.atomicPerform x1 : MarkBit.Statement (.atomicPerform x1) := fun _ _ h => nomatch h
theorem MarkBit.atomicReturn x1 : MarkBit.Statement (.atomicReturn x1) := fun _ _ h => nomatch h
theorem MarkBit.fenceComplete x1 : MarkBit.Statement (.fenceComplete x1) := fun _ _ h => nomatch h
theorem MarkBit.matrixExecutionStart x1 : MarkBit.Statement (.matrixExecutionStart x1) := fun _ _ h => nomatch h
theorem MarkBit.batchComplete x1 : MarkBit.Statement (.batchComplete x1) := fun _ _ h => nomatch h
theorem MarkBit.copyUnitDelivery x1 x2 : MarkBit.Statement (.copyUnitDelivery x1 x2) := fun _ _ h => nomatch h
theorem MarkBit.contributionArrival x1 : MarkBit.Statement (.contributionArrival x1) := fun _ _ h => nomatch h
theorem MarkBit.tableWalkComplete x1 x2 x3 : MarkBit.Statement (.tableWalkComplete x1 x2 x3) := fun _ _ h => nomatch h
theorem MarkBit.signatureCompare x1 : MarkBit.Statement (.signatureCompare x1) := fun _ _ h => nomatch h
theorem MarkBit.launchSubmit x1 x2 x3 : MarkBit.Statement (.launchSubmit x1 x2 x3) := fun _ _ h => nomatch h
theorem MarkBit.unitPlacement x1 : MarkBit.Statement (.unitPlacement x1) := fun _ _ h => nomatch h
theorem MarkBit.launchComplete x1 : MarkBit.Statement (.launchComplete x1) := fun _ _ h => nomatch h
theorem MarkBit.graphWalkerStep x1 : MarkBit.Statement (.graphWalkerStep x1) := fun _ _ h => nomatch h
theorem MarkBit.timeSliceEnd x1 : MarkBit.Statement (.timeSliceEnd x1) := fun _ _ h => nomatch h
theorem MarkBit.preemption x1 : MarkBit.Statement (.preemption x1) := fun _ _ h => nomatch h
theorem MarkBit.groupRestart x1 : MarkBit.Statement (.groupRestart x1) := fun _ _ h => nomatch h
theorem MarkBit.regionWatchdog x1 : MarkBit.Statement (.regionWatchdog x1) := fun _ _ h => nomatch h
theorem MarkBit.stewardWaitTimeout x1 : MarkBit.Statement (.stewardWaitTimeout x1) := fun _ _ h => nomatch h
theorem MarkBit.evictionGroupStart x1 : MarkBit.Statement (.evictionGroupStart x1) := fun _ _ h => nomatch h
theorem MarkBit.restorePlacement x1 : MarkBit.Statement (.restorePlacement x1) := fun _ _ h => nomatch h
theorem MarkBit.rebase : MarkBit.Statement (.rebase) := fun _ _ h => nomatch h
theorem MarkBit.hostWrite x1 x2 x3 : MarkBit.Statement (.hostWrite x1 x2 x3) := fun _ _ h => nomatch h
theorem MarkBit.hostRead x1 x2 x3 x4 : MarkBit.Statement (.hostRead x1 x2 x3 x4) := fun _ _ h => nomatch h
theorem MarkBit.birsp x1 x2 x3 : MarkBit.Statement (.birsp x1 x2 x3) := fun _ _ h => nomatch h
theorem MarkBit.biconflict x1 x2 : MarkBit.Statement (.biconflict x1 x2) := fun _ _ h => nomatch h
theorem MarkBit.hostEvictionReport x1 x2 : MarkBit.Statement (.hostEvictionReport x1 x2) := fun _ _ h => nomatch h
theorem MarkBit.snpinv x1 x2 : MarkBit.Statement (.snpinv x1 x2) := fun _ _ h => nomatch h
theorem MarkBit.snpdata x1 x2 : MarkBit.Statement (.snpdata x1 x2) := fun _ _ h => nomatch h
theorem MarkBit.snpcur x1 x2 : MarkBit.Statement (.snpcur x1 x2) := fun _ _ h => nomatch h
theorem MarkBit.cxlCacheResponse x1 x2 x3 x4 : MarkBit.Statement (.cxlCacheResponse x1 x2 x3 x4) := fun _ _ h => nomatch h
theorem MarkBit.registerWrite x1 x2 x3 : MarkBit.Statement (.registerWrite x1 x2 x3) := fun _ _ h => nomatch h
theorem MarkBit.hbeat x1 x2 : MarkBit.Statement (.hbeat x1 x2) := fun _ _ h => nomatch h
theorem MarkBit.ntail x1 x2 x3 : MarkBit.Statement (.ntail x1 x2 x3) := fun _ _ h => nomatch h
theorem MarkBit.bind x1 x2 x3 : MarkBit.Statement (.bind x1 x2 x3) := fun _ _ h => nomatch h
theorem MarkBit.set x1 x2 x3 : MarkBit.Statement (.set x1 x2 x3) := fun _ _ h => nomatch h
theorem MarkBit.assignch x1 x2 x3 : MarkBit.Statement (.assignch x1 x2 x3) := fun _ _ h => nomatch h
theorem MarkBit.assignchReset x1 x2 x3 : MarkBit.Statement (.assignchReset x1 x2 x3) := fun _ _ h => nomatch h
theorem MarkBit.assignchUnassign x1 x2 x3 : MarkBit.Statement (.assignchUnassign x1 x2 x3) := fun _ _ h => nomatch h
theorem MarkBit.setsucc x1 x2 x3 : MarkBit.Statement (.setsucc x1 x2 x3) := fun _ _ h => nomatch h
theorem MarkBit.share x1 x2 x3 : MarkBit.Statement (.share x1 x2 x3) := fun _ _ h => nomatch h
theorem MarkBit.join x1 x2 x3 : MarkBit.Statement (.join x1 x2 x3) := fun _ _ h => nomatch h
theorem MarkBit.unshare x1 x2 x3 : MarkBit.Statement (.unshare x1 x2 x3) := fun _ _ h => nomatch h
theorem MarkBit.transfer x1 x2 x3 : MarkBit.Statement (.transfer x1 x2 x3) := fun _ _ h => nomatch h
theorem MarkBit.adopt x1 x2 x3 : MarkBit.Statement (.adopt x1 x2 x3) := fun _ _ h => nomatch h
theorem MarkBit.resume x1 x2 x3 : MarkBit.Statement (.resume x1 x2 x3) := fun _ _ h => nomatch h
theorem MarkBit.claim x1 x2 x3 : MarkBit.Statement (.claim x1 x2 x3) := fun _ _ h => nomatch h
theorem MarkBit.reply x1 x2 x3 : MarkBit.Statement (.reply x1 x2 x3) := fun _ _ h => nomatch h
theorem MarkBit.evict x1 x2 x3 : MarkBit.Statement (.evict x1 x2 x3) := fun _ _ h => nomatch h
theorem MarkBit.restore x1 x2 x3 : MarkBit.Statement (.restore x1 x2 x3) := fun _ _ h => nomatch h
theorem MarkBit.release x1 x2 x3 : MarkBit.Statement (.release x1 x2 x3) := fun _ _ h => nomatch h
theorem MarkBit.gcreate x1 x2 : MarkBit.Statement (.gcreate x1 x2) := fun _ _ h => nomatch h
theorem MarkBit.gdestroy x1 x2 : MarkBit.Statement (.gdestroy x1 x2) := fun _ _ h => nomatch h
theorem MarkBit.gset x1 x2 : MarkBit.Statement (.gset x1 x2) := fun _ _ h => nomatch h
theorem MarkBit.startCold x1 x2 : MarkBit.Statement (.startCold x1 x2) := fun _ _ h => nomatch h
theorem MarkBit.startWarm x1 x2 : MarkBit.Statement (.startWarm x1 x2) := fun _ _ h => nomatch h
theorem MarkBit.sidebandStartRequest x1 : MarkBit.Statement (.sidebandStartRequest x1) := fun _ _ h => nomatch h
theorem MarkBit.guardianLoss x1 x2 : MarkBit.Statement (.guardianLoss x1 x2) := fun _ _ h => nomatch h
theorem MarkBit.severanceTimeout x1 : MarkBit.Statement (.severanceTimeout x1) := fun _ _ h => nomatch h
theorem MarkBit.reapTimeout x1 : MarkBit.Statement (.reapTimeout x1) := fun _ _ h => nomatch h
theorem MarkBit.lockInterfaceRequest x1 x2 : MarkBit.Statement (.lockInterfaceRequest x1 x2) := fun _ _ h => nomatch h
theorem MarkBit.startInterfaceRequest x1 : MarkBit.Statement (.startInterfaceRequest x1) := fun _ _ h => nomatch h
theorem MarkBit.stopInterfaceRequest x1 : MarkBit.Statement (.stopInterfaceRequest x1) := fun _ _ h => nomatch h
theorem MarkBit.frozenConfigurationWrite x1 : MarkBit.Statement (.frozenConfigurationWrite x1) := fun _ _ h => nomatch h
theorem MarkBit.ideStreamFailure x1 x2 : MarkBit.Statement (.ideStreamFailure x1 x2) := fun _ _ h => nomatch h
theorem MarkBit.getVersion x1 : MarkBit.Statement (.getVersion x1) := fun _ _ h => nomatch h
theorem MarkBit.getCapabilities x1 : MarkBit.Statement (.getCapabilities x1) := fun _ _ h => nomatch h
theorem MarkBit.negotiateAlgorithms x1 : MarkBit.Statement (.negotiateAlgorithms x1) := fun _ _ h => nomatch h
theorem MarkBit.getDigests x1 : MarkBit.Statement (.getDigests x1) := fun _ _ h => nomatch h
theorem MarkBit.getCertificate x1 x2 : MarkBit.Statement (.getCertificate x1 x2) := fun _ _ h => nomatch h
theorem MarkBit.challenge x1 x2 x3 : MarkBit.Statement (.challenge x1 x2 x3) := fun _ _ h => nomatch h
theorem MarkBit.getMeasurements x1 : MarkBit.Statement (.getMeasurements x1) := fun _ _ h => nomatch h
theorem MarkBit.keyExchange x1 x2 : MarkBit.Statement (.keyExchange x1 x2) := fun _ _ h => nomatch h
theorem MarkBit.finish x1 : MarkBit.Statement (.finish x1) := fun _ _ h => nomatch h
theorem MarkBit.keyUpdate x1 : MarkBit.Statement (.keyUpdate x1) := fun _ _ h => nomatch h
theorem MarkBit.endSession x1 : MarkBit.Statement (.endSession x1) := fun _ _ h => nomatch h
theorem MarkBit.setCertificate x1 x2 x3 : MarkBit.Statement (.setCertificate x1 x2 x3) := fun _ _ h => nomatch h
theorem MarkBit.hostIdentityPresentation x1 x2 x3 : MarkBit.Statement (.hostIdentityPresentation x1 x2 x3) := fun _ _ h => nomatch h
theorem MarkBit.linkDown x1 : MarkBit.Statement (.linkDown x1) := fun _ _ h => nomatch h
theorem MarkBit.linkWheelSlot x1 x2 : MarkBit.Statement (.linkWheelSlot x1 x2) := fun _ _ h => nomatch h
theorem MarkBit.peerRequestArrival x1 x2 x3 x4 : MarkBit.Statement (.peerRequestArrival x1 x2 x3 x4) := fun _ _ h => nomatch h
theorem MarkBit.throttleStep x1 x2 : MarkBit.Statement (.throttleStep x1 x2) := fun _ _ h => nomatch h
theorem MarkBit.thermalStop : MarkBit.Statement (.thermalStop) := fun _ _ h => nomatch h
theorem MarkBit.powerOff : MarkBit.Statement (.powerOff) := fun _ _ h => nomatch h
theorem MarkBit.illegalInstruction x1 : MarkBit.Statement (.illegalInstruction x1) := fun _ _ h => nomatch h
theorem MarkBit.powerOn : MarkBit.Statement (.powerOn) := fun _ _ h => nomatch h
theorem MarkBit.startCompletion x1 x2 : MarkBit.Statement (.startCompletion x1 x2) := fun _ _ h => nomatch h
theorem MarkBit.linkUp x1 : MarkBit.Statement (.linkUp x1) := fun _ _ h => nomatch h
theorem MarkBit.linkLevelReplay x1 : MarkBit.Statement (.linkLevelReplay x1) := fun _ _ h => nomatch h
theorem MarkBit.rangeInvalidation x1 x2 x3 : MarkBit.Statement (.rangeInvalidation x1 x2 x3) := fun _ _ h => nomatch h
theorem MarkBit.scrubbing x1 x2 x3 : MarkBit.Statement (.scrubbing x1 x2 x3) := fun _ _ h => nomatch h

end Sys2Proof.Laws
end

