-- ==== Sys2Proof/Laws/Trap.lean ====
section
/-! SUPPORT. What a trap, a wait and a fence's wait come to; and what a command of a context page comes to. -/

namespace Sys2Proof.Machine

open Sys2Proof.Safety

/-! ## Waits -/

/-- A word held is its group's wait, and nothing else. -/
theorem hold_waits {s : State} {c : Issue} (h : s.cur = some c) (g : Group) (w : Wait) : s.hold c.gid g w = waits s c g w := by
  simp [State.hold, State.fate, waits, State.setGroup, h]

/-- What a word that waits as a fence does first comes to: its own effect once the waits are over; the fence going on; a compare of a
redundant group; or the group's entries beginning to drain. -/
theorem afterFence_cases (s : State) (c : Issue) (g : Group) (k : State → Group → State) :
    (g.wait = .fenced ∧ s.afterFence c g k = k (s.setGroup c.gid { g with wait := .none }) { g with wait := .none }) ∨
    ((g.wait = .fence ∨ g.wait = .compare) ∧ s.afterFence c g k = s.fate .hold) ∨
    (s.redundant g = true ∧ g.wait ≠ .compared ∧ s.afterFence c g k = s.hold c.gid g .compare) ∨
    s.afterFence c g k = (s.drainGroup c.gid).hold c.gid g .fence := by
  unfold State.afterFence
  split
  · rename_i h; exact .inl ⟨h, rfl⟩
  · rename_i h; exact .inr (.inl ⟨.inl h, rfl⟩)
  · rename_i h; exact .inr (.inl ⟨.inr h, rfl⟩)
  · split
    · rename_i h; exact .inr (.inr (.inl ⟨h.1, h.2, rfl⟩))
    · exact .inr (.inr (.inr rfl))

/-! ## Taking an exception (R289 to R291) -/

/-- A trap of the word at issue: a steward fault in steward mode or without a handler; the entry, when no result is outstanding; else the
wait for the results. -/
theorem trapWord_cases (s : State) (c : Issue) (g : Group) (code detail : Nat) (taddr : Scalar) (tlane : Mask) :
    let r : Group := { ({ g with wait := .none, held := none, trapOwn := c.mark } : Group).record code detail taddr tlane g.off c.plane with
      laneTrap := !(code == 7 || code == 8), vec := (s.contextAt g.ctx).tvec }
    ((g.mode = .steward ∨ (s.contextAt g.ctx).tvec = 0) ∧
      s.trapWord c g code detail taddr tlane = (s.stewardFault c.gid r code).fate .left) ∨
    (g.mode ≠ .steward ∧ (s.contextAt g.ctx).tvec ≠ 0 ∧ g.results = [] ∧
      s.trapWord c g code detail taddr tlane = (s.enter c.gid r).fate .left) ∨
    (g.mode ≠ .steward ∧ (s.contextAt g.ctx).tvec ≠ 0 ∧ g.results ≠ [] ∧
      s.trapWord c g code detail taddr tlane = (s.setGroup c.gid { r with wait := .trap }).fate .left) := by
  intro r
  by_cases h : g.mode = .steward ∨ (s.contextAt g.ctx).tvec = 0
  · refine .inl ⟨h, ?_⟩
    have k : ({ g with wait := .none, held := none, trapOwn := c.mark } : Group).mode = .steward ∨
        (s.contextAt ({ g with wait := .none, held := none, trapOwn := c.mark } : Group).ctx).tvec = 0 := h
    simp only [State.trapWord, State.trap, if_pos k]
    rfl
  · obtain ⟨h1, h2⟩ := not_or.mp h
    have k : ¬ (({ g with wait := .none, held := none, trapOwn := c.mark } : Group).mode = .steward ∨
        (s.contextAt ({ g with wait := .none, held := none, trapOwn := c.mark } : Group).ctx).tvec = 0) := h
    by_cases hr : g.results = []
    · refine .inr (.inl ⟨h1, h2, hr, ?_⟩)
      simp only [State.trapWord, State.trap, if_neg k, if_pos hr]
      rfl
    · refine .inr (.inr ⟨h1, h2, hr, ?_⟩)
      simp only [State.trapWord, State.trap, if_neg k, if_neg hr]
      rfl

/-! ## Commands of a context page (R336, R337) -/

theorem command_of {s : State} {vf page port : Nat} (h : Calls s vf page port) (code : Nat) (a : BitVec 32) (f : Nat → State → Done) :
    s.command vf page code a f = replied (f port s).1 vf page code a (f port s).2 := by
  have := h.page
  simp [State.command, h.ready, h.port, h.usable, Nat.not_le.mpr this, replied]

theorem asPrimary_of {s : State} {vf page port ctx : Nat} {x : Context} {g : Guardian} (h : Primary s vf page port ctx x g)
    (f : Nat → Context → Guardian → Done) : s.asPrimary vf page port f = f ctx x g := by
  have hx : s.contextAt ctx = x := by simp [State.contextAt, h.guards.context]
  simp [State.asPrimary, h.guards.caller, hx, h.first]

end Sys2Proof.Machine
end

