-- ==== Sys2Proof/Tests/Slice0.lean ====
section
/-! SUPPORT. Tests: fields that are refused, words of the encoding tables, results worked by hand or in the spec's own
examples, and for every statement with hypotheses a state that meets them. -/

namespace Sys2Proof.Tests

open Sys2Proof.Machine Sys2Proof.Safety

set_option maxRecDepth 20000

/-! ## Ill-formed instructions: one for each check (R34, R38, R54, R56) -/

theorem test_illformed_scalar_field_of_a_vector : (Instr.sadd (.v 1) (.s 0) (.s 0)).detail = some 0x04 := by decide
theorem test_illformed_readonly_destination : (Instr.vadd .xm (.v 2) (.v 3)).detail = some 0x06 := by decide
theorem test_illformed_scalar_source : (Instr.sadd (.s 1) .lane (.s 0)).detail = some 0x04 := by decide
theorem test_illformed_scalar_pair : (Instr.satomCas (.s 5) (.s 0) (.s 0)).detail = some 0x05 := by decide
theorem test_illformed_scalar_pair_source : (Instr.cpyq (.s 5) (.s 0) (.s 0)).detail = some 0x05 := by decide
theorem test_illformed_vector_source : (Instr.vadd (.v 1) (.s 2) (.v 3)).detail = some 0x04 := by decide
theorem test_illformed_vector_destination : (Instr.vadd .cm (.v 2) (.v 3)).detail = some 0x04 := by decide
theorem test_illformed_vector_pair : (Instr.vldD (.v 3) (.s 0) (.v 0)).detail = some 0x05 := by decide
theorem test_illformed_vector_pair_source : (Instr.vstD (.v 3) (.s 0) (.v 0)).detail = some 0x05 := by decide
theorem test_illformed_vector_quad : (Instr.vldQ (.v 6) (.s 0) (.v 0)).detail = some 0x05 := by decide
theorem test_illformed_vector_quad_source : (Instr.vstQ (.v 6) (.s 0) (.v 0)).detail = some 0x05 := by decide
theorem test_illformed_accumulator : (Instr.mzero (.v 63)).detail = some 0x05 := by decide
theorem test_illformed_region_field : (Instr.region .nul (.v 3)).detail = some 0x04 := by decide
theorem test_illformed_plane_literal : (Instr.plsel 4).detail = some 0x0B := by decide
theorem test_illformed_barrier_literal : (Instr.barSync 0x24).detail = some 0x0B := by decide
theorem test_illformed_barrier_level : (Instr.barSync 0x60).detail = some 0x0B := by decide
theorem test_illformed_window_literal : (Instr.wbase 32).detail = some 0x0B := by decide
theorem test_illformed_control_register : (Instr.ctlrd (.s 3) 0x13).detail = some 0x09 := by decide
theorem test_illformed_control_literal : (Instr.ctlrd (.s 3) 0x40).detail = some 0x0B := by decide
theorem test_illformed_matrix_pair : (Instr.mma (.v 0) 3 4 1 0).detail = some 0x05 := by decide
theorem test_illformed_matrix_format : (Instr.mma (.v 0) 2 4 6 0).detail = some 0x02 := by decide
theorem test_illformed_matrix_scale : (Instr.mma (.v 0) 2 4 4 1).detail = some 0x03 := by decide

/-! ## Words as the spec's tables and listings spell them (R52, R53) -/

theorem test_decode_scalar_words : ∀ e ∈ ([
    (0x00B97367, .sdivI (.s 5) (.s 6) (.s 7)), (0x47C58FFF, .sslti (.s 2) (.s 3) (-1)), (0x5ACDFF86, .saddpc (.s 6) (-122)),
    (0x1AF8C164, .smovv (.s 3) (.v 2) (.s 4)), (0x5ACDFFC6, .saddpc (.s 6) (-58))] : List (BitVec 32 × Instr)),
  decode e.1 = .ok e.2 := by decide

theorem test_decode_marked_words : ∀ e ∈ ([
    (0xC0CD8810, .saddi (.s 6) (.s 2) 16), (0xCC03E402, .vshli (.v 1) .lane 2), (0x9AC1B280, .vmovs (.v 6) (.s 5)),
    (0x9A198000, .vredAddF (.s 6) (.v 0)), (0xA080F301, .vldW (.v 3) (.s 6) (.v 1)), (0xE5DFFFF2, .bloop (.s 15) (-14)),
    (0xE1DE0010, .bz (.s 15) 16), (0xF8400000, .exit), (0xF97D4006, .ctlrd (.s 21) 6), (0xB81CC000, .mbatch (.s 19)),
    (0xC90A141E, .vandi (.v 5) (.v 5) 30)] : List (BitVec 32 × Instr)),
  decode e.1 = .ok e.2 ∧ parkMark e.1 = true := by decide

theorem test_decode_lane_words : ∀ e ∈ ([
    (0x09AA5427, .vxor (.v 41) (.v 40) (.v 39)), (0x0B820103, .vdp4I (.v 8) (.v 2) (.v 3)), (0x0B000205, .vcmpLtI (.v 4) (.v 5)),
    (0x4C03E402, .vshli (.v 1) .lane 2), (0x10600410, .vffma (.v 0) (.v 8) (.v 16)), (0x11600102, .vfcmpUn (.v 2) (.v 2)),
    (0x12818103, .vhfma (.v 6) (.v 2) (.v 3)), (0x19024600, .vpackLx (.v 9) (.v 12)), (0x19810103, .vshfl (.v 4) (.v 2) (.v 3)),
    (0x19A0C169, .vrot (.v 3) (.v 2) (.s 9)), (0x19C14167, .vbcast (.v 5) (.v 2) (.s 7)), (0x19F98000, .vredAddI (.s 6) (.v 0))]
    : List (BitVec 32 × Instr)),
  decode e.1 = .ok e.2 := by decide

theorem test_decode_mask_and_plane_words : ∀ e ∈ ([
    (0x1B000000, .vif), (0x1B200000, .velse), (0x1B400000, .vendif), (0x1B603180, .xmset (.s 3)), (0x1B98C000, .xmget (.s 3)),
    (0x1BA00200, .plset (.v 4)), (0x1BC00002, .plsel 2), (0x1BE00000, .pljoin), (0x1C000001, .plmask 1), (0x1C394000, .plocc (.s 5)),
    (0x7A403300, .dsave (.s 6)), (0x7A603300, .dload (.s 6))] : List (BitVec 32 × Instr)),
  decode e.1 = .ok e.2 := by decide

theorem test_decode_memory_words : ∀ e ∈ ([
    (0x50100804, .vldWO (.v 8) (.v 2) 4), (0x21217101, .vstW (.v 5) (.s 2) (.v 1)), (0x56CD8400, .sstWO (.s 6) (.s 1) 0),
    (0x2080B101, .vldW (.v 2) (.s 2) (.v 1)), (0x20CB3524, .vldQ (.v 44) (.s 10) (.v 36)), (0x216B3129, .vstQ (.v 44) (.s 2) (.v 41))]
    : List (BitVec 32 × Instr)),
  decode e.1 = .ok e.2 := by decide

theorem test_decode_atomic_and_stream_words : ∀ e ∈ ([
    (0x28013101, .vatomAdd (.v 4) (.s 2) (.v 1)), (0x2901B101, .vatomCas (.v 6) (.s 2) (.v 1)),
    (0x2939B265, .satomAdd (.s 6) (.s 4) (.s 5)), (0x2959B265, .satomCas (.s 6) (.s 4) (.s 5)),
    (0x29817101, .gredAddf (.v 5) (.s 2) (.v 1)), (0x29C0B403, .sqredAddf (.v 2) (.s 8) (.v 3)),
    (0x2A1A3367, .sqopen (.s 8) (.s 6) (.s 7)), (0x2A203400, .sqclose (.s 8)), (0x2A800000, .fenceD), (0x2AE00000, .xfence)]
    : List (BitVec 32 × Instr)),
  decode e.1 = .ok e.2 := by decide

theorem test_decode_barrier_words : ∀ e ∈ ([
    (0x2B400003, .barSync 3), (0x2B400021, .barSync 0x21), (0x2B400040, .barSync 0x40), (0x2B000000, .barArr 0),
    (0x2B200022, .barWt 0x22), (0x2B790002, .barQ (.s 4) 2)] : List (BitVec 32 × Instr)),
  decode e.1 = .ok e.2 := by decide

theorem test_decode_matrix_words : ∀ e ∈ ([
    (0x30002214, .mma (.v 0) 2 4 1 4), (0x30006415, .mma (.v 0) 6 8 1 5), (0x31002210, .mmas (.v 0) 2 4 1 0),
    (0x32500000, .mzero (.v 40)), (0x38194000, .mbatch (.s 5)), (0x38203280, .mwait (.s 5)), (0x3859B280, .mquery (.s 6) (.s 5))]
    : List (BitVec 32 × Instr)),
  decode e.1 = .ok e.2 := by decide

theorem test_decode_copy_and_launch_words : ∀ e ∈ ([
    (0x38793166, .cpy (.s 4) (.s 2) (.s 6)), (0x38993166, .cpyt (.s 4) (.s 2) (.s 6)), (0x38B93166, .cpyq (.s 4) (.s 2) (.s 6)),
    (0x38D9F300, .cwp (.s 7) (.s 6)), (0x38E03367, .cwait (.s 6) (.s 7)), (0x391A3100, .launch (.s 8) (.s 2)),
    (0x393A7400, .lquery (.s 9) (.s 8))] : List (BitVec 32 × Instr)),
  decode e.1 = .ok e.2 := by decide

theorem test_decode_control_words : ∀ e ∈ ([
    (0x66E8000A, .bcall (.s 20) 10), (0x67F1FFFC, .bany (-4)), (0x78603480, .jmp (.s 9)), (0x78803A00, .ret (.s 20)),
    (0x78400000, .exit), (0x78A00002, .wbase 2), (0x79C03180, .tick (.s 3)), (0x79E00000, .spin), (0x78200000, .park),
    (0x62EC0002, .bnz (.s 22) 2)] : List (BitVec 32 × Instr)),
  decode e.1 = .ok e.2 := by decide

theorem test_decode_system_words : ∀ e ∈ ([
    (0x78E0003F, .region (.v 0) (.v 63)), (0x78E0040F, .region (.v 8) (.v 15)), (0x79000003, .trap 3), (0x79200000, .brk 0),
    (0x79400000, .tret), (0x7978C006, .ctlrd (.s 3) 6), (0x79803190, .ctlwr (.s 3) 0x10), (0x79A00005, .svc 5),
    (0x7A193166, .sealst (.s 4) (.s 2) (.s 6)), (0x7A393166, .sealld (.s 4) (.s 2) (.s 6))] : List (BitVec 32 × Instr)),
  decode e.1 = .ok e.2 := by decide

theorem test_decode_refused_words : decode 0x68000000 = .error 0x01 ∧ decode 0x70000000 = .error 0x01 ∧
    decode 0x7FE00000 = .error 0x02 ∧ decode 0x3F000000 = .error 0x02 ∧ decode 0x78400001 = .error 0x03 ∧
    decode 0x2AE00001 = .error 0x03 ∧ decode 0x67000000 = .error 0x04 := ⟨rfl, rfl, rfl, rfl, rfl, rfl, rfl⟩

theorem test_encode_gives_the_word_back : encode false (.cpy (.s 4) (.s 2) (.s 6)) = some 0x38793166 ∧
    encode true (.bz (.s 15) 16) = some 0xE1DE0010 ∧ encode false (.mma (.v 0) 2 4 1 4) = some 0x30002214 := ⟨rfl, rfl, rfl⟩
/-! ## Results -/

/-- A READY package with one group of width 32 and 32 registers, at its first word (R28). -/
def start : State := State.reset.loaded []

def theGroup : Group := newGroup 0 0 1 0 0 0 0 loaderRecord 0

/-- The word at issue, for all lanes of the width. -/
def theIssue : Issue :=
  { gid := 2, core := 0, slot := 0, plane := 0, mask := 0xFFFFFFFF, uniform := false, addr := 0x3000, mark := false, again := false, fate := .done }

/-- The group `g` with a word at issue. -/
def at_ (g : Group) : State := { start with agenda := [], cur := some theIssue, groups := [(2, g)] }

/-- The state that a step leaves; the power-on state if it stops. -/
def next (o : Host.Outcome State Fault Refusal) : State :=
  match o with
  | .next t => t
  | .fault _ => State.reset
  | .refused _ => State.reset

def groupAfter (i : Instr) (s : State) : Group := ((next (exec i s)).groupAt 2).getD default

/-- The newest outstanding result after a word. -/
def newest (i : Instr) (s : State) : Result := ((groupAfter i s).results.getLast?).getD default

/-- A scalar word run with s1 and s2 given: its value. -/
def scalarOf (i : Instr) (a b : Scalar) : List Scalar := (newest i (at_ { theGroup with sregs := [(1, a), (2, b)] })).svals

def row (p : Nat) (l : List Lane) : Table Lane := l.zipIdx.map fun e => (64 * p + e.2, e.1)

/-- The group with the first lanes of v1, v2 and v3 given, at a width. -/
def vec (w : Nat) (a b d : List Lane) : Group := { theGroup with width := w, vregs := row 1 a ++ row 2 b ++ row 3 d }

/-- The newest result's lane, and its flags. -/
def laneOf (i : Instr) (s : State) (j : Nat) : Option Lane × BitVec 5 := ((newest i s).vals.at? j, (newest i s).flags)

/-- A state with its word at issue under another mask. -/
def under (s : State) (m : Mask) : State := { s with cur := some { theIssue with mask := m } }

-- R60, R62 and the examples of spec/03
theorem test_sadd_wraps : scalarOf (.sadd (.s 3) (.s 1) (.s 2)) 0xFFFFFFFFFFFFFFFF 2 = [1] := by decide
theorem test_smulh_signed : scalarOf (.smulhI (.s 3) (.s 1) (.s 2)) 0xFFFFFFFFFFFFFFFF 2 = [0xFFFFFFFFFFFFFFFF] := by decide
theorem test_smulh_unsigned : scalarOf (.smulhN (.s 3) (.s 1) (.s 2)) 0xFFFFFFFFFFFFFFFF 2 = [1] := by decide
theorem test_sdiv_truncates : scalarOf (.sdivI (.s 3) (.s 1) (.s 2)) (-7) 2 = [-3] := by decide
theorem test_smod_sign_of_dividend : scalarOf (.smodI (.s 3) (.s 1) (.s 2)) (-7) 2 = [-1] := by decide
theorem test_sdiv_unsigned : scalarOf (.sdivN (.s 3) (.s 1) (.s 2)) (-7) 2 = [0x7FFFFFFFFFFFFFFC] := by decide
theorem test_smod_unsigned : scalarOf (.smodN (.s 3) (.s 1) (.s 2)) (-7) 2 = [1] := by decide
theorem test_sdiv_by_zero : scalarOf (.sdivI (.s 3) (.s 1) (.s 2)) 5 0 = [0xFFFFFFFFFFFFFFFF] := by decide
theorem test_sdiv_overflow : scalarOf (.sdivI (.s 3) (.s 1) (.s 2)) 0x8000000000000000 (-1) = [0x8000000000000000] := by decide
theorem test_sandn : scalarOf (.sandn (.s 3) (.s 1) (.s 2)) 0b1100 0b1010 = [0b0100] := by decide
theorem test_ssra_fills_with_the_sign : scalarOf (.ssra (.s 3) (.s 1) (.s 2)) (-8) 65 = [-4] := by decide
theorem test_smin_signed : scalarOf (.sminI (.s 3) (.s 1) (.s 2)) (-1) 2 = [-1] := by decide
theorem test_smin_unsigned : scalarOf (.sminN (.s 3) (.s 1) (.s 2)) (-1) 2 = [2] := by decide
theorem test_sslt_unsigned : scalarOf (.ssltN (.s 3) (.s 1) (.s 2)) (-1) 2 = [0] := by decide
theorem test_sclz : scalarOf (.sclz (.s 3) (.s 1)) 0x100 0 = [55] ∧ scalarOf (.sclz (.s 3) (.s 1)) 0 0 = [64] := by decide
theorem test_slui_builds_a_constant : scalarOf (.slui (.s 1) 256) 0x00007FF900000000 0 = [0xFFF2000000000100] := by decide
theorem test_saddi_negative : scalarOf (.saddi (.s 3) (.s 1) (-1)) 0 0 = [0xFFFFFFFFFFFFFFFF] := by decide
theorem test_saddpc_reads_the_offset :
    (newest (.saddpc (.s 6) (-58)) (at_ { theGroup with off := 64 })).svals = [0x3000 + 6 * 4] := by decide

-- R116 to R118 and the examples of spec/05
theorem test_vmulh_signed : laneOf (.vmulhI (.v 4) (.v 1) (.v 2)) (at_ (vec 32 [0xFFFFFFFF] [2] [])) 0 = (some 0xFFFFFFFF, 0) := by decide
theorem test_vmad_adds_the_destination : laneOf (.vmad (.v 3) (.v 1) (.v 2)) (at_ (vec 32 [3] [5] [100])) 0 = (some 115, 0) := by decide
theorem test_vsra_by_forty : laneOf (.vsra (.v 4) (.v 1) (.v 2)) (at_ (vec 32 [0x80000000] [40] [])) 0 = (some 0xFFFFFFFF, 0) := by decide
theorem test_vdp4_signed : laneOf (.vdp4I (.v 3) (.v 1) (.v 2)) (at_ (vec 32 [0x80FF0201] [0x02037F05] [100])) 0 = (some 100, 0) := by decide
theorem test_vdp4_unsigned : laneOf (.vdp4N (.v 3) (.v 1) (.v 2)) (at_ (vec 32 [0x80FF0201] [0x02037F05] [100])) 0 = (some 0x564, 0) := by decide
theorem test_vcmp_keeps_inactive_lanes :
    (groupAfter (.vcmpLtI (.v 1) (.v 2)) (under (at_ { vec 32 [0xFFFFFFFF, 5] [0, 5] [] with cm := 0b110 }) 0b011)).cm = 0b101 := by decide
theorem test_vsel_reads_cm : laneOf (.vsel (.v 4) (.v 1) (.v 2)) (at_ { vec 32 [7, 7] [9, 9] [] with cm := 0b10 }) 0 = (some 9, 0) := by decide

-- R89 to R127
theorem test_vfadd_exact : laneOf (.vfadd (.v 4) (.v 1) (.v 2)) (at_ (vec 32 [0x3F800000] [0x40000000] [])) 0 = (some 0x40400000, 0) := by decide
theorem test_vhadd_overflows_in_one_element :
    laneOf (.vhadd (.v 4) (.v 1) (.v 2)) (at_ (vec 32 [0x3C007BFF] [0x14005000] [])) 0 = (some 0x3C017C00, 0b10100) := by decide
theorem test_vhadd_toward_zero :
    laneOf (.vhadd (.v 4) (.v 1) (.v 2)) (at_ { vec 32 [0x3C007BFF] [0x14005000] [] with rmode := 1 }) 0 = (some 0x3C017BFF, 0b10100) := by decide
theorem test_vfmin_beside_a_quiet_nan :
    laneOf (.vfmin (.v 4) (.v 1) (.v 2)) (at_ (vec 32 [0x7FC00000] [0xC0400000] [])) 0 = (some 0xC0400000, 0) := by decide
theorem test_vfmin_beside_a_signalling_nan :
    laneOf (.vfmin (.v 4) (.v 1) (.v 2)) (at_ (vec 32 [0x7F800001] [0xC0400000] [])) 0 = (some 0xC0400000, 1) := by decide
theorem test_vpack_lx :
    laneOf (.vpackLx (.v 9) (.v 4)) (at_ { theGroup with
      vregs := row 4 [0x3F800000] ++ row 5 [0x40000000] ++ row 6 [0xBFC00000] ++ row 7 [0x45C00000] }) 0 = (some 0x07F03060, 0b10000) := by decide
theorem test_vunpk_lx : (newest (.vunpkLx (.v 12) (.v 1)) (at_ (vec 32 [0x07F03060] [] []))).vals.at? 192 = some 0x45800000 := by decide

-- R129 to R134
theorem test_vshfl_beyond_the_width : (newest (.vshfl (.v 4) (.v 1) (.v 2)) (under (at_ (vec 16 [0, 10, 20, 30, 40, 50, 60, 70, 80, 90] [3, 17, 9] []))
    0b111)).vals = [(0, 30), (1, 0), (2, 90)] := by decide
theorem test_vscan_over_active_lanes : (newest (.vscanAddI (.v 4) (.v 1)) (under (at_ (vec 16 [1, 2, 3, 4, 5, 6, 7, 8, 9, 10, 11, 12, 13, 14, 15, 16] [] []))
    0xF0F0)).vals = [(4, 5), (5, 11), (6, 18), (7, 26), (12, 39), (13, 53), (14, 68), (15, 84)] := by decide
theorem test_vred_add_f_takes_the_tree : (newest (.vredAddF (.s 3) (.v 1)) (under (at_ (vec 16
    [0x4B800000, 0x3F800000, 0x3F800000, 0x3F800000, 0x3F800000, 0x3F800000, 0x3F800000, 0x3F800000, 0x3F800000, 0x3F800000, 0x3F800000,
     0x3F800000, 0x3F800000, 0x3F800000, 0x3F800000, 0x3F800000] [] [])) 0xFFFF)).svals = [0x4B800007] := by decide
theorem test_vred_min_of_no_lane : (newest (.vredMinI (.s 6) (.v 1)) (under (at_ (vec 16 [5] [] [])) 0)).svals = [0x7FFFFFFF] := by decide
theorem test_vballot : (newest (.vballot (.s 6) (.v 1)) (under (at_ (vec 16 [1, 0, 2, 3] [] [])) 0b0111)).svals = [0b101] := by decide

-- R167, R168, R182
theorem test_vif_narrows : (groupAfter .vif (at_ { theGroup with cm := 0xF0 })).xm = 0xF0 ∧
    (groupAfter .vif (at_ { theGroup with cm := 0xF0 })).stack = [0xFFFFFFFF] := by decide
theorem test_velse_turns : (groupAfter .velse (at_ { theGroup with stack := [0xFF], xm := 0xF0 })).xm = 0x0F := by decide
theorem test_vendif_without_vif : (groupAfter .vendif (at_ theGroup)).tcause = 4 := by decide
theorem test_plset_masks_the_plane : (groupAfter (.plset (.v 1)) (at_ { vec 32 [3, 5] [] [] with planes := 2 })).pl.take 2 = [(0, 1), (1, 1)] := by decide
theorem test_plmask : (groupAfter (.plmask 1) (at_ { theGroup with pl := [(0, 1), (5, 1)], planes := 2 })).cm = 0x21 := by decide

-- R67 to R76
theorem test_bcall_writes_its_scalar : (groupAfter (.bcall (.s 20) 10) (at_ { theGroup with off := 40 })).scalar 20 = 41 ∧
    (next (exec (.bcall (.s 20) 10) (at_ { theGroup with off := 40 }))).cur = some { theIssue with fate := .goto 50 } := by decide
theorem test_bloop_falls_through_at_one : (groupAfter (.bloop (.s 1) (-4)) (at_ { theGroup with sregs := [(1, 1)] })).scalar 1 = 0 ∧
    (next (exec (.bloop (.s 1) (-4)) (at_ { theGroup with sregs := [(1, 1)] }))).cur = some theIssue := by decide
theorem test_branch_outside_the_program : (groupAfter (.bra (-4)) (at_ theGroup)).tcause = 15 := by decide
theorem test_tick_is_bounded : (groupAfter (.tick (.s 1)) (at_ { theGroup with sregs := [(1, 0x123456)], clk := 5 })).clk = 65540 := by decide

-- R42, R43, R289, R320
theorem test_ctlrd_reads_gctl : (newest (.ctlrd (.s 3) 0) (at_ theGroup)).svals = [0x40] := by decide
theorem test_ctlwr_clears_flags : (groupAfter (.ctlwr (.s 1) 0x10) (at_ { theGroup with sregs := [(1, 0b00101)], flags := 0b11111 })).flags = 0b11010 := by decide
theorem test_trap_records_its_cause : (groupAfter (.trap 3) (at_ theGroup)).tcause = 0x8309 ∧ (groupAfter (.trap 3) (at_ theGroup)).mode = .steward ∧
    (groupAfter (.trap 3) (at_ theGroup)).taddr = 0x3000 := by decide
theorem test_privileged_word_traps : (groupAfter .tret (at_ theGroup)).tcause = 0x0801 := by decide

-- R215, R218, R228: an access begins, and is performed later
theorem test_vld_begins : (next (exec (.vldW (.v 4) (.s 1) (.v 1)) (under (at_ { theGroup with sregs := [(1, 0x3000)] }) 1))).loads.length = 1 := by decide
theorem test_vst_is_buffered : ((next (exec (.vstW (.v 4) (.s 1) .nul) (under (at_ { vec 32 [] [] [] with sregs := [(1, 0x8000)] }) 1))).entries.map
    fun e => (e.bytes, e.line)) = [([(0, 0), (1, 0), (2, 0), (3, 0)], .dram 0 0x8000)] := by decide
theorem test_misaligned_store_traps : (groupAfter (.vstW (.v 4) (.s 1) .nul) (at_ { theGroup with sregs := [(1, 0x8002)] })).tcause = 6 := by decide
theorem test_lease_of_a_load : ((next (exec (.sldW (.s 4) (.s 1) .nul) (at_ { theGroup with sregs := [(1, 0x3000)], clk := 9 }))).loads.map
    fun x => (x.clk, x.lease)) = [(9, 16)] := by decide

-- One step of a program just loaded runs its first word (withFetchWord)
theorem test_step_runs_the_word_placed : ((next (step (State.reset.withFetchWord 32 0x1B000000))).groupAt 2).map (fun g => (g.off, g.stack)) =
    some (1, [0xFFFFFFFF]) := by decide
theorem test_step_of_an_unassigned_word_traps :
    ((next (step (State.reset.withFetchWord 32 0x7FE00000))).groupAt 2).map (fun g => (g.tcause, g.mode)) = some (0x0201, .steward) := by decide
/-! ## Witnesses: a state and operands that meet the hypotheses of each statement -/

/-- Nothing stands before the effect of a word at issue. -/
def ready (i : Instr) (s : State) : Bool :=
  match s.cur with
  | none => false
  | some c => match s.groupAt c.gid with
    | none => false
    | some g => decide (illegalDetail s g i = none) && (decide (c.mask = 0) || decide (g.regHazard (vectorDests g i) = none)) && !stalled g i

theorem ready_of {i : Instr} {s : State} {c : Issue} {g : Group} (hc : s.cur = some c) (hg : s.groupAt c.gid = some g)
    (h : ready i s = true) : Ready i s c g := by
  simp only [ready, hc, hg, Bool.and_eq_true, Bool.or_eq_true, decide_eq_true_eq, Bool.not_eq_true'] at h
  exact ⟨hc, hg, h.1.1, h.1.2, h.2⟩

theorem ready_at {i : Instr} {g : Group} (h : ready i (at_ g) = true) : Ready i (at_ g) theIssue g := ready_of rfl rfl h

theorem reaches_of {s : State} {c : Issue} {g : Group} {scalar write regs : Bool} {size : Nat} {la : List (Nat × Scalar)}
    (h : s.addressTrap c g scalar regs size la = none) (h' : (s.locateAll c g write la).2.2 = []) :
    Reaches s c g scalar write regs size la (s.locateAll c g write la).1 (s.locateAll c g write la).2.1 :=
  ⟨h, Prod.ext rfl (Prod.ext rfl h')⟩

def rrr (l : List (Reg → Reg → Reg → Instr)) (d a b : Reg) : List Instr := l.map fun f => f d a b
def rr (l : List (Reg → Reg → Instr)) (d a : Reg) : List Instr := l.map fun f => f d a

theorem readies {g : Group} {l : List Instr} (h : ∀ i ∈ l, ready i (at_ g) = true) :
    ∀ i ∈ l, Ready i (at_ g) theIssue g := fun i hi => ready_at (h i hi)

theorem witness_ScalarArithmetic : ∀ i ∈ rrr [.sadd, .ssub, .smul, .smulhI, .smulhN, .sand, .sor, .sxor, .sandn, .sshl, .sshr, .ssra, .sminI,
      .sminN, .smaxI, .smaxN, .ssltI, .ssltN, .sseq] (.s 3) (.s 1) (.s 2) ++ rr [.smov, .sclz, .spop] (.s 3) (.s 1) ++
      [Instr.saddi (.s 3) (.s 1) 5, .sandi (.s 3) (.s 1) 5, .sori (.s 3) (.s 1) 5, .sxori (.s 3) (.s 1) 5, .smovi (.s 3) 5, .slui (.s 3) 5,
       .saddpc (.s 3) 5, .sshli (.s 3) (.s 1) 63, .sshri (.s 3) (.s 1) 63, .ssrai (.s 3) (.s 1) 63, .sslti (.s 3) (.s 1) 5],
    Ready i (at_ theGroup) theIssue theGroup := readies (by decide)

theorem witness_ScalarDivision : ∀ i ∈ rrr [.sdivI, .sdivN, .smodI, .smodN] (.s 3) (.s 1) (.s 2),
    Ready i (at_ theGroup) theIssue theGroup := readies (by decide)

theorem witness_LaneArithmetic : ∀ i ∈ rrr [.vadd, .vsub, .vmul, .vmulhI, .vmulhN, .vmad, .vminI, .vminN, .vmaxI, .vmaxN, .vand, .vor, .vxor,
      .vandn, .vshl, .vshr, .vsra, .vsel, .vdp4I, .vdp4N] (.v 3) (.v 1) (.v 2) ++ rr [.vabs, .vclz, .vpop, .vbrev] (.v 3) (.v 1) ++
      [Instr.vaddi (.v 3) (.v 1) 5, .vandi (.v 3) (.v 1) 5, .vori (.v 3) (.v 1) 5, .vxori (.v 3) (.v 1) 5, .vmovi (.v 3) 5,
       .vshli (.v 3) (.v 1) 31, .vshri (.v 3) (.v 1) 31, .vsrai (.v 3) (.v 1) 31],
    Ready i (at_ theGroup) theIssue theGroup := readies (by decide)

theorem witness_LaneCompares : ∀ i ∈ rr [.vcmpEq, .vcmpNe, .vcmpLtI, .vcmpLtN, .vcmpLeI, .vcmpLeN, .vfcmpEq, .vfcmpUn, .vfcmpLt, .vfcmpLe]
      (.v 3) (.v 1), Ready i (at_ theGroup) theIssue theGroup := readies (by decide)

theorem witness_FloatArithmetic : ∀ i ∈ rrr [.vfadd, .vfsub, .vfmul, .vffma, .vhadd, .vhmul, .vhfma, .vbadd, .vbmul, .vbfma, .vfmin, .vfmax]
      (.v 3) (.v 1) (.v 2) ++ rr [.vfabs, .vfneg, .vfrcp, .vfsqrt, .vfrsq, .vfexp2, .vflog2, .vftanh] (.v 3) (.v 1),
    Ready i (at_ theGroup) theIssue theGroup := readies (by decide)

/-- 1 and −1: a zero sum. -/
theorem witness_FloatValuesExact : ratio false 1 0 + ratio true 1 0 = 0 := by norm_num [ratio]

/-- 1.0 in either mode, and the code of 1.0. -/
theorem witness_FloatRounding : fp32 ∈ [fp32, fp16, bf16] ∧ (1 : Nat) ≠ 0 ∧ fp32.round 1 false false 1 0 = (0x3F800000, 0) ∧
    ratio false 1 0 < magnitude fp32 fp32.infCode ∧ 0x3F800000 < fp32.infCode ∧ magnitude fp32 0x3F800000 ≤ ratio false 1 0 ∧
    fp32.round 0 false false 1 0 = (0x3F800000, 0) ∧ 0x3F800000 < 2 * fp32.signBit ∧ 0x3F800000 % fp32.signBit ≤ fp32.infCode :=
  ⟨by simp, by decide, by decide, by norm_num [ratio, magnitude, fp32, Fmt.infCode], by decide, by norm_num [ratio, magnitude, fp32],
    by decide, by decide, by decide⟩

/-- Codes of each kind: NaNs, an infinity, a subnormal number, a normal one, a zero; of each pair, and of each three, that a clause
asks for, a product of a zero and an infinity among them; and a result that FTZ makes zero. -/
theorem witness_FloatRounding_codes : let r (c : Nat) : Val := fp32.read false c
    (∀ c ∈ [0x7F800001, 0xFFC00000], c < 2 * fp32.signBit ∧ fp32.infCode < c % fp32.signBit) ∧ 0xFF800000 % fp32.signBit = fp32.infCode ∧
    1 % fp32.signBit < 2 ^ fp32.fb ∧ 2 ^ fp32.fb ≤ 0x80800000 % fp32.signBit ∧
    r 0x7F800001 = .nan true ∧ r 0x7FC00000 = .nan false ∧ r 0x7F800000 = .inf false ∧ r 0xFF800000 = .inf true ∧
    (∃ m e, r 0x3F800000 = .fin false m e ∧ m ≠ 0) ∧ (∃ e, r 0x80000000 = .fin true 0 e) ∧ (∃ m e, r 0xC0000000 = .fin true m e ∧ m ≠ 0) ∧
    fp32.addc ⟨0, false⟩ 0x7F800000 0xFF800000 = (0x7FC00000, 1) ∧ fp32.mulc ⟨0, false⟩ 0x80000000 0x7F800000 = (0x7FC00000, 1) ∧
    fp32.fmac ⟨0, false⟩ 0x80000000 0x7F800000 0x7FC00000 = (0x7FC00000, 1) ∧ (fp32.round 0 false false 1 (-149)).1 < 2 ^ fp32.fb :=
  ⟨by decide, by decide, by decide, by decide, rfl, rfl, rfl, rfl, ⟨_, _, rfl, by decide⟩, ⟨_, rfl⟩, ⟨_, _, rfl, by decide⟩, by decide,
    by decide, by decide, by decide⟩

theorem witness_Conversions : ∀ i ∈ rr [.vcvtFI, .vcvtIF, .vcvtFH, .vcvtFB, .vcvtHF, .vcvtBF, .vpackE4, .vpackE5, .vpackLx, .vunpkE4, .vunpkE5,
      .vunpkLx] (.v 4) (.v 8), Ready i (at_ theGroup) theIssue theGroup := readies (by decide)

theorem witness_CrossLaneWords : ∀ i ∈ [Instr.vshfl (.v 3) (.v 1) (.v 2), .vrot (.v 3) (.v 1) (.s 2), .vbcast (.v 3) (.v 1) (.s 2),
      .vmovs (.v 3) (.s 1), .vscanAddI (.v 3) (.v 1), .smovv (.s 3) (.v 1) (.s 2), .vballot (.s 3) (.v 1)],
    Ready i (at_ theGroup) theIssue theGroup := readies (by decide)

theorem witness_Reductions : theGroup.width ∈ [16, 32, 64] ∧
    ∀ i ∈ rr [.vredAddI, .vredMinI, .vredMaxI, .vredAddF, .vredMaxF] (.s 3) (.v 1), Ready i (at_ theGroup) theIssue theGroup :=
  ⟨by decide, readies (by decide)⟩

/-- An empty stack, one entry, and a full stack. -/
theorem witness_MaskStackWords : (∀ i ∈ [Instr.vif, .velse, .vendif, .xmset (.s 3), .xmget (.s 3)],
      Ready i (at_ theGroup) theIssue theGroup) ∧ theGroup.stack = [] ∧
    (∀ i ∈ [Instr.vif, .velse, .vendif], Ready i (at_ { theGroup with stack := [0xFF] }) theIssue { theGroup with stack := [0xFF] }) ∧
    Ready .vif (at_ { theGroup with stack := List.replicate 8 0xFF }) theIssue { theGroup with stack := List.replicate 8 0xFF } :=
  ⟨readies (by decide), by decide, readies (by decide), ready_at (by decide)⟩

theorem witness_PlaneWords : ∀ i ∈ [Instr.plset (.v 1), .plsel 1, .pljoin, .plmask 1, .plocc (.s 3)],
    Ready i (at_ { theGroup with planes := 4 }) theIssue { theGroup with planes := 4 } := readies (by decide)

/-! Accesses: s1 points at the program's page, in the glade's memory -/

def reader : Group := { theGroup with sregs := [(1, 0x8000)] }

/-- The checks of accesses pass, no translation faults, and there is an access. -/
def passes (s : State) (c : Issue) (g : Group) (scalar write regs : Bool) (size : Nat) (la : List (Nat × Scalar)) : Bool :=
  decide (s.addressTrap c g scalar regs size la = none) && (s.locateAll c g write la).2.2.isEmpty && !la.isEmpty

theorem reaches_passes {s : State} {c : Issue} {g : Group} {scalar write regs : Bool} {size : Nat} {la : List (Nat × Scalar)}
    (h : passes s c g scalar write regs size la = true) :
    la ≠ [] ∧ ∃ t good, Reaches s c g scalar write regs size la t good := by
  simp only [passes, Bool.and_eq_true, decide_eq_true_eq, List.isEmpty_iff, Bool.not_eq_true', List.isEmpty_eq_false_iff] at h
  exact ⟨h.2, _, _, reaches_of h.1.1 h.1.2⟩

theorem witness_AccessesLocated : [(0, (0x8000 : Scalar))] ≠ [] ∧
    ∃ t good, Reaches (at_ reader) theIssue reader true false true 4 [(0, 0x8000)] t good := reaches_passes (by decide)

/-- The glade with 40 GiB of each slice interleaved; and its context with severed ports, a leaf of the tables given, or cached. -/
def sharing : State := { start with glades := [(0, { start.gladeAt 0 with shareB := 40 })] }
def severing : State := { start with contexts := [(0, { start.contextAt 0 with sevp := 2, sevgb := true })] }
def leafy (e : Scalar) : State := { start with dram := start.dram.writeN 0x2000 (toBytes e.toNat 8) }
def cachedLeaf (e : Scalar) : State :=
  { start with cores := [(0, { Core.reset with tlb := [{ ctx := 0, base := 0, size := 2 ^ 30, leaf := e }] })] }

/-- R205 at the last interleaved page and the first placed one; R315's example. -/
theorem witness_AccessesLocated_places : (sharing.gladeAt 0).len * (sharing.gladeAt 0).shareB * 2 ^ 30 = 0xA00000000 ∧
    (0x9FFFFFFFF : Nat) < 0xA00000000 ∧ (sharing.gladeAt 0).shareB < 48 ∧ sharing.dramPlace 0 0x9FFFFFFFF = .dram 0 0x9FFFFFFFF ∧
    sharing.dramPlace 0 0xA00000000 = .dram 0 0xA00000000 ∧
    ((List.range 4).map fun k => 0x123456789AB / 2 ^ [39, 30, 21, 16].getD k 0 % [512, 512, 512, 32].getD k 0) = [2, 141, 43, 7] := by decide

/-- Entries of a level that are ill-formed, each for another reason; valid leaves and tables; and one that is not valid. -/
theorem witness_AccessesLocated_entries :
    (∀ x ∈ [(1, 0x0100000000000083), (1, 0x87), (0, 0x83), (1, 0x20000083), (1, 0x9B), (1, 0x1000000000000083), (1, 0x400000000000008B),
        (1, 0xC000000000000093), (1, 0xC00000083), (3, 0x2001), (1, 0xC00000001), (1, 0x2101)], (x.2 : Scalar).getLsbD 0 = true ∧
      IllFormed x.1 (2 ^ [39, 30, 21, 16].getD x.1 0) (48 * 2 ^ 30) x.2) ∧
    (∀ x ∈ [(1, 0x83), (1, 0x300000000000008B), (1, 0xB000000000000093), (2, 0xBFFE00081), (3, 0x10081), (2, 0x2101), (0, 0x2001)],
      (x.2 : Scalar).getLsbD 0 = true ∧ ¬ IllFormed x.1 (2 ^ [39, 30, 21, 16].getD x.1 0) (48 * 2 ^ 30) x.2) ∧ (0x82 : Scalar).getLsbD 0 = false := by
  unfold IllFormed; decide

/-- Leaves that are severed, misplaced, a peer's, not writable with and without DT, and good; placed and not. -/
theorem witness_AccessesLocated_leaves :
    backOf 0x100000000000008B = 1 ∧ ((severing.contextAt 0).sevp).getLsbD (tgtOf 0x100000000000008B) = true ∧
    (0xA3 : Scalar).getLsbD 5 = true ∧ (severing.contextAt 0).sevgb = true ∧
    (let at_ := (sharing.gladeAt 0).len * (sharing.gladeAt 0).shareB * 2 ^ 30
     ¬ frameOf 0xA00000083 < at_ ∧ frameOf 0x9C0000083 < at_ ∧ (0x0800000A00000083 : Scalar).getLsbD 59 = true ∧
      at_ ≤ frameOf 0x0800000A00000083 ∧ (0 + (frameOf 0x0800000A00000083 - at_) / ((48 - 40) * 2 ^ 30)) / 3 = 0 ∧ ¬ at_ ≤ frameOf 0x0800000000000083) ∧
    backOf 0x93 = 2 ∧ backOf 0x83 = 0 ∧ backOf 0x8B = 1 ∧ (0x81 : Scalar).getLsbD 1 = false ∧ (0xC1 : Scalar).getLsbD 6 = true ∧
    (0x81 : Scalar).getLsbD 6 = false := by decide

def fails {ε α : Type} (x : Except ε α) : Bool :=
  match x with
  | .ok _ => false
  | .error _ => true

/-- A core that has cached a leaf that permits the access, one that does not, and none; of which walks end each way. -/
theorem witness_AccessesLocated_cached : (start.coreAt 0).cached 0 0x8000 = none ∧
    ((cachedLeaf 0x83).coreAt 0).cached 0 0x8000 = some ⟨0x83, 0, 1073741824⟩ ∧
    ((cachedLeaf 0x81).coreAt 0).cached 0 0x8000 = some ⟨0x81, 0, 1073741824⟩ ∧
    fails (start.judge 0 ⟨0x83, 0, 1073741824⟩ 0x8000 true true) = false ∧ fails (start.judge 0 ⟨0x81, 0, 1073741824⟩ 0x8000 true true) = true ∧
    start.walk 0 0x8000 = .ok ⟨0x83, 0, 1073741824⟩ ∧ (leafy 0x81).walk 0 0x8000 = .ok ⟨0x81, 0, 1073741824⟩ ∧
    fails ((leafy 0x82).walk 0 0x8000) = true :=
  ⟨by decide, by decide, by decide, by decide, by decide, by rfl, by rfl, by decide⟩

/-- Forms of accesses: the word, whether it is scalar, its size and its accesses. -/
abbrev Form := Instr × Bool × Nat × List (Nat × Scalar)

def lanesAt (g : Group) : List (Nat × Scalar) := eachLane theIssue g (laneBase g (.s 1) (.v 8))

def loadForms : List Form :=
  [(.vldB (.v 4) (.s 1) (.v 8), false, 1, lanesAt reader), (.vldBI (.v 4) (.s 1) (.v 8), false, 1, lanesAt reader),
   (.vldH (.v 4) (.s 1) (.v 8), false, 2, lanesAt reader), (.vldHI (.v 4) (.s 1) (.v 8), false, 2, lanesAt reader),
   (.vldW (.v 4) (.s 1) (.v 8), false, 4, lanesAt reader), (.vldD (.v 4) (.s 1) (.v 8), false, 8, lanesAt reader),
   (.vldQ (.v 4) (.s 1) (.v 8), false, 16, lanesAt reader),
   (.vldWO (.v 4) (.v 8) 16, false, 4, eachLane theIssue reader (laneOffset reader (.v 8) 16 4)),
   (.vldDO (.v 4) (.v 8) 16, false, 8, eachLane theIssue reader (laneOffset reader (.v 8) 16 8)),
   (.sldW (.s 4) (.s 1) .nul, true, 4, [(0, 0x8000)]), (.sldD (.s 4) (.s 1) .nul, true, 8, [(0, 0x8000)]),
   (.sldWO (.s 4) (.s 1) 0, true, 4, [(0, 0x8000)]), (.sldDO (.s 4) (.s 1) 0, true, 8, [(0, 0x8000)])]

theorem witness_Loads : ∀ e ∈ loadForms, Ready e.1 (at_ reader) theIssue reader ∧ e.2.2.2 ≠ [] ∧
    ∃ t good, Reaches (at_ reader) theIssue reader e.2.1 false true e.2.2.1 e.2.2.2 t good := by
  have h : ∀ e ∈ loadForms, ready e.1 (at_ reader) = true ∧ passes (at_ reader) theIssue reader e.2.1 false true e.2.2.1 e.2.2.2 = true := by
    decide
  exact fun e he => ⟨ready_at (h e he).1, reaches_passes (h e he).2⟩

def storeForms : List Form :=
  [(.vstB (.v 4) (.s 1) (.v 8), false, 1, lanesAt reader), (.vstH (.v 4) (.s 1) (.v 8), false, 2, lanesAt reader),
   (.vstW (.v 4) (.s 1) (.v 8), false, 4, lanesAt reader), (.vstD (.v 4) (.s 1) (.v 8), false, 8, lanesAt reader),
   (.vstQ (.v 4) (.s 1) (.v 8), false, 16, lanesAt reader),
   (.vstWO (.v 4) (.v 8) 16, false, 4, eachLane theIssue reader (laneOffset reader (.v 8) 16 4)),
   (.vstDO (.v 4) (.v 8) 16, false, 8, eachLane theIssue reader (laneOffset reader (.v 8) 16 8)),
   (.sstW (.s 4) (.s 1) .nul, true, 4, [(0, 0x8000)]), (.sstD (.s 4) (.s 1) .nul, true, 8, [(0, 0x8000)]),
   (.sstWO (.s 4) (.s 1) 0, true, 4, [(0, 0x8000)]), (.sstDO (.s 4) (.s 1) 0, true, 8, [(0, 0x8000)])]

/-- The stores reach their bytes, disturb no matrix instruction, and the store buffer has room. -/
theorem witness_Stores : ∀ e ∈ storeForms, Ready e.1 (at_ reader) theIssue reader ∧ e.2.2.2 ≠ [] ∧
    ∃ t good, Reaches (at_ reader) theIssue reader e.2.1 true true e.2.2.1 e.2.2.2 t good ∧
      reader.memHazard 2 (good.map fun x => (x.1, x.2.2, e.2.2.1)) = none ∧
      (at_ reader).bufferRoom 2 reader.core ((good.filter fun x => x.2.2.isGlobal).map fun x => x.2.2.line) = true := by
  have h : ∀ e ∈ storeForms, ready e.1 (at_ reader) = true ∧ e.2.2.2 ≠ [] ∧
      (at_ reader).addressTrap theIssue reader e.2.1 true e.2.2.1 e.2.2.2 = none ∧
      ((at_ reader).locateAll theIssue reader true e.2.2.2).2.2 = [] ∧
      reader.memHazard 2 (((at_ reader).locateAll theIssue reader true e.2.2.2).2.1.map fun x => (x.1, x.2.2, e.2.2.1)) = none ∧
      (at_ reader).bufferRoom 2 reader.core ((((at_ reader).locateAll theIssue reader true e.2.2.2).2.1.filter fun x => x.2.2.isGlobal).map
        fun x => x.2.2.line) = true := by decide
  intro e he
  obtain ⟨h1, h2, h3, h4, h5, h6⟩ := h e he
  exact ⟨ready_at h1, h2, _, _, reaches_of h3 h4, h5, h6⟩

/-- A store of 4 bytes at byte 124 of a line: the last that the line has room for. -/
theorem witness_StoresIssued : ∀ w ∈ [((0x807C : Scalar), Place.dram 0 0x807C, [(1 : Byte), 2, 3, 4])], w.2.1.offset % 128 + w.2.2.length ≤ 128 := by
  decide

/-- A group in its handler, with a stack of one entry, and s1 at 8 bytes of memory. -/
def handler : Group := { reader with mode := .steward, stack := [0xFF] }

theorem witness_StackSpills_words : theIssue.fate = .done ∧
    (∀ i ∈ [Instr.dsave (.s 1), .dload (.s 1)], Ready i (at_ handler) theIssue handler) ∧
    Ready (.vpref (.s 1) (.v 8)) (at_ reader) theIssue reader ∧
    Ready (.dsave (.s 1)) (at_ { handler with stack := [] }) theIssue { handler with stack := [] } ∧
    Ready (.dload (.s 1)) (at_ { handler with stack := List.replicate 8 0xFF }) theIssue { handler with stack := List.replicate 8 0xFF } :=
  ⟨rfl, readies (by decide), ready_at (by decide), ready_at (by decide), ready_at (by decide)⟩

/-- The translation of the address in s1, for a store and for a load. -/
def spill (write : Bool) : State × List Located × List Faulted := (at_ handler).locateAll theIssue handler write [(0, 0x8000)]

theorem witness_StackSpills_store :
    Reaches (at_ handler) theIssue handler true true true 8 [(0, 0x8000)] (spill true).1 [(0, 0x8000, .dram 0 0x8000)] ∧
    handler.memHazard 2 [(0, .dram 0 0x8000, 8)] = none ∧ (at_ handler).bufferRoom 2 handler.core [.dram 0 0x8000] = true :=
  ⟨⟨by decide, Prod.ext rfl (by decide)⟩, by decide, by decide⟩

def spillLoad : Load :=
  { seq := (spill false).1.nextId, gid := 2, size := 8, widen := .dword, lanes := [(spill false).1.loadLane 2 handler 8 (0, 0x8000, .dram 0 0x8000)],
    clk := handler.clk, lease := handler.lease.toNat, rest := [(spill false).1.loadLane 2 handler 8 (0, 0x8000, .dram 0 0x8000)], data := [],
    w := 0, hit := true, poison := none, own := false }

/-- A host may hold the line at 0x8000 of slice 0 newer than its home; and its first sector is poisoned. -/
def hostHolds (s : State) : State := { s with lines := [(0x100, { (default : Line) with present := 1 })] }
def poisonedAt (s : State) : State := s.setPoison (.dram 0 0x8000)

/-- The group waits for its own read `x`, the load of number 7. -/
def awaiting (x : Load) (s : State) (g : Group) : State :=
  { s with groups := [(2, { g with wait := .reading 7 })], loads := [{ x with seq := 7, own := true }] }

/-- A read of a word's own may be performed and meets poison where there is some; it may not while a host holds the line newer. -/
def readRuns (s : State) (g : Group) (x : Load) (bytes : Table Nat) : Bool :=
  s.loadReady x && decide ((s.performLoad g.ctx g.core x).2.data = bytes) && decide ((s.performLoad g.ctx g.core x).2.poison = none) &&
  decide (((poisonedAt s).performLoad g.ctx g.core x).2.poison = some 3) && !(hostHolds s).loadReady x

/-- The word's own read is still under way: found by its number, and no port severed. -/
def readWaits (i : Instr) (s : State) (g : Group) (x : Load) (bytes : Table Nat) : Bool :=
  let r := awaiting x s g
  let y := { x with seq := 7, own := true }
  ready i r && decide (r.loads.find? (fun z => decide (z.seq = 7)) = some y) && !y.rest.any (r.cutLane y) && readRuns r g y bytes

theorem witness_StackSpills_load :
    Reaches (at_ handler) theIssue handler true false true 8 [(0, 0x8000)] (spill false).1 [(0, 0x8000, .dram 0 0x8000)] ∧
    (spill false).1.newLoad theIssue handler 8 .dword [(0, 0x8000, .dram 0 0x8000)] = spillLoad ∧
    readRuns (spill false).1 handler spillLoad [(0, 0)] = true ∧ readWaits (.dload (.s 1)) (at_ handler) handler spillLoad [(0, 0)] = true :=
  ⟨⟨by decide, Prod.ext rfl (by decide)⟩, rfl, by decide, by decide⟩

/-- The atomics of a group whose fence waits are over. -/
def fenced : Group := { reader with wait := .fenced }

def atomicForms : List Form :=
  (rrr [.vatomAdd, .vatomAddf, .vatomMinI, .vatomMaxI, .vatomAnd, .vatomOr, .vatomXor, .vatomXchg, .vatomCas] (.v 4) (.s 1) (.v 8)).map
    (fun i => (i, false, 4, lanesAt reader)) ++
  [(.satomAdd (.s 4) (.s 1) .nul, true, 8, [(0, 0x8000)]), (.satomCas (.s 4) (.s 1) .nul, true, 8, [(0, 0x8000)])]

/-- A group whose address is not aligned. -/
def misaligned2 : Group := { theGroup with sregs := [(1, 0x8002)] }

theorem witness_Atomics_misaligned :
    Ready (.vatomAdd (.v 4) (.s 1) (.v 8)) (at_ misaligned2) theIssue misaligned2 ∧
    Ready (.satomAdd (.s 4) (.s 1) .nul) (at_ misaligned2) theIssue misaligned2 ∧ misaligned2.wait ≠ .fenced ∧
    (at_ misaligned2).addressTrap theIssue misaligned2 false false 4 (lanesAt misaligned2) = some (6, 0x8002, 0xFFFFFFFF) ∧
    (at_ misaligned2).addressTrap theIssue misaligned2 true false 8 [(0, misaligned2.srcS .a (.s 1) + misaligned2.srcS .b .nul)] = some (6, 0x8002, 0) :=
  ⟨ready_at (by decide), ready_at (by decide), by decide, by decide, by decide⟩

theorem witness_Atomics : (∀ e ∈ atomicForms, Ready e.1 (at_ fenced) theIssue fenced ∧ e.2.2.2 ≠ [] ∧
      ∃ t good, Reaches ((at_ fenced).setGroup 2 reader) theIssue reader e.2.1 true false e.2.2.1 e.2.2.2 t good ∧
        fenced.memHazard 2 (good.map fun x => (x.1, x.2.2, e.2.2.1)) = none) ∧
    fenced.wait = .fenced ∧
    (∀ i ∈ rrr [.gredAdd, .gredAddf, .gredMaxI] (.v 4) (.s 1) (.v 8), Ready i (at_ reader) theIssue reader) ∧ reader.replay = none ∧
    lanesAt reader ≠ [] ∧ reader.gredSkip ≤ reader.gredCount ∧
    (∃ t good, Reaches (at_ reader) theIssue reader false true false 4 (lanesAt reader) t good ∧
      reader.memHazard 2 (good.map fun e => (e.1, e.2.2, 4)) = none) ∧
    Ready (.gredAdd (.v 4) (.s 1) (.v 8)) (at_ { reader with gredSkip := 1 }) theIssue { reader with gredSkip := 1 } := by
  have h : ∀ e ∈ atomicForms, ready e.1 (at_ fenced) = true ∧ e.2.2.2 ≠ [] ∧
      ((at_ fenced).setGroup 2 reader).addressTrap theIssue reader e.2.1 false e.2.2.1 e.2.2.2 = none ∧
      (((at_ fenced).setGroup 2 reader).locateAll theIssue reader true e.2.2.2).2.2 = [] ∧
      fenced.memHazard 2 ((((at_ fenced).setGroup 2 reader).locateAll theIssue reader true e.2.2.2).2.1.map fun x => (x.1, x.2.2, e.2.2.1)) = none := by
    decide
  refine ⟨fun e he => ?_, rfl, readies (by decide), rfl, by decide, by decide, ⟨_, _, reaches_of (by decide) (by decide), by decide⟩,
    ready_at (by decide)⟩
  obtain ⟨h1, h2, h3, h4, h5⟩ := h e he
  exact ⟨ready_at h1, h2, _, _, reaches_of h3 h4, h5⟩

/-- Lane 1 alone reaches past what the tables map; and s1 itself does. -/
def partly : Group := { reader with vregs := [(64 * 8 + 1, 0x3FFF8000)] }
def unmapped : Group := { theGroup with sregs := [(1, 0x40000000)] }

/-- Some accesses pass and some fault; or all fault. -/
def faults (s : State) (g : Group) (scalar write some_ : Bool) (size : Nat) (la : List (Nat × Scalar)) : Bool :=
  decide (s.addressTrap theIssue g scalar true size la = none) && !(s.locateAll theIssue g write la).2.2.isEmpty &&
    (s.locateAll theIssue g write la).2.1.isEmpty == !some_

theorem witness_AccessesLocated_faults :
    (∃ t good f rest, (at_ partly).locateAll theIssue partly false (lanesAt partly) = (t, good, f :: rest)) ∧ (at_ partly).cur = some theIssue ∧
    (at_ partly).groupAt 2 = some partly ∧ partly.mode = .user ∧ ((at_ partly).contextAt 0).tvec ≠ 0 ∧ ((at_ partly).contextAt 0).state = .guarded ∧
    partly.results = [] ∧ ∀ f ∈ [((1, 0x40000000, 7, 1) : Faulted), (2, 0x40000000, 7, 4)],
      f.2.2.1 < 32 ∧ f.2.2.2 < 256 ∧ ¬ (f.2.2.1 = 7 ∧ f.2.2.2 = 3) :=
  ⟨⟨_, _, _, _, Prod.ext rfl (Prod.ext rfl (by rfl))⟩, rfl, rfl, by decide, by decide, by decide, rfl, by decide⟩

theorem witness_Loads_faults : Ready (.vldW (.v 4) (.s 1) (.v 8)) (at_ partly) theIssue partly ∧ faults (at_ partly) partly false false true 4 (lanesAt partly) = true ∧
    Ready (.sldW (.s 4) (.s 1) .nul) (at_ unmapped) theIssue unmapped ∧ faults (at_ unmapped) unmapped true false false 4 [(0, 0x40000000)] = true :=
  ⟨ready_at (by decide), by decide, ready_at (by decide), by decide⟩

theorem witness_Stores_faults : Ready (.vstW (.v 4) (.s 1) (.v 8)) (at_ partly) theIssue partly ∧ faults (at_ partly) partly false true true 4 (lanesAt partly) = true ∧
    partly.memHazard 2 (((at_ partly).locateAll theIssue partly true (lanesAt partly)).2.1.map fun e => (e.1, e.2.2, 4)) = none ∧
    (at_ partly).bufferRoom 2 0 ((((at_ partly).locateAll theIssue partly true (lanesAt partly)).2.1.filter fun e => e.2.2.isGlobal).map fun e => e.2.2.line) = true :=
  ⟨ready_at (by decide), by decide, by decide, by decide⟩

/-! Waiting words: the group as it comes, its fence over, and its fence going on -/

def waiting (w : Wait) (g : Group) : Group := { g with wait := w }

/-- The handle of a stream of four indices, index base 0. -/
def handle : Scalar := 0x4000000300000000

def streamer (h : Scalar) (index : Lane) (w : Wait) : Group := { theGroup with sregs := [(1, h)], vregs := row 3 [index], wait := w }

theorem witness_FenceWords :
    (∀ i ∈ [Instr.fenceG, .fenceC, .fenceD, .fenceP, .fenceS, .svc 5], Ready i (at_ reader) theIssue reader) ∧ reader.mode = .user ∧
    (∀ i ∈ [Instr.sqopen (.s 4) (.s 1) .nul, .vatomAdd (.v 4) (.s 1) (.v 8), .satomAdd (.s 4) (.s 1) .nul],
      Ready i (at_ reader) theIssue reader ∧ WaitsAsFence i (at_ reader) theIssue reader) ∧
    Ready (.sqredAdd (.v 1) (.s 1) (.v 3)) (at_ (streamer handle 3 .none)) theIssue (streamer handle 3 .none) ∧
    WaitsAsFence (.sqredAdd (.v 1) (.s 1) (.v 3)) (at_ (streamer handle 3 .none)) theIssue (streamer handle 3 .none) ∧
    reader.wait = .none ∧
    ∀ w ∈ [Wait.compared, .fence, .fenced], ∀ i ∈ [Instr.fenceG, .fenceS], Ready i (at_ (waiting w reader)) theIssue (waiting w reader) := by
  have h : ∀ w ∈ [Wait.compared, .fence, .fenced], ∀ i ∈ [Instr.fenceG, .fenceS], ready i (at_ (waiting w reader)) = true := by decide
  refine ⟨readies (by decide), rfl, ?_, ready_at (by decide), ?_, rfl, fun w hw i hi => ready_at (h w hw i hi)⟩
  · intro i hi
    refine ⟨readies (by decide) i hi, ?_⟩
    fin_cases hi
    · exact .inr (.inr (.inl ⟨_, _, _, rfl, by decide, ⟨0x8000, by decide⟩, by decide⟩))
    · exact .inr (.inr (.inr (.inr (.inl ⟨.v 4, .s 1, .v 8, by decide, by decide, by decide, by decide⟩))))
    · exact .inr (.inr (.inr (.inr (.inr ⟨.s 4, .s 1, .nul, by decide, by decide, by decide⟩))))
  · exact .inr (.inr (.inr (.inl ⟨.v 1, .s 1, .v 3, by decide, by decide, by decide, by decide⟩)))

/-! Streams: slot 0 of slice 0 open for four indices, of which `n` have been applied -/

def stream (n : Nat) : Machine.Stream :=
  { Stream.reset with isOpen := true, cntm1 := 3, target := .dram 0 0x8000, next := n }

def withStreams (l : Table Machine.Stream) (s : State) : State := { s with slices := [(0, { Slice.reset with streams := l })] }

theorem witness_StreamWords_sqopen :
    Ready (.sqopen (.s 4) (.s 1) .nul) (at_ fenced) theIssue fenced ∧ fenced.wait = .fenced ∧
    (at_ fenced).mapAddr 2 reader (reader.srcS .a (.s 1)) = some (.global 0x8000) ∧ (reader.srcS .b .nul).toNat < 2 ^ 53 ∧
    Reaches ((at_ fenced).setGroup 2 reader) theIssue reader true true false 4 [(0, 0x8000)]
      (((at_ fenced).setGroup 2 reader).locateAll theIssue reader true [(0, 0x8000)]).1 [(0, 0x8000, .dram 0 0x8000)] ∧
    (((((at_ fenced).setGroup 2 reader).locateAll theIssue reader true [(0, 0x8000)]).1.sliceAt 0).streamAt 0).isOpen = false :=
  ⟨ready_at (by decide), rfl, by decide, by decide, ⟨by decide, Prod.ext rfl (by decide)⟩, by decide⟩

theorem witness_StreamWords_no_slot :
    ∀ k < 64, (({ Slice.reset with streams := (List.range 64).map fun k => (k, stream 0) } : Slice).streamAt k).isOpen = true := by decide

theorem witness_StreamWords_sqred :
    Ready (.sqredAdd (.v 2) (.s 1) (.v 3)) (at_ (streamer 0 3 .none)) theIssue (streamer 0 3 .none) ∧
    Ready (.sqredAddf (.v 2) (.s 1) (.v 3)) (at_ (streamer handle 4 .none)) theIssue (streamer handle 4 .none) ∧
    Ready (.sqredAdd (.v 2) (.s 1) (.v 3)) (at_ (streamer handle 3 .fenced)) theIssue (streamer handle 3 .fenced) ∧
    handle.toNat / 2 ^ 62 ≠ 0 ∧
    ((lanesOf 32 1).filter fun j => decide (handle.toNat / 2 ^ 32 % 2 ^ 20 <
      ((streamer handle 4 .none).srcV .b (.v 3) j - handle.setWidth 32).toNat)) = [0] ∧
    ((lanesOf 32 1).filter fun j => decide (handle.toNat / 2 ^ 32 % 2 ^ 20 <
      ((streamer handle 3 .fenced).srcV .b (.v 3) j - handle.setWidth 32).toNat)) = [] :=
  ⟨ready_at (by decide), ready_at (by decide), ready_at (by decide), by decide, by decide, by decide⟩

theorem witness_StreamWords_sqclose :
    Ready (.sqclose (.s 1)) (at_ (streamer handle 0 .over)) theIssue (streamer handle 0 .over) ∧
    Ready (.sqclose (.s 1)) (at_ (streamer handle 0 .none)) theIssue (streamer handle 0 .none) ∧
    (at_ (streamer handle 0 .none)).streamOf 0 handle = none ∧
    (∀ n ∈ [3, 4], (withStreams [(0, stream n)] (at_ (streamer handle 0 .none))).streamOf 0 handle = some (stream n)) ∧
    (stream 3).next ≤ (stream 3).cntm1 ∧ (stream 4).cntm1 < (stream 4).next ∧
    Ready (.sqclose (.s 1)) (withStreams [(0, stream 4)] (at_ (streamer handle 0 .none))) theIssue (streamer handle 0 .none) :=
  ⟨ready_at (by decide), ready_at (by decide), by decide, by decide, by decide, by decide, ready_of rfl rfl (by decide)⟩

/-! Barriers: `n` arrivals begun and `a` counted at grove barrier 0, whose phase is 0 -/

def arriving (n a : BitVec 32) (w : Wait) : Group := { theGroup with barN := [(0, n)], barA := [(0, a)], wait := w }

theorem witness_BarrierWords :
    (∀ g ∈ [arriving 0 1 .none, arriving 0 0 .none, arriving 1 1 .none, arriving 1 0 (.arrive 0 0), arriving 1 1 (.barrier 0 0), arriving 0 0 (.barrier 0 0)],
      ∀ i ∈ [Instr.barArr 0, .barSync 0], Ready i (at_ g) theIssue g) ∧
    (∀ i ∈ [Instr.barWt 0, .barQ (.s 4) 0], Ready i (at_ (arriving 1 1 .none)) theIssue (arriving 1 1 .none)) ∧
    notBefore ((arriving 0 1 .none).counted 0) ((arriving 0 1 .none).issued 0 + 1) = true ∧
    notBefore ((arriving 0 0 .none).counted 0) ((arriving 0 0 .none).issued 0 + 1) = false ∧
    notBefore ((at_ theGroup).barrierAt theGroup 0).ph ((arriving 0 0 .none).counted 0) = true ∧
    notBefore ((arriving 1 1 .none).counted 0) ((arriving 1 1 .none).issued 0 + 1) = false ∧
    notBefore ((at_ theGroup).barrierAt theGroup 0).ph ((arriving 1 1 .none).counted 0) = false ∧
    notBefore ((at_ theGroup).barrierAt theGroup 0).ph ((arriving 0 0 (.barrier 0 0)).issued 0) = true ∧
    notBefore ((at_ theGroup).barrierAt theGroup 0).ph ((arriving 1 1 .none).issued 0) = false := by
  have h : ∀ g ∈ [arriving 0 1 .none, arriving 0 0 .none, arriving 1 1 .none, arriving 1 0 (.arrive 0 0), arriving 1 1 (.barrier 0 0), arriving 0 0 (.barrier 0 0)],
      ∀ i ∈ [Instr.barArr 0, .barSync 0], ready i (at_ g) = true := by decide
  exact ⟨fun g hg i hi => ready_at (h g hg i hi), readies (by decide), by decide, by decide, by decide, by decide, by decide, by decide, by decide⟩

theorem witness_BarrierWords_arrival : ((at_ theGroup).groves.at? theGroup.grove).map (fun v => (v.upper, ((v.bars.at? 0).getD default).c + 1,
    ((v.bars.at? 0).getD default).expd)) = some (none, 1, 1) := by decide

/-- A barrier of the launch, and one of a grove that spans a pair of cores. -/
theorem witness_BarrierWords_levels : (∀ b ∈ [16, 19, 20, 21], b < 22 ∧ ((at_ theGroup).launches.at? theGroup.launch).isSome = true) ∧
    (∃ v, ({ at_ theGroup with groves := [(1, { loaderGrove 0 with upper := some (1, 1) })] } : State).groves.at? theGroup.grove = some v ∧
      v.upper.isSome = true) ∧ (at_ theGroup).copyOf theGroup < 2 := ⟨by decide, ⟨_, rfl, by decide⟩, by decide⟩

/-! Control flow -/

def counter (v : Scalar) : Group := { theGroup with sregs := [(1, v)], off := 40, cm := 1 }

theorem witness_ControlTransfers :
    (∀ e ∈ [(Instr.bra 10, (0 : Scalar)), (.bra (-41), 0), (.bz (.s 1) 10, 0), (.bz (.s 1) 10, 1), (.bnz (.s 1) 10, 0), (.bnz (.s 1) 10, 1),
        (.bneg (.s 1) 10, 0), (.bneg (.s 1) 10, -1), (.bnn (.s 1) 10, 0), (.bnn (.s 1) 10, -1), (.bloop (.s 1) 10, 1), (.bloop (.s 1) 10, 2),
        (.bcall (.s 20) 10, 0), (.bany 10, 0), (.jmp (.s 1), 0xFFFFF), (.jmp (.s 1), 0x100000), (.ret (.s 1), 0xFFFFF)],
      Ready e.1 (at_ (counter e.2)) theIssue (counter e.2)) ∧
    (counter 1).srcS .a (.s 1) - 1 = 0 ∧ (counter 2).srcS .a (.s 1) - 1 ≠ 0 ∧ ((counter (-1)).srcS .a (.s 1)).toInt < 0 ∧ (counter 1).xm &&& (counter 1).cm ≠ 0 ∧
    ((counter 0).off : Int) + (-41 : BitVec 17).toInt < 0 ∧ ((50 : Nat) : Int) = (counter 0).off + (10 : BitVec 17).toInt ∧
    ((counter 0xFFFFF).srcS .a (.s 1)).toNat < 2 ^ 20 ∧ 2 ^ 20 ≤ ((counter 0x100000).srcS .a (.s 1)).toNat := by
  have h : ∀ e ∈ [(Instr.bra 10, (0 : Scalar)), (.bra (-41), 0), (.bz (.s 1) 10, 0), (.bz (.s 1) 10, 1), (.bnz (.s 1) 10, 0), (.bnz (.s 1) 10, 1),
        (.bneg (.s 1) 10, 0), (.bneg (.s 1) 10, -1), (.bnn (.s 1) 10, 0), (.bnn (.s 1) 10, -1), (.bloop (.s 1) 10, 1), (.bloop (.s 1) 10, 2),
        (.bcall (.s 20) 10, 0), (.bany 10, 0), (.jmp (.s 1), 0xFFFFF), (.jmp (.s 1), 0x100000), (.ret (.s 1), 0xFFFFF)],
      ready e.1 (at_ (counter e.2)) = true := by decide
  exact ⟨fun e he => ready_at (h e he), by decide, by decide, by decide, by decide, by decide, by decide, by decide, by decide⟩

/-- A result still outstanding. -/
def pending : Result := { (default : Result) with seq := 9, dest := .scal 4 1, tag := [1], svals := [7], ready := true }

theorem witness_WindowClockAndExitWords :
    (∀ i ∈ [Instr.nop, .park, .wbase 31, .wget (.s 4), .tick (.s 1), .spin, .exit], Ready i (at_ reader) theIssue reader) ∧
    reader.role = .kernel ∧ (at_ reader).redundant reader = false ∧ reader.results = [] ∧ reader.batches = [] ∧ reader.openOps = [] ∧
    Ready .exit (at_ { reader with results := [pending] }) theIssue { reader with results := [pending] } ∧
    (at_ { reader with results := [pending] }).redundant { reader with results := [pending] } = false :=
  ⟨readies (by decide), by decide, by decide, by decide, by decide, by decide, ready_at (by decide), by decide⟩

/-! Regions, traps and the system words -/

/-- The context of the group, changed. -/
def inContext (f : Context → Context) (s : State) : State := { s with contexts := s.contexts.map fun e => (e.1, f e.2) }

def value {ε α : Type} [Inhabited α] (x : Except ε α) : α :=
  match x with
  | .ok v => v
  | .error _ => default

def isOk {ε α : Type} (x : Except ε α) : Bool :=
  match x with
  | .ok _ => true
  | .error _ => false

theorem ok_value {ε α : Type} [Inhabited α] {x : Except ε α} (h : isOk x = true) : x = .ok (value x) := by
  cases x with
  | ok v => rfl
  | error e => cases h

/-- The launch has checkpoint slots at 0x10000. -/
def slotted (g : Group) : State := { at_ g with launches := [(0, { loaderLaunch 2 with area := 0x10000 })] }

def regionHead : List Byte := reader.slotHead 0 1 0 1 0
def regionRegs : List Byte := reader.fieldBytes 0 1

/-- The places of a range of the slot. -/
def placesAt (g : Group) (off n : Nat) : List (Place × Nat × Nat) := value ((slotted g).placesOf 0 ((slotted g).slotOf g + off) n true)

theorem witness_RegionWord : Ready (.region (.v 0) (.v 1)) (slotted reader) theIssue reader ∧ (slotted reader).redundant reader = false ∧
    (slotted reader).slotOf reader ≠ 0 ∧ reader.openOps = [] ∧ reader.results = [] ∧ reader.batches = [] ∧ reader.evictSince = none ∧
    (slotted reader).placesOf 0 ((slotted reader).slotOf reader) 0x400 true = .ok (placesAt reader 0 0x400) ∧
    (slotted reader).placesOf 0 ((slotted reader).slotOf reader + 0x400) regionRegs.length true = .ok (placesAt reader 0x400 regionRegs.length) ∧
    (slotted reader).placesReady 0 (placesAt reader 0 0x400 ++ placesAt reader 0x400 regionRegs.length) true = true ∧
    (slotted reader).slotLeft 2 = false ∧ (at_ reader).slotOf reader = 0 :=
  ⟨ready_of rfl rfl (by decide), by decide, by decide, rfl, rfl, rfl, rfl, ok_value (by decide), ok_value (by decide), by decide, by decide, by decide⟩

theorem witness_RegionWord_written :
    ((((slotted reader).writePlaces 0 ((slotted reader).slotOf reader) (placesAt reader 0 0x400) regionHead reader.clk).1.writePlaces 0
      ((slotted reader).slotOf reader + 0x400) (placesAt reader 0x400 regionRegs.length) regionRegs reader.clk).1.groupAt 2) ≠ none := by decide +kernel

def anOp : MatOp :=
  { seq := 9, zero := true, sparse := false, acc := 0, fmt := 0, bsel := 0, aAddr := 0, aDesc := 0, bAddr := 0, bDesc := 0, regs := [], foot := [],
    chunks := [], result := none, raises := 31 }

/-- A result outstanding, an operation in the open batch, and a write of the slot that waits for its home. -/
theorem witness_RegionWord_waits :
    (∀ g ∈ [{ reader with results := [pending] }, { reader with openOps := [anOp] }], Ready (.region (.v 0) (.v 1)) (slotted g) theIssue g) ∧
    ({ slotted reader with slotWrites := [{ seq := 9, gid := 2, ctx := 0, va := 0x10000, place := .dram 0 0x10000, bytes := [0], clk := 0 }] } : State).slotLeft 2
      = true := by
  have h : ∀ g ∈ [{ reader with results := [pending] }, { reader with openOps := [anOp] }], ready (.region (.v 0) (.v 1)) (slotted g) = true ∧
      (slotted g).groupAt 2 = some g := by decide
  exact ⟨fun g hg => ready_of rfl (h g hg).2 (h g hg).1, by decide⟩

def steward : Group := { theGroup with mode := .steward, sregs := [(1, 4)] }

/-- The two writes of its slot that the group's `region`, or the one that its `ctlwr`, has under way. -/
def slotFlights (n : Nat) : List Flight :=
  [{ seq := 5, ctx := 0, who := 2, va := 0x10000, pieces := placesAt reader 0 0x400, bytes := some regionHead },
   { seq := 6, ctx := 0, who := 2, va := 0x10400, pieces := placesAt reader 0x400 regionRegs.length, bytes := some regionRegs }].take n

def regionUnderWay : State := { slotted (waiting .writing reader) with flights := slotFlights 2 }

theorem witness_RegionWord_writing : Ready (.region (.v 0) (.v 1)) regionUnderWay theIssue (waiting .writing reader) ∧
    regionUnderWay.redundant (waiting .writing reader) = false ∧ regionUnderWay.cuts = [] ∧ (regionUnderWay.flightsOf 2).length = 2 ∧
    (((regionUnderWay.land 2).writePlaces 0 0x10000 (placesAt reader 0 0x400) regionHead 0).1.writePlaces 0 0x10400
      (placesAt reader 0x400 regionRegs.length) regionRegs 0).1.groupAt 2 ≠ none ∧
    ready (.ctlwr (.s 1) 0x04) { slotted { steward with wait := .writing } with flights := slotFlights 1 } = true ∧
    (({ slotted reader with flights := slotFlights 1 } : State).flightsOf 2).length = 1 :=
  ⟨ready_of rfl rfl (by decide), by decide, by decide, by decide, by decide +kernel, by decide, by decide⟩

/-- Two groups of a grove that wait at a barrier; one of them exits. -/
theorem witness_WindowClockAndExitWords_barrier :
    (let s := { at_ theGroup with groves := [(1, { loaderGrove 0 with alive := 2 })] }
     ready .exit s = true ∧ s.groves.at? theGroup.grove = some { loaderGrove 0 with alive := 2 } ∧ (s.launches.at? theGroup.launch).isSome = true ∧
      s.redundant theGroup = false ∧ theGroup.role = .kernel) := by decide

theorem witness_WordsThatTrap : (∃ w, encode false (.vadd .xm (.v 2) (.v 3)) = some w) ∧
    illegalDetail (at_ theGroup) theGroup (.vadd .xm (.v 2) (.v 3)) = some 0x06 ∧ illegalDetail (at_ theGroup) theGroup .tret = some 0x08 ∧
    (at_ theGroup).cur = some theIssue ∧ (at_ theGroup).groupAt 2 = some theGroup ∧
    (∀ i ∈ [Instr.trap 127, .brk 127], Ready i (at_ theGroup) theIssue theGroup) ∧
    Ready (.brk 0) (at_ { theGroup with mode := .steward }) theIssue { theGroup with mode := .steward } ∧ theIssue.mask ≠ 0 ∧
    lanesAlone (.vldW (.v 40) (.s 1) (.v 8)) = true ∧ (Instr.vldW (.v 40) (.s 1) (.v 8)).detail = none ∧
    illegalDetail (at_ theGroup) theGroup (.vldW (.v 40) (.s 1) (.v 8)) = some 0x07 ∧ stalled theGroup (.vldW (.v 40) (.s 1) (.v 8)) = false ∧
    (under (at_ theGroup) 0).cur = some { theIssue with mask := 0 } ∧ (Instr.vpref (.s 1) (.v 40)).detail = none :=
  ⟨⟨_, rfl⟩, by decide, by decide, rfl, rfl, readies (by decide), ready_at (by decide), by decide, by decide, by decide, by decide, by decide, rfl, by decide⟩

/-- With a handler, and with no result or one outstanding. -/
theorem witness_TrapEntry : (at_ theGroup).cur = some theIssue ∧ theGroup.mode = .user ∧ ((at_ theGroup).contextAt theGroup.ctx).tvec ≠ 0 ∧
    theGroup.results = [] ∧ ({ theGroup with results := [pending] } : Group).results ≠ [] := ⟨rfl, by decide, by decide, by decide, by decide⟩

/-- In steward mode; without a handler; and a group that serves an eviction. -/
theorem witness_TrapEntry_steward : ({ theGroup with mode := .steward } : Group).mode = .steward ∧
    ((inContext (fun x => { x with tvec := 0 }) (at_ theGroup)).contextAt theGroup.ctx).tvec = 0 ∧ theGroup.role = .kernel ∧
    ({ theGroup with mode := .steward, role := .evict } : Group).role ≠ .kernel ∧ ((at_ theGroup).contextAt theGroup.ctx).asked = [] :=
  ⟨rfl, by decide, by decide, by decide, by decide⟩

/-- In a handler that plane p of an offset with two occupied planes entered, by CODE 9 or another. -/
def returning (cause : Scalar) (done p : Nat) : Group :=
  { theGroup with mode := .steward, frame := [1, 2, 3, 4], tcause := cause, tocc := 3, tdone := BitVec.ofNat 4 done, tplane := BitVec.ofNat 2 p }

/-- Each way of going on: the word again, the word after one plane, the offset's end; CODE 13 too; a marked offset; a word of which the
lanes of TLANE alone are issued again; and a group that is discarded, before its restart and for its eviction. -/
theorem witness_TrapReturn : (∀ g ∈ [returning 6 0 0, returning 9 0 0, returning 9 1 1, returning 13 0 0, { returning 9 1 1 with trapMark := true },
      { returning 7 0 0 with laneTrap := true, tlane := 1 }, returning 0x010E 0 0, { returning 6 0 0 with evictSince := some 0 }],
      Ready .tret (at_ g) theIssue g ∧ g.frame = [1, 2, 3, 4]) ∧
    (∀ g ∈ [returning 9 0 0, returning 13 0 0], g.tcause.setWidth 16 ≠ (0x010E : BitVec 16) ∧ g.evictSince = none ∧
      g.tocc &&& ~~~(g.tdone ||| BitVec.ofNat 4 (2 ^ g.tplane.toNat)) ≠ 0) ∧
    (returning 9 1 1).tocc &&& ~~~((returning 9 1 1).tdone ||| 2) = 0 ∧ (returning 0x010E 0 0).tcause.setWidth 16 = (0x010E : BitVec 16) ∧
    (returning 6 0 0).rstate ≠ 2 ∧ Ready .tret (let s := at_ (returning 6 0 0); { s with cur := some { theIssue with mark := true } })
      { theIssue with mark := true } (returning 6 0 0) := by
  have h : ∀ g ∈ [returning 6 0 0, returning 9 0 0, returning 9 1 1, returning 13 0 0, { returning 9 1 1 with trapMark := true },
      { returning 7 0 0 with laneTrap := true, tlane := 1 }, returning 0x010E 0 0, { returning 6 0 0 with evictSince := some 0 }],
      ready .tret (at_ g) = true ∧ g.frame = [1, 2, 3, 4] := by decide
  exact ⟨fun g hg => ⟨ready_at (h g hg).1, (h g hg).2⟩, by decide, by decide, by decide, by decide, ready_of rfl rfl (by decide)⟩

/-- R292: a word whose lane 0 faulted is issued again in that lane; after a scalar access whole. -/
theorem test_tret_replays_the_lanes_of_tlane :
    (groupAfter .tret (at_ { returning 7 0 0 with laneTrap := true, tlane := 1 })).issueMask 0 = 1 ∧
    (groupAfter .tret (at_ { returning 7 0 0 with tlane := 1 })).issueMask 0 = 0xFFFFFFFF := by decide

/-- R289: CODE 13 resumes at the next word. -/
theorem test_tret_after_code_13 : (groupAfter .tret (at_ { returning 13 0 0 with tocc := 1, toff := 7 })).off = 8 := by decide

theorem witness_ControlRegisterWords :
    (∀ i ∈ rr [fun d _ => .ctlrd d 0x00, fun d _ => .ctlrd d 0x01, fun d _ => .ctlrd d 0x02, fun d _ => .ctlrd d 0x03, fun d _ => .ctlrd d 0x04,
        fun d _ => .ctlrd d 0x05, fun d _ => .ctlrd d 0x06, fun d _ => .ctlrd d 0x07, fun d _ => .ctlrd d 0x08, fun d _ => .ctlrd d 0x09,
        fun d _ => .ctlrd d 0x0A, fun d _ => .ctlrd d 0x0B, fun d _ => .ctlrd d 0x0C, fun d _ => .ctlrd d 0x0D, fun d _ => .ctlrd d 0x0E,
        fun d _ => .ctlrd d 0x0F, fun d _ => .ctlrd d 0x10, fun d _ => .ctlrd d 0x11, fun d _ => .ctlrd d 0x12] (.s 3) .nul,
      Ready i (at_ steward) theIssue steward) ∧
    (∀ i ∈ [Instr.ctlwr (.s 1) 0x00, .ctlwr (.s 1) 0x01, .ctlwr (.s 1) 0x02, .ctlwr .nul 0x03, .ctlwr (.s 1) 0x04, .ctlwr .nul 0x05, .ctlwr (.s 1) 0x06,
        .ctlwr (.s 1) 0x07, .ctlwr (.s 1) 0x08, .ctlwr (.s 1) 0x09, .ctlwr (.s 1) 0x0A, .ctlwr (.s 1) 0x10], Ready i (at_ steward) theIssue steward) ∧
    theGroup.mode = .user ∧ 32 ≤ ((counter 32).srcS .a (.s 1)).toNat ∧ ((counter 0).srcS .a (.s 1)).toNat % 256 = 0 ∧
    Ready (.ctlwr (.s 1) 0x10) (at_ (counter 3)) theIssue (counter 3) ∧
    (slotted steward).slotOf steward ≠ 0 ∧ Ready (.ctlwr (.s 1) 0x04) (slotted steward) theIssue steward ∧
    (slotted steward).placesOf 0 ((slotted steward).slotOf steward + 28) 4 true = .ok (placesAt steward 28 4) ∧
    (slotted steward).placesReady 0 (placesAt steward 28 4) true = true ∧ (slotted steward).slotLeft 2 = false :=
  ⟨readies (by decide), readies (by decide), by decide, by decide, by decide, ready_at (by decide), by decide, ready_of rfl rfl (by decide),
    ok_value (by decide), by decide, by decide⟩

/-- In user and in steward mode, with a handler: a value at the edge of each bound, admissible and not. -/
theorem witness_ControlRegisterWords_refused : (∀ g ∈ [theGroup, steward], (at_ g).cur = some theIssue ∧ (at_ g).groupAt 2 = some g) ∧
    steward.mode = .steward ∧ ((at_ theGroup).contextAt 0).tvec ≠ 0 ∧ (Instr.ctlrd (.s 3) 0).detail = none ∧ (Instr.ctlwr (.s 1) 0).detail = none ∧
    (0x13 : BitVec 7).toNat < 0x40 ∧ 0x13 ≤ (0x3F : BitVec 7).toNat ∧
    (∀ x ∈ [(0x00, 0x100), (0x00, 8), (0x01, 0x100), (0x02, 0), (0x10, 32), (0x03, 1), (0x05, 0xFF), (0x04, 0x100000), (0x09, 0x100000), (0x06, 0x10000),
        (0x06, 0x20), (0x06, 16), (0x0A, 0x1000), (0x0A, 0x40)],
      illegalDetail (at_ { steward with sregs := [(1, x.2)] }) { steward with sregs := [(1, x.2)] } (.ctlwr (.s 1) (BitVec.ofNat 7 x.1)) = some 0x0A) ∧
    (∀ x ∈ [(0x00, 0xF7), (0x01, 0xFF), (0x02, 1), (0x10, 31), (0x03, 0x100), (0x05, 0), (0x04, 0xFFFFF), (0x09, 0xFFFFF), (0x06, 0xFF0F), (0x0A, 0xF3F)],
      illegalDetail (at_ { steward with sregs := [(1, x.2)] }) { steward with sregs := [(1, x.2)] } (.ctlwr (.s 1) (BitVec.ofNat 7 x.1)) = none) :=
  ⟨by decide, by decide, by decide, by decide, by decide, by decide, by decide, by decide, by decide⟩

/-- The group that a service request leaves, and the state once its slot says so. -/
def served : Group :=
  { theGroup with svcSeq := theGroup.svcSeq + 1, rstate := 2, tcause := BitVec.ofNat 64 (256 * 5 + 13), taddr := 0, tlane := 0,
                  toff := BitVec.ofNat 20 theGroup.off, tdone := theGroup.doneP, tplane := 0, tocc := theGroup.occ.getD 0 }
def spoiled (s : State) : State := (s.setGroup 2 served).spoilRestart 2

theorem witness_ServiceRequest : (∀ g ∈ [steward, waiting .over theGroup, waiting .fenced theGroup], Ready (.svc 5) (at_ g) theIssue g) ∧
    Ready (.svc 5) (slotted (waiting .fenced theGroup)) theIssue (waiting .fenced theGroup) ∧
    ((at_ theGroup).contextAt 0).state ≠ .orphaned ∧ theGroup.evictSince = none ∧
    (let s := at_ (waiting .fenced theGroup)
     ((spoiled s).contextAt 0).state ≠ .orphaned ∧ s.slotOf (waiting .fenced theGroup) = 0 ∧ (spoiled s).groupAt 2 ≠ none ∧ (spoiled s).slotOf served = 0) ∧
    (let s := slotted (waiting .fenced theGroup)
     s.slotOf (waiting .fenced theGroup) ≠ 0 ∧ (spoiled s).groupAt 2 ≠ none ∧ (spoiled s).slotOf served = s.slotOf (waiting .fenced theGroup) ∧
      ((spoiled s).slotWrite 2 served 0x3C (toBytes (theGroup.svcSeq + 1).toNat 4)).groupAt 2 ≠ none) := by
  have h : ∀ g ∈ [steward, waiting .over theGroup, waiting .fenced theGroup], ready (.svc 5) (at_ g) = true := by decide
  exact ⟨fun g hg => ready_at (h g hg), ready_of rfl rfl (by decide), by decide, by decide, ⟨by decide, by decide, by decide, by decide⟩, by decide, by decide,
    by decide, by decide⟩

/-! Matrix words: descriptors in s3 and s5, addresses in s2 and s4 -/

def tile : Scalar := 0x60000300

def multiplier (a ad b bd : Scalar) : Group := { theGroup with nregs := 64, sregs := [(2, a), (3, ad), (4, b), (5, bd)] }

def closed (k : Nat) (n : BitVec 4) : Batch := { k := k, number := n, ops := [] }

theorem witness_MatrixWords_checks :
    (∀ g ∈ [multiplier 0x8000 tile 0x9000 tile, multiplier 0x8000 (-1) 0x9000 tile, multiplier 0x8000 tile 0x9000 (-1), multiplier 0x8008 tile 0x9000 tile,
        multiplier 0x8000 tile 0x9008 tile], Ready (.mma (.v 0) 2 4 1 0) (at_ g) theIssue g ∧ g.results = []) ∧
    descOk false tile = true ∧ descOk false (-1) = false ∧ (0x8000 : Scalar).toNat % 16 = 0 ∧ (0x8008 : Scalar).toNat % 16 ≠ 0 := by
  have h : ∀ g ∈ [multiplier 0x8000 tile 0x9000 tile, multiplier 0x8000 (-1) 0x9000 tile, multiplier 0x8000 tile 0x9000 (-1),
      multiplier 0x8008 tile 0x9000 tile, multiplier 0x8000 tile 0x9008 tile], ready (.mma (.v 0) 2 4 1 0) (at_ g) = true ∧ g.results = [] := by decide
  exact ⟨fun g hg => ⟨ready_at (h g hg).1, (h g hg).2⟩, by decide, by decide, by decide, by decide⟩

/-- Operands in the group's own registers, with rows 768 bytes apart. -/
def inRegs (ad : Scalar) : Group := { multiplier 0xFFF2000000000000 ad 0xFFF2000000006000 tile with nregs := 512 }

theorem witness_MatrixWords_footprints :
    Ready (.mma (.v 0) 2 4 1 0) (at_ (inRegs tile)) theIssue (inRegs tile) ∧
    Ready (.mmas (.v 0) 2 4 1 0) (at_ (inRegs 0x2060000300)) theIssue (inRegs 0x2060000300) ∧
    descOk false tile = true ∧ descOk true 0x2060000300 = true ∧
    (∃ f, (at_ (inRegs tile)).footprint 2 (inRegs tile) 0xFFF2000000000000 tile (rowsA 32 false tile) = .ok f) ∧
    (∃ f, (at_ (inRegs tile)).footprint 2 (inRegs tile) 0xFFF2000000000000 0x2060000300 (rowsA 32 true 0x2060000300) = .ok f) ∧
    (∃ f, (at_ (inRegs tile)).footprint 2 (inRegs tile) 0xFFF2000000006000 tile (rowsB tile) = .ok f) ∧
    (∃ a, (at_ (inRegs tile)).footprint 2 (inRegs tile) 0x8000 tile (rowsA 32 false tile) = .error a) :=
  ⟨ready_at (by decide), ready_at (by decide), by decide, by decide, ⟨_, ok_value (by decide)⟩, ⟨_, ok_value (by decide)⟩, ⟨_, ok_value (by decide)⟩,
    ⟨0x8000, by decide⟩⟩

/-- A result outstanding to a descriptor's register, and one to a register that A lies in. -/
theorem witness_MatrixWords_waits :
    (let g := { multiplier 0x8000 tile 0x9000 tile with results := [pending] }
     Ready (.mma (.v 0) 2 4 1 0) (at_ g) theIssue g ∧ ∃ r ∈ g.results, ∃ k ∈ r.dest.keys, k ∈ [2, 3, 4, 5].map (1024 + ·)) ∧
    (let r : Result := { pending with dest := .vec 100 1 }
     let g := { inRegs tile with results := [r] }
     Ready (.mma (.v 0) 2 4 1 0) (at_ g) theIssue g ∧ (∀ k ∈ r.dest.keys, k ∉ [2, 3, 4, 5].map (1024 + ·) ++ List.range 34) ∧
      ∃ k ∈ r.dest.keys, k ∈ footRegs 32 (value ((at_ g).footprint 2 g 0xFFF2000000000000 tile (rowsA 32 false tile)))) ∧
    (let r : Result := { pending with dest := .vec 3 1 }
     let g := { theGroup with results := [r], nregs := 64 }
     Ready (.mzero (.v 0)) (at_ g) theIssue g ∧ ∃ k ∈ r.dest.keys, k ∈ List.range 32) :=
  ⟨⟨ready_at (by decide), by decide⟩, ⟨ready_at (by decide), by decide, by decide⟩, ready_at (by decide), by decide⟩

def batched : Group := { theGroup with batches := [closed 0 0, closed 1 1], sregs := [(1, 1)], nregs := 64 }

theorem witness_MatrixWords_room : Ready (.mbatch (.s 3)) (at_ (waiting .batchRoom batched)) theIssue (waiting .batchRoom batched) :=
  ready_at (by decide)

theorem witness_MatrixWords_batches :
    (∀ i ∈ [Instr.mzero (.v 0), .mbatch (.s 3), .mwait (.s 1), .mquery (.s 3) (.s 1)], Ready i (at_ batched) theIssue batched) ∧
    batched.results = [] ∧ batched.batches.length < 4 ∧ (closed 1 1).number = (batched.srcS .a (.s 1)).setWidth 4 ∧
    (∀ x ∈ [closed 0 0], x.number ≠ (closed 1 1).number) ∧ batched.batches = [closed 0 0] ++ closed 1 1 :: [] ∧
    Ready (.mbatch (.s 3)) (at_ { batched with batches := List.replicate 4 (closed 0 0) }) theIssue { batched with batches := List.replicate 4 (closed 0 0) } ∧
    Ready (.mwait (.s 1)) (at_ { batched with batches := [] }) theIssue { batched with batches := [] } :=
  ⟨readies (by decide), rfl, by decide, by decide, by decide, rfl, ready_at (by decide), ready_at (by decide)⟩

/-! Copies: channel 0 of engine 0 is the context's channel 0 -/

def channeled (k : Channel) (s : State) : State := { s with channels := [(0, { k with owner := some (0, 0) })] }

/-- Destination s4, source s2, and the length (or the record and channel) in s6. -/
def copier (dst src b : Scalar) (w : Wait) : Group := { theGroup with sregs := [(2, src), (4, dst), (6, b)], wait := w }

theorem witness_CopyWords :
    Ready (.cpy (.s 4) (.s 2) (.s 6)) (channeled Channel.reset (at_ (copier 0x9000 0x8000 64 .none))) theIssue (copier 0x9000 0x8000 64 .none) ∧
    (copier 0x9000 0x8000 64 .none).cpySkip ≤ (copier 0x9000 0x8000 64 .none).cpyCount ∧
    isOk ((channeled Channel.reset (at_ theGroup)).copyCheck 0 0x9000 0x8000 64 none) = true ∧
    isOk ((at_ theGroup).copyCheck 0 0x9000 0x8000 64 none) = false ∧
    ((channeled Channel.reset (at_ theGroup)).channelAt 0).queue.length < 64 ∧
    Ready (.cpyq (.s 4) (.s 2) (.s 6)) (channeled Channel.reset (at_ (copier 0x9000 0x8000 64 .fenced))) theIssue (copier 0x9000 0x8000 64 .fenced) ∧
    (channeled Channel.reset (at_ theGroup)).copyCheck 0 0x9000 0x8000 64 (some 0) = .ok 0 ∧
    inExtent 0x8000 64 ∧ inExtent 0x9000 64 :=
  ⟨ready_of rfl rfl (by decide), by decide, by decide, by decide, by decide, ready_of rfl rfl (by decide), by decide, by unfold inExtent; decide, by unfold inExtent; decide⟩

/-- Each check of R269, in its order, failed by an operand at its bound. -/
theorem witness_CopyWords_checks : let s := channeled Channel.reset (at_ theGroup)
    (∀ x ∈ [(0x9000, 0x8000, 2 ^ 40, (10, 0x10, 2 ^ 40)), (0x9000, 0x8000, 8, (10, 0x10, 8)), (0x9001, 0x8000, 2 ^ 32 + 64, (10, 0x11, 2 ^ 32 + 64)),
        (0x9008, 0x8008, 64, (6, 0, 0x9008)), (0x9000, 0x8008, 64, (6, 0, 0x8008)), (0x9000, 2 ^ 48 - 16, 32, (15, 0, 2 ^ 48)),
        (2 ^ 48, 0x8000, 0, (15, 0, 2 ^ 48))], s.copyCheck 0 x.1 x.2.1 x.2.2.1 none = .error x.2.2.2) ∧
    (channeled { Channel.reset with fault := true } (at_ theGroup)).copyCheck 0 0x9008 0x8000 64 none = .error (10, 0x12, 64) ∧
    s.copyCheck 0 0x9000 (2 ^ 48) 64 (some 4) = .error (6, 0, 4) ∧ s.copyCheck 0 0x9000 0x8000 64 (some (2 ^ 48)) = .error (15, 0, 2 ^ 48) ∧
    isOk (s.copyCheck 0 (2 ^ 48 - 64) 0x8000 64 (some 0xFFFFFFFFFFF8)) = true ∧
    (∀ i ∈ [Instr.cpy (.s 4) (.s 2) (.s 6), .cpyq (.s 4) (.s 2) (.s 6)], Ready i (at_ (copier 0x9008 0x8000 64 .none)) theIssue (copier 0x9008 0x8000 64 .none)) ∧
    Ready (.cpyq (.s 4) (.s 2) (.s 6)) (channeled Channel.reset (at_ (copier 0x9000 0x8000 64 .none))) theIssue (copier 0x9000 0x8000 64 .none) ∧
    inExtent (2 ^ 48 - 16) 16 ∧ ¬ inExtent (2 ^ 48 - 16) 17 :=
  ⟨by decide, by decide, by decide, by decide, by decide, readies (by decide), ready_of rfl rfl (by decide), by unfold inExtent; decide,
    by unfold inExtent; decide⟩

def inDram (a : Nat) (bs : List Byte) (s : State) : State := { s with dram := s.dram.writeN a bs }

/-- A shape record of one row of 16 bytes, of generation 1. -/
def shapeRecord : List Byte :=
  toBytes 0x9000 8 ++ toBytes 16 8 ++ toBytes 0x100010000 8 ++ List.replicate 32 0 ++ toBytes 15 8

def tensorGroup : Group := copier 0xA000 0 0x100000 .none

def tensorState : State :=
  inContext (fun x => { x with cfg := { x.cfg with ttbase := 0x8000, ttslots := 1 } }) (inDram 0x8000 shapeRecord (channeled Channel.reset (at_ tensorGroup)))

def tensorAt : State × List Located × List Faulted := tensorState.locateAll theIssue tensorGroup false [(0, 0x8000)]

def tensorLoad : Load := tensorAt.1.newLoad theIssue tensorGroup 32 .qword (blockAt 2 0x8000 (.dram 0 0x8000))

/-- The state that the record has been read in. -/
def tensorRead : State := (tensorAt.1.performLoad 0 0 tensorLoad).1.setGroup 2 (waiting .none tensorGroup)

def shapeData : Table Nat := [(0, fromBytes (shapeRecord.take 32)), (1, fromBytes (shapeRecord.drop 32))]

theorem witness_CopyWords_tensor :
    Ready (.cpyt (.s 4) (.s 2) (.s 6)) tensorState theIssue tensorGroup ∧ tensorState.channelOf 0 0 = some 0 ∧
    (tensorState.channelAt 0).fault = false ∧ 0 < (tensorState.contextAt 0).cfg.ttslots ∧
    Reaches tensorState theIssue tensorGroup true false false 64 [(0, 0x8000)] tensorAt.1 [(0, 0x8000, .dram 0 0x8000)] ∧
    readRuns tensorAt.1 tensorGroup tensorLoad shapeData = true ∧ blockBytes 32 (shapeData.map (·.2)) = shapeRecord ∧
    (shapeOf shapeRecord).gen = (0x100000 : Scalar).toNat / 2 ^ 20 % 2 ^ 12 ∧ (shapeOf shapeRecord).gen ≠ 0 ∧
    (shapeOf shapeRecord).bad = false ∧ inExtent 0xA000 (shapeOf shapeRecord).dense ∧ inExtent (shapeOf shapeRecord).base 0 ∧
    tensorRead.channelOf 0 0 = some 0 ∧ (tensorRead.channelAt 0).fault = false ∧ (tensorRead.channelAt 0).queue.length < 64 ∧
    readWaits (.cpyt (.s 4) (.s 2) (.s 6)) tensorState tensorGroup tensorLoad shapeData = true :=
  ⟨ready_of rfl rfl (by decide), by decide, by decide, by decide, ⟨by decide, Prod.ext rfl (by decide)⟩, by decide, by decide, by decide, by decide,
    by decide, by unfold inExtent; decide, by unfold inExtent; decide, by decide, by decide, by decide, by decide⟩

/-- s6 of a `cpyt`: its slot, generation and channel. -/
def tensorWith (b : Scalar) : Group := copier 0xA000 0 b .none

/-- A handle with a reserved bit, of a channel that is not the context's, of a faulted one, of a slot beyond TTSLOTS; a record beyond the
address space, on a page that no leaf maps, and of another generation and form; and a destination that is not aligned. -/
theorem witness_CopyWords_tensor_fails : (let v : Scalar := 2 ^ 41; v.toNat / 2 ^ 41 % 2 ^ 7 ≠ 0) ∧
    (channeled Channel.reset (at_ theGroup)).tensorChannel 0 (2 ^ 32) = .error (10, 0x11, 2 ^ 32) ∧
    (channeled { Channel.reset with fault := true } (at_ theGroup)).tensorChannel 0 0x100000 = .error (10, 0x12, 0x100000) ∧
    Ready (.cpyt (.s 4) (.s 2) (.s 6)) tensorState theIssue tensorGroup ∧ (tensorState.contextAt 0).cfg.ttslots ≤ (0x100001 : Scalar).toNat % 2 ^ 20 ∧
    Ready (.cpyt (.s 4) (.s 2) (.s 6)) (channeled Channel.reset (at_ (tensorWith 0x100001))) theIssue (tensorWith 0x100001) ∧
    Ready (.cpyt (.s 4) (.s 2) (.s 6)) (channeled Channel.reset (at_ (tensorWith (2 ^ 41)))) theIssue (tensorWith (2 ^ 41)) ∧
    Ready (.cpyt (.s 4) (.s 2) (.s 6)) (at_ { tensorGroup with cpySkip := 1 }) theIssue { tensorGroup with cpySkip := 1 } ∧
    (2 : Nat) ^ 48 ≤ (BitVec.ofNat 64 (2 ^ 48 : Nat) : Scalar).toNat ∧
    (tensorState.locateAll theIssue tensorGroup false [(0, 0x40000000)]).2.2 ≠ [] ∧
    (shapeOf shapeRecord).gen ≠ (0x200000 : Scalar).toNat / 2 ^ 20 % 2 ^ 12 ∧
    (shapeOf (shapeRecord.set 56 14)).bad = true ∧ (0xA008 : Scalar).toNat % 16 ≠ 0 ∧ ¬ inExtent (2 ^ 48 - 8) (shapeOf shapeRecord).dense ∧
    ¬ inExtent (2 ^ 48) 0 :=
  ⟨by decide, by decide, by decide, ready_of rfl rfl (by decide), by decide, ready_of rfl rfl (by decide), ready_of rfl rfl (by decide), ready_at (by decide),
    by decide, by decide, by decide, by decide, by decide, by unfold inExtent; decide, by unfold inExtent; decide⟩

/-- A copy word that waited for room: its copy is accepted, or its channel's fault has turned it away. -/
theorem witness_CopyWords_waited : ∀ w ∈ [Wait.over, .faulted], ∀ i ∈ rrr [.cpy, .cpyq, .cpyt] (.s 4) (.s 2) (.s 6),
    Ready i (at_ (copier 0x9000 0x8000 64 w)) theIssue (copier 0x9000 0x8000 64 w) := by
  have h : ∀ w ∈ [Wait.over, .faulted], ∀ i ∈ rrr [.cpy, .cpyq, .cpyt] (.s 4) (.s 2) (.s 6), ready i (at_ (copier 0x9000 0x8000 64 w)) = true := by decide
  exact fun w hw i hi => ready_at (h w hw i hi)

/-- A copy word that a restart skips, a queue that is full, and a check that fails. -/
theorem witness_CopyWords_others :
    Ready (.cpy (.s 4) (.s 2) (.s 6)) (at_ { tensorGroup with cpySkip := 1 }) theIssue { tensorGroup with cpySkip := 1 } ∧
    64 ≤ ((channeled { Channel.reset with queue := List.replicate 64 (
      { launch := 0, gid := 2, dst := 0x9000, src := 0x8000, len := 16, done := 0, stamp := 0, holds := [], flag := none, tensor := none } : Copy) }
      (at_ theGroup)).channelAt 0).queue.length ∧
    Ready (.cpyq (.s 4) (.s 2) (.s 6)) (channeled { Channel.reset with queue := List.replicate 64 (
      { launch := 0, gid := 2, dst := 0x9000, src := 0x8000, len := 16, done := 0, stamp := 0, holds := [], flag := none, tensor := none } : Copy) }
      (at_ (copier 0x9000 0x8000 64 .fenced))) theIssue (copier 0x9000 0x8000 64 .fenced) :=
  ⟨ready_at (by decide), by decide, ready_of rfl rfl (by decide)⟩

/-- s6 names the channel and what is read; s7 is a threshold. -/
def waiter (ch t : Scalar) : Group := { theGroup with sregs := [(6, ch), (7, t)] }

theorem witness_ChannelWords : Ready .xfence (at_ reader) theIssue reader ∧
    Ready (.cwp (.s 8) (.s 6)) (channeled Channel.reset (at_ (waiter 0 0))) theIssue (waiter 0 0) ∧
    Ready (.cwp (.s 8) (.s 6)) (channeled Channel.reset (at_ (waiter 0x2FF 0))) theIssue (waiter 0x2FF 0) ∧
    (channeled Channel.reset (at_ (waiter 0 0))).channelOf 0 0 = some 0 ∧
    ({ channeled Channel.reset (at_ theGroup) with channels := [(0, { Channel.reset with owner := some (0, 255) })] } : State).channelOf 0 (0x2FF % 256) = some 0 ∧
    Ready (.cwait (.s 6) (.s 7)) (channeled Channel.reset (at_ (waiter 0 0))) theIssue (waiter 0 0) ∧
    Ready (.cwait (.s 6) (.s 7)) (channeled Channel.reset (at_ (waiter 0 1))) theIssue (waiter 0 1) ∧
    ((channeled Channel.reset (at_ theGroup)).channelAt 0).wp.toNat < (1 : Scalar).toNat ∧
    Ready (.cwait (.s 6) (.s 7)) (channeled { Channel.reset with fault := true } (at_ (waiter 0 1))) theIssue (waiter 0 1) ∧
    (∀ w ∈ [Wait.faulted, .reached 5], Ready (.cwait (.s 6) (.s 7)) (channeled Channel.reset (at_ (waiting w (waiter 0 1)))) theIssue (waiting w (waiter 0 1))) :=
  ⟨ready_at (by decide), ready_of rfl rfl (by decide), ready_of rfl rfl (by decide), by decide, by decide, ready_of rfl rfl (by decide),
    ready_of rfl rfl (by decide), by decide, ready_of rfl rfl (by decide),
    fun w hw => ready_of rfl rfl ((by decide : ∀ w ∈ [Wait.faulted, .reached 5],
      ready (.cwait (.s 6) (.s 7)) (channeled Channel.reset (at_ (waiting w (waiter 0 1)))) = true) w hw)⟩

/-! A launch: of one group of one grove, by a record of zeros; and a record with a reserved bit set -/

def goodRecord : List Byte := List.replicate 128 0
def badRecord : List Byte := goodRecord.set 0x70 1

def launcher (r : List Byte) (g : Group) : State :=
  inContext (fun x => { x with cfg := { x.cfg with cpairs := 1 } }) (inDram 0x8000 r (at_ g))

def launchAt (r : List Byte) : State × List Located × List Faulted :=
  ((launcher r fenced).setGroup 2 reader).locateAll theIssue reader false [(0, 0x8000)]

def launchLoad (r : List Byte) : Load := (launchAt r).1.newLoad theIssue reader 32 .dword (blockAt 4 0x8000 (.dram 0 0x8000))

/-- The state that the record has been read in, and the values read. -/
def launchRead (r : List Byte) : State := ((launchAt r).1.performLoad 0 0 (launchLoad r)).1.setGroup 2 reader

def recordData (r : List Byte) : Table Nat := (List.range 4).map fun k => (k, fromBytes ((r.drop (32 * k)).take 32))

theorem witness_LaunchWords :
    Ready (.launch (.s 4) (.s 1)) (launcher goodRecord fenced) theIssue fenced ∧ Ready (.lquery (.s 4) (.s 1)) (at_ reader) theIssue reader ∧
    (launcher goodRecord fenced).addressTrap theIssue fenced true false 128 [(0, 0x8000)] = none ∧
    Reaches ((launcher goodRecord fenced).setGroup 2 reader) theIssue reader true false false 128 [(0, 0x8000)]
      (launchAt goodRecord).1 [(0, 0x8000, .dram 0 0x8000)] ∧
    readRuns (launchAt goodRecord).1 reader (launchLoad goodRecord) (recordData goodRecord) = true ∧
    blockBytes 32 ((recordData goodRecord).map (·.2)) = goodRecord ∧ (launchRead goodRecord).recordStatus 0 goodRecord = 1 ∧
    (((launchRead goodRecord).acceptRecord 0 goodRecord 0).1.groupAt 2).isSome = true ∧
    readWaits (.launch (.s 4) (.s 1)) (launcher goodRecord fenced) reader (launchLoad goodRecord) (recordData goodRecord) = true :=
  ⟨ready_of rfl rfl (by decide), ready_at (by decide), by decide, ⟨by decide, Prod.ext rfl (by decide)⟩, by decide, by decide, by decide, by decide,
    by decide⟩

theorem witness_LaunchWords_refused :
    readRuns (launchAt badRecord).1 reader (launchLoad badRecord) (recordData badRecord) = true ∧
    blockBytes 32 ((recordData badRecord).map (·.2)) = badRecord ∧ (launchRead badRecord).recordStatus 0 badRecord = 3 := ⟨by decide, by decide, by decide⟩

/-! Sealed images -/

/-- A group that evicts or restores, at block `b`, images from 0x8000 and units from scratch or memory. -/
def sealer (role : Role) (b : Scalar) (w : Wait) : Group :=
  { theGroup with role := role, mode := .steward, sregs := [(2, 0x8000), (4, 0x10000), (6, b)], wait := w }

theorem witness_SealWords_block : (0 : Nat) < 1024 ∧ (0 : Nat) < 2 ^ 32 ∧ ((at_ theGroup).contextAt 0).sealctr < 2 ^ 48 ∧ sealKind 0 < 2 ∧
    sealKind 0x20000000 < 2 ∧ (List.replicate 4096 (0 : Byte)).length = 4096 :=
  ⟨by decide, by decide, by decide, by decide, by decide, List.length_replicate⟩

def evictor : Group := sealer .evict 0 .fenced
def unitEvictor : Group := sealer .evict 0x20000000 .fenced

theorem witness_SealWords_sealst :
    Ready (.sealst (.s 4) (.s 2) (.s 6)) (at_ evictor) theIssue evictor ∧ badSeal 0 = false ∧ sealKind 0 = 0 ∧
    Ready (.sealst (.s 4) (.s 2) (.s 6)) (at_ unitEvictor) theIssue unitEvictor ∧ badSeal 0x20000000 = false ∧ sealKind 0x20000000 = 1 ∧
    evictor.role = .evict ∧ leavesExtent (sealPieces 0x10000 64 65) = none ∧ leavesExtent (sealPieces 0x8000 256 (sealUnits 0 + 1)) = none :=
  ⟨ready_at (by decide), by decide, by decide, ready_at (by decide), by decide, by decide, rfl, by decide, by decide⟩

def unitTarget : State × List Located × List Faulted :=
  ((at_ unitEvictor).setGroup 2 (waiting .none unitEvictor)).locateAll theIssue (waiting .none unitEvictor) true (sealPieces 0x10000 64 65)

theorem witness_SealWords_unit_image :
    Reaches ((at_ unitEvictor).setGroup 2 (waiting .none unitEvictor)) theIssue (waiting .none unitEvictor) true true true 64 (sealPieces 0x10000 64 65)
      unitTarget.1 unitTarget.2.1 ∧ unitTarget.1.placesReady 0 (piecesAt 64 unitTarget.2.1) true = true ∧
    ({ unitTarget.1 with lines := [(0x200, { (default : Line) with present := 1 })] } : State).placesReady 0 (piecesAt 64 unitTarget.2.1) true = false :=
  ⟨reaches_of (by decide) (by decide), by decide, by decide⟩

def unitsState : State × List Located × List Faulted :=
  ((at_ evictor).setGroup 2 (waiting .none evictor)).locateAll theIssue (waiting .none evictor) false (sealPieces 0x8000 256 1)

def unitsLoad : Load := unitsState.1.newLoad theIssue (waiting .none evictor) 32 .qword
  (unitsState.2.1.flatMap fun e => (List.range 8).map fun k => (8 * e.1 + k, e.2.1, e.2.2.plus (32 * k)))

/-- The state that the units have been read in. -/
def unitsRead : State := (unitsState.1.performLoad 0 0 unitsLoad).1.setGroup 2 (waiting .none evictor)

theorem witness_SealWords_units_image :
    ((at_ evictor).setGroup 2 (waiting .none evictor)).addressTrap theIssue (waiting .none evictor) true true 64 (sealPieces 0x10000 64 65) = none ∧
    Reaches ((at_ evictor).setGroup 2 (waiting .none evictor)) theIssue (waiting .none evictor) true false true 256 (sealPieces 0x8000 256 1)
      unitsState.1 unitsState.2.1 ∧
    readRuns unitsState.1 (waiting .none evictor) unitsLoad ((List.range 8).map fun k => (k, 0)) = true ∧
    (unitsRead.locateAll theIssue (waiting .none evictor) true (sealPieces 0x10000 64 65)).2.2 = [] ∧
    readWaits (.sealst (.s 4) (.s 2) (.s 6)) (at_ evictor) evictor unitsLoad ((List.range 8).map fun k => (k, 0)) = true :=
  ⟨by decide, reaches_of (by decide) (by decide), by decide, by decide, by decide⟩

/-- A group that restores: the image lies at 0x8000, the units at 0x10000. -/
def restorer (b : Scalar) : Group := sealer .restore b .none

def imageState : State × List Located × List Faulted := (at_ (restorer 0)).locateAll theIssue (restorer 0) false (sealPieces 0x8000 64 65)

theorem witness_SealWords_sealld :
    Ready (.sealld (.s 4) (.s 2) (.s 6)) (at_ (restorer 0)) theIssue (restorer 0) ∧
    Ready (.sealld (.s 4) (.s 2) (.s 6)) (at_ (restorer 0x20000000)) theIssue (restorer 0x20000000) ∧
    (at_ (restorer 0)).busy 2 = false ∧ (at_ (restorer 0)).addressTrap theIssue (restorer 0) true true 64 (sealPieces 0x8000 64 65) = none ∧
    imageState.2.2 = [] ∧ leavesExtent (sealPieces 0x8000 64 65) = none ∧ (restorer 0).wait = .none ∧
    leavesExtent (sealPieces 0x10000 256 1) = none ∧ (restorer 0).pendingOps = [] ∧
    (at_ (restorer 0)).addressTrap theIssue (restorer 0) true true 256 (sealPieces 0x10000 256 1) = none :=
  ⟨ready_at (by decide), ready_at (by decide), by decide, by decide, by decide, by decide, by decide, by decide, by decide, by decide⟩

/-- A restorer whose own earlier store is under way, and one with its block's stores under way. -/
theorem witness_SealWords_waits :
    ready (.sealld (.s 4) (.s 2) (.s 6)) (at_ (waiting .idle (restorer 0))) = true ∧
    ({ at_ (restorer 0) with loads := [{ spillLoad with seq := 5 }] } : State).busy 2 = true ∧
    ready (.sealld (.s 4) (.s 2) (.s 6)) (at_ (waiting .writing (restorer 0))) = true ∧
    ready (.sealst (.s 4) (.s 2) (.s 6)) (at_ (waiting .writing evictor)) = true ∧ (at_ theGroup).cuts = [] ∧
    ({ at_ theGroup with flights := [{ seq := 5, ctx := 0, who := 2, va := 0x10000, pieces := [(.dram 0 0x10000, 0, 64)], bytes := some [] }] } : State).flightsOf 2 =
      [{ seq := 5, ctx := 0, who := 2, va := 0x10000, pieces := [(.dram 0 0x10000, 0, 64)], bytes := some [] }] := by decide

/-- A block's read of its first `n` pieces of 64 bytes at their homes. -/
def blockRead (n : Nat) : Load := imageState.1.homeLoad theIssue (restorer 0) 64 (imageState.2.1.take n)

theorem witness_SealWords_block_read :
    readWaits (.sealld (.s 4) (.s 2) (.s 6)) (at_ (restorer 0)) (restorer 0) (blockRead 2) [(0, 0), (1, 0)] = true ∧
    (blockRead 65).rest.length = 65 := by decide

theorem witness_SealWords_piece : ∀ k ∈ [0, 64], let s := awaiting (blockRead 65) (at_ (restorer 0)) (restorer 0)
    ∃ x l, s.loads.find? (fun y => decide (y.seq = 7)) = some x ∧ (s.groupAt x.gid).isSome = true ∧ x.rest.find? (fun m => decide (m.lane = k)) = some l ∧
      x.rest.filter l.together = [l] ∧ 0 < x.size ∧ l.atHome = true ∧ l.place.isGlobal = true ∧ l.own = [] ∧ s.homeHas 0 l.place = true ∧
      s.laneReady x l = true := by
  have h : ∀ k ∈ [0, 64], let s := awaiting (blockRead 65) (at_ (restorer 0)) (restorer 0)
      let x := { blockRead 65 with seq := 7, own := true }
      let l : LoadLane := { lane := k, place := .dram 0 (0x8000 + 64 * k), own := [], atHome := true }
      s.loads.find? (fun y => decide (y.seq = 7)) = some x ∧ (s.groupAt x.gid).isSome = true ∧ x.rest.find? (fun m => decide (m.lane = k)) = some l ∧
        x.rest.filter l.together = [l] ∧ 0 < x.size ∧ l.atHome = true ∧ l.place.isGlobal = true ∧ l.own = [] ∧ s.homeHas 0 l.place = true ∧
        s.laneReady x l = true := by decide
  exact fun k hk => ⟨_, _, h k hk⟩

/-- A group that has read a block. -/
def blockLoad (r : List Byte) : Load :=
  { blockRead 65 with seq := 7, rest := [], data := (List.range 65).map fun k => (k, fromBytes ((r.drop (64 * k)).take 64)) }

def sealed_ (b : Scalar) (r : List Byte) : State := { at_ (waiting (.reading 7) (restorer b)) with loads := [blockLoad r] }

theorem sealed_block (r : List Byte) (h : r.length = 4160) : blockBytes 64 ((blockLoad r).data.map (·.2)) = r := by
  have := blockBytes_pieces r 65 (by omega)
  rw [show 64 * 65 = 4160 from rfl, ← h, List.take_length] at this
  rw [← this, this]
  simp only [blockLoad, List.map_map]
  exact this

/-- A block of units, or of a grove's barriers, sealed under the key and the counter in force. -/
def goodBlock (kind units : Nat) : List Byte := sealedBlock ((at_ theGroup).keyOf 0) 0 0 0 0 units kind []

theorem goodBlock_parts (kind units : Nat) :
    (goodBlock kind units).take 4096 = gcmApply ((at_ theGroup).keyOf 0) (sealIv 0 0 0) (List.replicate 4096 0) ∧
    (goodBlock kind units).drop 4096 = trailerHead 0 0 0 0 units kind ++ tagBytes ((at_ theGroup).keyOf 0) (sealIv 0 0 0)
      (trailerHead 0 0 0 0 units kind) (gcmApply ((at_ theGroup).keyOf 0) (sealIv 0 0 0) (List.replicate 4096 0)) := by
  have h : (gcmApply ((at_ theGroup).keyOf 0) (sealIv 0 0 0) (List.replicate 4096 0)).length = 4096 := by
    simp only [gcmApply, List.length_map, List.length_zipIdx, List.length_replicate]
  constructor
  · simp only [goodBlock, sealedBlock, List.nil_append, List.take_replicate, List.append_assoc, Nat.min_self]
    exact List.take_left' h
  · simp only [goodBlock, sealedBlock, List.nil_append, List.take_replicate, List.append_assoc, Nat.min_self]
    exact List.drop_left' h

theorem field_head {a b : List Byte} {o n : Nat} (h : o + n ≤ a.length) : fieldOf (a ++ b) o n = fieldOf a o n := by
  simp only [fieldOf, List.drop_append_of_le_length (Nat.le_trans (Nat.le_add_right o n) h)]
  rw [List.take_append_of_le_length (by simp; omega)]

theorem goodBlock_length (kind units : Nat) : (goodBlock kind units).length = 4160 := by
  have h := congrArg List.length (List.take_append_drop 4096 (goodBlock kind units))
  rw [List.length_append, (goodBlock_parts kind units).1, (goodBlock_parts kind units).2, List.length_append] at h
  have ht (k iv : Nat) (a d : List Byte) : (tagBytes k iv a d).length = 16 := rfl
  have hh : (trailerHead 0 0 0 0 units kind).length = 48 := rfl
  rw [← h, ht, hh]
  simp only [gcmApply, List.length_map, List.length_zipIdx, List.length_replicate]

theorem witness_SealWords_accepted : ∀ e ∈ [((0 : Scalar), (0 : Nat), (0 : Nat)), (0x20000000, 1, 15)],
    let r := goodBlock e.2.1 e.2.2
    let s := sealed_ e.1 r
    Ready (.sealld (.s 4) (.s 2) (.s 6)) s theIssue (waiting (.reading 7) (restorer e.1)) ∧
      s.loads.find? (fun y => decide (y.seq = 7)) = some (blockLoad r) ∧ (blockLoad r).rest.any (s.cutLane (blockLoad r)) = false ∧
      s.loadReady (blockLoad r) = true ∧ s.performLoad 0 0 (blockLoad r) = (s, blockLoad r) ∧ (blockLoad r).poison = none ∧
      blockBytes 64 ((blockLoad r).data.map (·.2)) = r ∧ (at_ theGroup).sealCause 0 e.1 r = none ∧ sealKind e.1 = e.2.1 := by
  intro e h
  have key : ∀ e ∈ [((0 : Scalar), (0 : Nat), (0 : Nat)), (0x20000000, 1, 15)], ((trailerHead 0 0 0 0 e.2.2 e.2.1).length = 48) ∧
      fieldOf (trailerHead 0 0 0 0 e.2.2 e.2.1) 0 8 = 0 ∧ fieldOf (trailerHead 0 0 0 0 e.2.2 e.2.1) 0x0C 4 = 0 ∧
      fieldOf (trailerHead 0 0 0 0 e.2.2 e.2.1) 0x08 4 = 0 ∧ fieldOf (trailerHead 0 0 0 0 e.2.2 e.2.1) 0x15 1 = sealKind e.1 ∧
      (sealKind e.1 = 0 → fieldOf (trailerHead 0 0 0 0 e.2.2 e.2.1) 0x14 1 = sealUnits e.1) ∧ sealBlk e.1 = 0 ∧ sealKind e.1 = e.2.1 ∧
      ((at_ theGroup).contextAt 0).sealctr = 0 := by decide
  obtain ⟨hl, h0, h1, h2, h3, h4, h5, h6, h7⟩ := key e h
  obtain ⟨p1, p2⟩ := goodBlock_parts e.2.1 e.2.2
  refine ⟨ready_of rfl rfl ?_, rfl, rfl, rfl, rfl, rfl, sealed_block _ (goodBlock_length _ _), ?_, h6⟩
  · simp only [List.mem_cons, List.not_mem_nil, or_false] at h
    rcases h with rfl | rfl <;> rfl
  · simp only [State.sealCause, p1, p2, field_head (hl ▸ (by decide : 0 + 8 ≤ 48)), field_head (hl ▸ (by decide : 0x0C + 4 ≤ 48)),
      field_head (hl ▸ (by decide : 0x08 + 4 ≤ 48)), field_head (hl ▸ (by decide : 0x15 + 1 ≤ 48)),
      field_head (hl ▸ (by decide : 0x14 + 1 ≤ 48)), h0, h1, h2, h3, h5, h7, List.take_left' hl, List.drop_left' hl]
    split
    · simp_all
    · split
      · simp_all
      · split
        · rename_i h8; exact absurd (h4 h8.1) h8.2
        · simp

/-- The units' destination, once the block is read. -/
def unitsTarget : State × List Located × List Faulted :=
  (at_ (restorer 0)).locateAll theIssue (restorer 0) true (sealPieces 0x10000 256 1)

theorem witness_SealWords_read : unitsTarget.2.2 = [] ∧ unitsTarget.1.placesReady 0 (piecesAt 256 unitsTarget.2.1) true = true ∧
    ({ unitsTarget.1 with lines := [(0x201, { (default : Line) with present := 1 })] } : State).placesReady 0 (piecesAt 256 unitsTarget.2.1) true = false := by
  decide

/-! Steps -/

/-- A program whose first word is `vif`, about to begin; the same group in its offset, holding a word, and a state with an event next. -/
def loaded : State := State.reset.withFetchWord 32 0x1B000000
def begun (g : Group) : State := { loaded with groups := [(2, g)] }
def inOffset : Group := { theGroup with occ := some 1 }
def holding : Group := { theGroup with held := some (.mwait (.s 1), theIssue) }

/-- The agenda's choice picks the group. -/
def picked (s : State) : Bool :=
  decide (s.due = none) && !s.throttleDue && decide (s.agenda = [.issue 0 0]) &&
    decide ((({ s with agenda := [] } : State).chosen 0 0).map (·.1) = some 2)

theorem picks_of {g : Group} (h : picked (begun g) = true) (k : ({ begun g with agenda := [] } : State).chosen 0 0 = some (2, g)) :
    Picks (begun g) { begun g with agenda := [] } 2 g := by
  simp only [picked, Bool.and_eq_true, decide_eq_true_eq, Bool.not_eq_true'] at h
  exact ⟨h.1.1.1, h.1.1.2, .inl ⟨0, 0, [], h.1.2, rfl, k⟩⟩

theorem witness_StepRunsDecodedWord_begins : Picks (begun theGroup) { begun theGroup with agenda := [] } 2 theGroup ∧ theGroup.wait ≠ .trap ∧
    theGroup.held = none ∧ theGroup.heldTrap = none ∧ theGroup.off < 2 ^ 20 ∧ theGroup.occ = none ∧
    (∃ t, ({ begun theGroup with agenda := [] } : State).fetchAll { theGroup with trapOwn := false, wait := .none, occ := some theGroup.occupied, doneP := 0 }
      (planesOf theGroup.occupied) = (t, .ok [(0, 0x1B000000)])) ∧ misaligned [(0, 0x1B000000)] = [] ∧ decode 0x1B000000 = .ok .vif :=
  ⟨picks_of (by decide) (by decide), by decide, by decide, by decide, by decide, by decide, ⟨_, Prod.ext rfl (by rfl)⟩, by decide, by decide⟩

theorem witness_StepRunsDecodedWord_goes_on : Picks (begun inOffset) { begun inOffset with agenda := [] } 2 inOffset ∧ inOffset.occ = some 1 ∧
    (planesOf (1 &&& ~~~inOffset.doneP)).head? = some 0 ∧ ∃ t, ({ begun inOffset with agenda := [] } : State).fetch inOffset 0 = (t, .ok 0x1B000000) :=
  ⟨picks_of (by decide) (by decide), by decide, by decide, ⟨_, Prod.ext rfl (by rfl)⟩⟩

theorem witness_StepRunsDecodedWord_held : Picks (begun holding) { begun holding with agenda := [] } 2 holding ∧ holding.wait ≠ .trap ∧
    holding.held = some (.mwait (.s 1), theIssue) := ⟨picks_of (by decide) (by decide), by decide, rfl⟩

theorem witness_StepRunsDecodedWord_event : ({ State.reset with agenda := [.event .powerOff] } : State).due = none ∧
    ({ State.reset with agenda := [.event .powerOff] } : State).throttleDue = false ∧
    (at_ inOffset).cur = some theIssue ∧ (at_ inOffset).groupAt 2 = some inOffset ∧ theIssue.fate ≠ .hold ∧ theIssue.fate ≠ .left :=
  ⟨by decide, by decide, rfl, rfl, by decide, by decide⟩

/-- The group of the word at issue has ended; and it holds its partition while planes of its offset are left. -/
theorem witness_StepRunsDecodedWord_last : ({ at_ inOffset with groups := [] } : State).groupAt theIssue.gid = none ∧ theIssue.again = false ∧
    inOffset.occ = some 1 ∧ (1 : BitVec 4) &&& ~~~(inOffset.doneP ||| planeBit theIssue.plane) = 0 ∧
    (3 : BitVec 4) &&& ~~~(inOffset.doneP ||| planeBit theIssue.plane) ≠ 0 := by decide

theorem witness_DecodeEncode : encode true (.bz (.s 15) 16) = some 0xE1DE0010 := rfl
theorem witness_EncodeDecode : decode 0xE1DE0010 = .ok (.bz (.s 15) 16) := by decide

/-- The power-on state steps on. -/
theorem witness_invariants : Canonical State.reset ∧ ScratchCanonical State.reset ∧ State.reset.cur = none ∧
    (∃ t, step State.reset = .next t) ∧ Canonical loaded ∧ ScratchCanonical loaded ∧ ∃ t, step loaded = .next t := by
  refine ⟨⟨by decide, by decide, by decide⟩, ?_, rfl, ⟨_, rfl⟩, ⟨by decide, by decide, by decide⟩, ?_, ⟨_, rfl⟩⟩
  · intro e h; cases h
  · intro e h
    have : ∀ e ∈ loaded.groves, e.2.scratch.wf = true := by decide
    exact this e h

theorem witness_GroupStart : loaderRecord.param < 2 ^ 64 := by decide

/-! What comes back -/

/-- The newest write of s4, ready. -/
def returningGroup : Group := { theGroup with results := [pending], gens := [(1028, 1)] }

def aLoad : Load :=
  { seq := 9, gid := 2, size := 4, widen := .word, lanes := [{ lane := 0, place := .dram 0 0x8000, own := [], atHome := false }], clk := 0, lease := 16,
    rest := [{ lane := 0, place := .dram 0 0x8000, own := [], atHome := false }], data := [], w := 0, hit := true, poison := none, own := false }

theorem witness_ResultsReturn : (at_ returningGroup).groupAt 2 = some returningGroup ∧ returningGroup.results[0]? = some pending ∧
    (at_ returningGroup).resultReady 2 returningGroup pending = true ∧
    (let s := { at_ returningGroup with loads := [aLoad] }
     s.loads.find? (fun y => decide (y.seq = 9)) = some aLoad ∧ returningGroup.results.find? (fun r => decide (r.seq = 9)) = some pending ∧
      s.loadReady aLoad = true ∧ s.resultReady 2 returningGroup { pending with ready := true } = true ∧ (s.performLoad 0 0 aLoad).2.poison = none) :=
  ⟨rfl, rfl, by decide, by decide⟩

def aCopy : CopyLine := { ctx := 0, sector := .dram 0 0x8000, w := 3, lc := 20, data := List.replicate 32 7, bad := 0 }

theorem witness_LoadsReadByTime :
    (let l : LoadLane := { lane := 0, place := .scratch 1 0, own := [], atHome := false }
     let x : Load := { aLoad with lanes := [l], rest := [l] }
     x.data = [] ∧ x.rest = x.lanes ∧ (x.lanes.map fun l => l.lane).Nodup ∧ ∀ l ∈ x.lanes, l.place.isGlobal = false ∧ l.own = []) ∧
    (let s := { start with cores := [(0, { Core.reset with l1 := [aCopy] })] }
     findCopy (s.coreAt 0).l1 0 (Place.dram 0 0x8000).sector 5 = some aCopy) ∧
    (let s := { start with slices := [(0, { Slice.reset with l2 := [aCopy] })] }
     findCopy (s.coreAt 0).l1 0 (Place.dram 0 0x8000).sector 5 = none ∧ findCopy (s.sliceAt (coreSlice 0)).l2 0 (Place.dram 0 0x8000).sector 5 = some aCopy) ∧
    (Place.dram 0 0x801C).isGlobal = true ∧ (Place.dram 0 0x801C).offset % 32 + 4 ≤ 32 ∧
    findCopy (start.coreAt 0).l1 0 (Place.dram 0 0x801C).sector 0 = none ∧
    findCopy (start.sliceAt (coreSlice 0)).l2 0 (Place.dram 0 0x801C).sector 0 = none :=
  ⟨⟨rfl, rfl, by decide, by decide⟩, by decide, ⟨by decide, by decide⟩, by decide, by decide, by decide, by decide⟩

def anEntry : Entry :=
  { seq := 9, gid := 2, ctx := 0, core := 0, line := .dram 0 0x8000, va := 0x8000, bytes := [(0, 1), (127, 2)], clk := 5, born := 0, draining := true, held := false }

theorem witness_StoresArrive :
    (let s := { start with entries := [anEntry] }
     Canonical s ∧ s.entries.find? (fun f => decide (f.seq = 9) && s.entryReady f) = some anEntry ∧ s.homeOwns 0 (.dram 0 0x8000) = true ∧
      anEntry.line.offset % 128 = 0 ∧ anEntry.line.isGlobal = true ∧ (∀ b ∈ anEntry.bytes, b.1 < 128) ∧ (anEntry.bytes.map (·.1)).Nodup) ∧
    (∀ h ∈ [true, false], let e := { anEntry with draining := false, held := h }
     let s := { start with entries := [e], cores := [(0, { Core.reset with phase := 4096 * 800 * 40 })] }
     (∀ f ∈ s.entries, f.seq = 9 → f = e) ∧ e ∈ s.entries ∧ e.held = h ∧ e.born + 4096 ≤ (s.coreAt 0).clock) ∧
    (let x : LocalStore := { seq := 9, gid := 2, ctx := 0, place := .scratch 1 0, size := 4, data := 7 }
     let s := { start with locals := [x] }
     s.locals.find? (fun y => decide (y.seq = 9)) = some x ∧ s.localBefore 2 9 = false ∧ s.registerReady x = true ∧ Stored s x.place ∧ Canonical s ∧
      ScratchCanonical s) :=
  ⟨⟨⟨by decide, by decide, by decide⟩, by decide, by decide, by decide, by decide, by decide, by decide⟩, by decide,
    by decide, by decide, by decide, (by decide : (start.groves.at? 1).isSome = true), ⟨by decide, by decide, by decide⟩, by unfold ScratchCanonical; decide⟩

/-- A store to a register that an earlier result is to write: it waits; and one behind another. -/
theorem witness_StoresArrive_waits :
    (let x : LocalStore := { seq := 10, gid := 2, ctx := 0, place := .regs 2 384, size := 4, data := 7 }
     ({ at_ { theGroup with results := [{ pending with dest := .vec 3 1 }] } with locals := [x] } : State).registerReady x = false ∧
      Stored (at_ theGroup) x.place) ∧
    ({ start with locals := [{ seq := 8, gid := 2, ctx := 0, place := .scratch 1 0, size := 4, data := 7 }] } : State).localBefore 2 9 = true :=
  ⟨⟨by decide, theGroup, rfl, by decide⟩, by decide⟩

/-- A VF in ERROR bars an entry, and a lane of an atomic, from a line of host memory that no home holds. -/
def inError : State := { start with vfs := [(0, { tdisp := .error, stream := 0 })] }

theorem witness_StoresArrive_barred :
    let e := { anEntry with line := .host 0 0 0x8000 }
    let s := { inError with entries := [e] }
    s.entries.find? (fun f => decide (f.seq = 9) && s.entryReady f) = some e ∧ s.homeOwns 0 e.line = false ∧ (e.bytes.at? 0).isSome = true := by decide

def anAtomic (lanes : List AtomLane) : Atomic :=
  { seq := 9, gid := 2, ctx := 0, core := 0, op := .cas, size := 4, lanes := lanes, did := [], clk := 0, returns := true, old := [(0, 1)], t := 0 }
def aLane : AtomLane := { lane := 0, va := 0x8000, place := .dram 0 0x8000, v := 0, v2 := 7 }

theorem witness_AtomicsPerform :
    (let s := { start with atoms := [anAtomic [aLane]] }
     s.atoms.find? (fun b => decide (b.seq = 9)) = some (anAtomic [aLane]) ∧ s.atomReady (anAtomic [aLane]) aLane = true ∧
      s.homeOwns 0 aLane.place = true ∧ aLane.place.isGlobal = true ∧ aLane.place.offset % 128 + 4 ≤ 128 ∧ Canonical s) ∧
    (let l := { aLane with place := .scratch 1 0 }
     ({ start with atoms := [anAtomic [l]] } : State).atomReady (anAtomic [l]) l = true ∧ Stored start l.place ∧ ScratchCanonical start ∧
      ({ start with atoms := [anAtomic [l]], locals := [{ seq := 8, gid := 2, ctx := 0, place := .scratch 1 0, size := 4, data := 7 }] } : State).atomReady
        (anAtomic [l]) l = false) ∧
    (let s := { at_ returningGroup with atoms := [anAtomic []] }
     s.atoms.find? (fun b => decide (b.seq = 9)) = some (anAtomic []) ∧ s.groupAt 2 = some returningGroup ∧
      returningGroup.results.find? (fun r => decide (r.seq = 9)) = some pending ∧ s.resultReady 2 returningGroup { pending with ready := true } = true) ∧
    (0xFFFFFFFF : Nat) < 2 ^ (8 * 4) ∧ (pending.dest = .scal 4 1) ∧ (0 : Nat) < 64 * 1 :=
  ⟨⟨by decide, by decide, by decide, by decide, by decide, by decide, by decide, by decide⟩,
    ⟨by decide, (by decide : (start.groves.at? 1).isSome = true), by unfold ScratchCanonical; decide, by decide⟩,
    ⟨by decide, rfl, by decide, by decide⟩, by decide, rfl, by decide⟩

theorem witness_AtomicsPerform_barred :
    let l := { aLane with place := .host 0 0 0x8000 }
    let s := { inError with atoms := [anAtomic [l]] }
    s.atoms.find? (fun b => decide (b.seq = 9)) = some (anAtomic [l]) ∧ s.atomReady (anAtomic [l]) l = true ∧ s.homeOwns 0 l.place = false := by decide

/-! Streams, groups, channels and links -/

def aContribution (h : Scalar) (j : Nat) : Contribution :=
  { seq := 9, gid := 2, ctx := 0, handle := h, j := j, data := 5, clk := 0, refused := false }

def contributing (h : Scalar) (j : Nat) : State := { withStreams [(0, stream 1)] start with contribs := [aContribution h j] }

def hostLane : LoadLane := { lane := 0, place := .host 0 0 0x8000, own := [], atHome := false }

/-- A port that was severed 50 ms ago while access 9 to it was in flight. -/
def aCut : Cut := { seq := 9, ctx := 0, line := .host 0 0 0x8000, own := true, due := 50000000, late := false }
def cutOff : State := { at_ theGroup with time := 50000000, cuts := [aCut] }

/-- A stream whose target is in host memory, its VF in ERROR; and one whose port was severed. -/
def hostStream : Machine.Stream := { stream 1 with target := .host 0 0 0x8000, va := 0x40008000 }
def barredStream : State := { withStreams [(0, hostStream)] start with contribs := [aContribution handle 1], vfs := [(0, { tdisp := .error, stream := 0 })] }
def lateStream : State := { withStreams [(0, { hostStream with cut := [{ aCut with seq := 0 }] })] cutOff with contribs := [aContribution handle 1] }

/-- A stream that has buffered as much as it may. -/
def fullStream : Machine.Stream := { stream 1 with buf := (List.range 256).map fun k => (k + 8, 0, 0, 2) }

theorem witness_ContributionsArrive : (∀ j ∈ [0, 1, 2], (contributing handle j).contribs.find? (fun y => decide (y.seq = 9)) = some (aContribution handle j)) ∧
    (∀ j ∈ [0, 1, 2], (contributing handle j).streamOf 0 handle = some (stream 1)) ∧ (stream 1).buf.at? 2 = none ∧ (stream 1).buf = [] ∧
    start.homeOwns 0 (stream 1).target = true ∧ start.blocked 0 (stream 1).target = false ∧ (stream 1).ctx = 0 ∧
    (contributing 0x8000000300000000 1).streamOf 0 0x8000000300000000 = none ∧
    ({ stream 1 with buf := [(1, 5, 0, 2)] } : Machine.Stream).buf.at? 1 = some (5, 0, 2) ∧
    start.lateContribution (aContribution handle 1) (stream 1) = false ∧
    barredStream.lateContribution (aContribution handle 1) hostStream = false ∧ barredStream.homeOwns 0 hostStream.target = false ∧
    barredStream.blocked 0 hostStream.target = true ∧ start.homeOwns 0 hostStream.target = false ∧ start.blocked 0 hostStream.target = false ∧
    256 ≤ fullStream.buf.length ∧ fullStream.next < 2 ∧ fullStream.buf.at? 2 = none ∧ (aContribution handle 2).refused = false ∧
    ({ aContribution handle 2 with refused := true } : Contribution).refused = true :=
  ⟨by decide, by decide, by decide, by decide, by decide, by decide, by decide, by decide, by decide, by decide, by decide, by decide, by decide, by decide,
    by decide, by decide, by decide, by decide, by decide, by decide⟩

/-- Index 1 arrives before index 2, which is buffered, and both are added: 5 + 7. -/
theorem test_contribution_applies_what_is_buffered :
    let s := withStreams [(0, { stream 1 with buf := [(2, 7, 0, 2)] })] { start with contribs := [aContribution handle 1] }
    let t := next (exec (.contributionArrival 9) s)
    fromBytes (t.bytesAt (t.keyOf 0) (.dram 0 0x8000) 4) = 12 ∧ (t.sliceAt 0).streams.map (fun e => (e.2.next, e.2.buf)) = [(3, [])] := by decide

/-- Of a load, an entry, a write of a slot and an atomic, each is one that its port has not answered in time. -/
theorem witness_ContributionsArrive_late :
    (let x := { aLoad with lanes := [hostLane], rest := [hostLane] }
     ({ cutOff with loads := [x] } : State).loads.find? (fun x => decide (x.seq = 9) && x.rest.any fun l => ({ cutOff with loads := [x] } : State).cutLane x l) =
      some x) ∧
    cutOff.loads = [] ∧ cutOff.entries = [] ∧ cutOff.slotWrites = [] ∧
    cutOff.unanswered anEntry.seq { anEntry with line := .host 0 0 0x8000 }.line = true ∧
    cutOff.unanswered 9 ({ seq := 9, gid := 2, ctx := 0, va := 0x10000, place := .host 0 0 0x8000, bytes := [0], clk := 0 } : SlotWrite).place = true ∧
    (let a := anAtomic [{ aLane with place := .host 0 0 0x8000 }]
     ({ cutOff with atoms := [a] } : State).atoms.find?
       (fun a => decide (a.seq = 9) && (a.lanes.head?.any fun l => ({ cutOff with atoms := [a] } : State).unanswered a.seq l.place)) = some a) ∧
    lateStream.contribs.find? (fun y => decide (y.seq = 9) && (lateStream.lateStream y).isSome) = some (aContribution handle 1) ∧
    lateStream.lateContribution (aContribution handle 1) { hostStream with cut := [{ aCut with seq := 0 }] } = true ∧ lateStream.atoms = [] :=
  ⟨by decide, rfl, rfl, rfl, by decide, by decide, by decide, by decide, by decide, rfl⟩

theorem witness_GroupEvents :
    (let g := { theGroup with wait := .fence }
     (at_ g).groupAt 2 = some g ∧ g.results = [] ∧ (at_ g).storesLeft 2 = false ∧ ∀ x ∈ (at_ g).locals, x.gid ≠ 2) ∧
    ({ theGroup with tickDue := true } : Group).tickDue = true ∧
    (let g := { theGroup with demoted := some 66 }
     let s := { at_ g with cores := [(0, { Core.reset with phase := 67 * 800 })] }
     s.groupAt 2 = some g ∧ 66 < (s.coreAt 0).clock) ∧
    (let g := { theGroup with openOps := [anOp] }
     g.matOps.find? (fun o => o.result.isNone) = some anOp ∧ (at_ g).localBefore 2 9 = false ∧ (∀ f ∈ anOp.foot, (at_ g).isPoisoned f.1 f.2 = false) ∧ g.width ≤ 64) ∧
    (let b : Batch := { k := 0, number := 0, ops := [{ anOp with result := some ([(0, 1), (64, 2)], 0) }] }
     ({ theGroup with batches := [b] } : Group).batches = b :: [] ∧ (∀ o ∈ b.ops, o.result.isSome = true) ∧
      ∀ o ∈ b.ops, ∀ v ∈ o.result, (v.1.map fun e => e.1).Nodup) ∧
    (start.contexts.at? 0).isSome = true ∧ (∃ l, start.walk 0 0x8000 = .ok l ∧ ∃ a, start.judge 0 l 0x8000 false true = .ok a) ∧
    (let s := inContext (fun x => { x with sevp := 1 }) (inDram 0x2008 [0x8B] start)
     ∃ l, s.walk 0 0x40000000 = .ok l ∧ ∃ e, s.judge 0 l 0x40000000 false true = .error e) :=
  ⟨⟨rfl, by decide, by decide, by decide⟩, rfl, ⟨rfl, by decide⟩, ⟨by decide, by decide, by decide, by decide⟩, ⟨rfl, by decide, by decide⟩, by decide,
    ⟨_, rfl, _, rfl⟩, _, rfl, _, rfl⟩

theorem witness_GroupEvents_operands :
    (at_ (inRegs tile)).operandPlace 2 (inRegs tile) 0xFFF2000000000000 = some (.regs 2 0, 0x10000) := by decide

/-! Channel 0 of engine 0 with one copy in progress -/

def aCopying (src done_ : Nat) (flag : Option Nat) : Copy :=
  { launch := 0, gid := 2, dst := 0x9010, src := src, len := 64, done := done_, stamp := 0, holds := [], flag := flag, tensor := none }

def copying (x : Copy) : State := channeled { Channel.reset with queue := [x] } start

/-- The channel takes its copy's next unit. -/
def taking (s : State) (x : Copy) : Bool :=
  decide ((s.channelAt 0).queue = [x]) && decide ((s.channelAt 0).owner = some (0, 0)) && decide ((s.channelAt 0).fault = false) &&
    decide ((s.channelAt 0).stalled = none) && decide ((s.channelAt 0).flight = none) && decide ((s.channelAt 0).cut = []) && !s.held x

theorem witness_CopyUnitsDelivered :
    (let s := copying (aCopying 0x8000 0 none)
     let x := aCopying 0x8000 0 none
     Canonical s ∧ taking s x = true ∧ x.done < x.len ∧ min (32 - (x.dst + x.done) % 32) (x.len - x.done) = 16 ∧
      (∀ i, i < 16 → s.reach 0 0 (x.src + x.done + i) false = .at_ (.dram 0 (0x8000 + i))) ∧
      (∀ i, i < 16 → s.reach 0 0 (x.dst + x.done + i) true = .at_ (.dram 0 (0x9010 + i))) ∧
      (∀ i, i < 16 → s.homeHas 0 (.dram 0 (0x8000 + i)) = true ∧ s.homeOwns 0 (.dram 0 (0x9010 + i)) = true ∧ s.blocked 0 (.dram 0 (0x8000 + i)) = false ∧
        s.blocked 0 (.dram 0 (0x9010 + i)) = false) ∧
      (0x8000 : Nat) % 128 + 16 ≤ 128 ∧ (0x9010 : Nat) % 128 + 16 ≤ 128 ∧ (Place.dram 0 0x8000).lineKey ≠ (Place.dram 0 0x9010).lineKey ∧
      s.slices = []) :=
  ⟨⟨by decide, by decide, by decide⟩, by decide, by decide, by decide, by decide, by decide, by decide, by decide, by decide, by decide, rfl⟩

/-- A source in host memory: its home has no copy; its VF is in ERROR; and a unit whose port was severed 50 ms ago. -/
def hosted : State := inDram 0x2008 [0x8B] (copying (aCopying 0x40000000 0 none))
def barred : State := { hosted with vfs := [(0, { tdisp := .error, stream := 0 })] }

theorem witness_CopyUnitsDelivered_host :
    let x := aCopying 0x40000000 0 none
    let rs := hosted.unitReach 0 0 x x.nextUnit
    taking hosted x = true ∧ taking barred x = true ∧ firstTrouble rs = none ∧ firstTrouble (barred.unitReach 0 0 x x.nextUnit) = none ∧
    (∀ p ∈ placesAmong rs, hosted.blocked 0 p = false) ∧ (∃ p ∈ placesAmong (x.nextUnit.split rs).1, hosted.homeHas 0 p = false) ∧
    ∃ p ∈ placesAmong (barred.unitReach 0 0 x x.nextUnit), barred.blocked 0 p = true :=
  ⟨by decide, by decide, by decide, by decide, by decide, by decide, by decide⟩

/-- A channel's states in which nothing is delivered; a unit that is dropped; and a copy with nothing left. -/
theorem witness_CopyUnitsDelivered_others :
    (∀ k ∈ [{ Channel.reset with fault := true }, { Channel.reset with stalled := some 3 }],
      k.fault = true ∨ k.stalled.isSome = true) ∧
    (let s := channeled { Channel.reset with
       queue := [aCopying 0x40000000 0 none], flight := some [(0x40000000, .at_ (.host 0 0 0x8000))], cut := [{ aCut with seq := 0 }] } cutOff
     (s.channelAt 0).flight.getD [] = [] ++ (0x40000000, .at_ (.host 0 0 0x8000)) :: [] ∧ s.expired { aCut with seq := 0 } = true ∧
      (s.channelAt 0).stalled = none ∧ s.held (aCopying 0x40000000 0 none) = false) ∧
    taking (copying (aCopying 0x8000 64 none)) (aCopying 0x8000 64 none) = true ∧ (aCopying 0x8000 64 none).flag = none :=
  ⟨by decide, ⟨by decide, by decide, by decide, by decide⟩, by decide, rfl⟩

/-- A copy of one row of sixteen elements from (or, with DIR 1, to) an array of seventeen from its element −1 on, of which bytes are
edge elements, or FILL, or not written. -/
def tensorRow (q : Nat) : List Byte :=
  toBytes 0x9000 8 ++ toBytes 16 8 ++ toBytes (0x100010000 + q) 8 ++ List.replicate 16 0 ++ toBytes 0xAB 8 ++ List.replicate 8 0 ++ toBytes 15 8
def aTensor (q : Nat) (dir : Bool) : Copy :=
  { launch := 0, gid := 2, dst := 0xA000, src := 0xA000, len := 16, done := 0, stamp := 0, holds := [], flag := none,
    tensor := some (tensorRow q, dir, [-1, 0, 0, 0, 0]) }

/-- Its units: the first byte is outside the array, the second is element 0. -/
theorem test_tensor_units : (aTensor 0 false).nextUnit.bytes.take 2 = [(.value 0, true), (.from_ 0x9000, true)] ∧
    (aTensor 0x400000 false).nextUnit.bytes.take 2 = [(.from_ 0x9000, true), (.from_ 0x9000, true)] ∧
    (aTensor 0x800000 false).nextUnit.bytes.take 2 = [(.value 0xAB, true), (.from_ 0x9000, true)] ∧
    (aTensor 0 true).nextUnit.dst = 0x8FFF ∧ (aTensor 0 true).nextUnit.bytes.map (·.2) = [false] := by decide

theorem witness_CopyUnitsDelivered_tensor : (∀ q ∈ [0, 0x400000, 0x800000], (shapeOf (tensorRow q)).bad = false ∧ (shapeOf (tensorRow q)).dense = 16) ∧
    (0 : Nat) % (shapeOf (tensorRow 0)).pitch < (shapeOf (tensorRow 0)).row ∧
    (∀ i < 16, denseOffset (shapeOf (tensorRow 0)) (fun j => if j = 0 then i else 0) + 0 = 0 + i) ∧
    (∀ j < 5, (if j = 0 then 15 else 0) ≤ axis (shapeOf (tensorRow 0)).pat j) ∧
    insideArray (shapeOf (tensorRow 0)) (fun j => if j = 0 then 14 else 0) ∧ ¬ insideArray (shapeOf (tensorRow 0)) (fun j => if j = 0 then -1 else 0) ∧
    (0 : Nat) < (shapeOf (tensorRow 0)).esize := by
  unfold insideArray; decide

/-- The copy is taken; and one whose array runs past its extent. -/
theorem witness_CopyUnitsDelivered_tensor_taken :
    (let x := aTensor 0 false
     let s := copying x
     Canonical s ∧ taking s x = true ∧
      (∀ i a w, x.nextUnit.bytes[i]? = some (.from_ a, w) → x.outOfBase a = false ∧ s.reach 0 0 a false = .at_ (.dram 0 (0x9000 + (i - 1))) ∧
        s.homeHas 0 (.dram 0 (0x9000 + (i - 1))) = true) ∧
      ∀ i v, x.nextUnit.bytes[i]? = some (v, true) → s.reach 0 0 (x.nextUnit.dst + i) true = .at_ (.dram 0 (0xA000 + i)) ∧
        s.homeOwns 0 (.dram 0 (0xA000 + i)) = true) ∧
    (let r := toBytes (2 ^ 48 - 16) 8 ++ toBytes 63 8 ++ toBytes 0x100010000 8 ++ List.replicate 32 0 ++ toBytes 15 8
     let x := { aTensor 0 false with tensor := some (r, false, [16, 0, 0, 0, 0]) }
     (2 : Nat) ^ 48 / 2 ^ 48 ≠ (shapeOf r).base / 2 ^ 48 ∧ ∃ w, x.nextUnit.bytes[0]? = some (.from_ (2 ^ 48), w)) := by
  have h : ∀ i < 16, (match (aTensor 0 false).nextUnit.bytes[i]? with
      | some (UnitByte.from_ a, _) => decide ((aTensor 0 false).outOfBase a = false ∧
          (copying (aTensor 0 false)).reach 0 0 a false = .at_ (.dram 0 (0x9000 + (i - 1))) ∧
          (copying (aTensor 0 false)).homeHas 0 (.dram 0 (0x9000 + (i - 1))) = true)
      | _ => true) = true := by decide
  have h' : ∀ i < 16, (copying (aTensor 0 false)).reach 0 0 ((aTensor 0 false).nextUnit.dst + i) true = .at_ (.dram 0 (0xA000 + i)) ∧
      (copying (aTensor 0 false)).homeOwns 0 (.dram 0 (0xA000 + i)) = true := by decide
  have n : (aTensor 0 false).nextUnit.bytes.length = 16 := by decide
  have lt {i : Nat} {v : UnitByte × Bool} (e : (aTensor 0 false).nextUnit.bytes[i]? = some v) : i < 16 := by
    exact n ▸ (List.getElem?_eq_some_iff.mp e).1
  refine ⟨⟨⟨by decide, by decide, by decide⟩, by decide, fun i a w e => ?_, fun i v e => h' i (lt e)⟩, by decide, ⟨_, rfl⟩⟩
  have := h i (lt e)
  rw [e] at this
  exact of_decide_eq_true this

/-- A group parked until the channel has room, with room, and with none. -/
theorem witness_CopyUnitsDelivered_parked :
    (let s := channeled Channel.reset (at_ (waiting (.room 0 (aCopying 0x8000 0 none)) theGroup))
     (s.channelAt 0).queue.length < 64 ∧ s.parkedOn 0 ≠ []) ∧ (channeled Channel.reset (at_ theGroup)).parkedOn 0 = [] :=
  ⟨⟨by decide, by decide⟩, by decide⟩

/-- A source that no leaf maps, and one that an ill-formed entry maps. -/
theorem witness_CopyUnitsDelivered_troubles :
    (∃ a d, firstTrouble ((copying (aCopying 0x40000000 0 none)).unitReach 0 0 (aCopying 0x40000000 0 none) (aCopying 0x40000000 0 none).nextUnit) =
      some (a, .stall d)) ∧
    (∃ a b, firstTrouble ((inDram 0x2008 [0xFF, 0xFF, 0xFF, 0xFF, 0xFF, 0xFF, 0xFF, 0xFF] (copying (aCopying 0x40000000 0 none))).unitReach 0 0
      (aCopying 0x40000000 0 none) (aCopying 0x40000000 0 none).nextUnit) = some (a, .broken b)) := ⟨⟨_, _, rfl⟩, ⟨_, _, rfl⟩⟩

theorem witness_CopyUnitsDelivered_flag :
    (let x := aCopying 0x8000 64 (some 0xA000)
     let s := copying x
     x.done = x.len ∧ x.flag = some 0xA000 ∧ taking s x = true ∧ s.reach 0 0 0xA000 true = .at_ (.dram 0 0xA000) ∧
      s.blocked 0 (.dram 0 0xA000) = false ∧ s.homeOwns 0 (.dram 0 0xA000) = true) :=
  ⟨rfl, rfl, by decide, by decide, by decide, by decide⟩

/-- A link that is up, with flits of the glade waiting, and a window over the glade's memory. -/
def aLink : Link := { Link.reset with up := true, replays := 16, flits := [(0, 2)], lastBest := [(0, 0)] }

def linked : State :=
  { start with
    links := [(3, aLink)],
    glades := [(0, { Glade.initial 1 0 0 with ports := 1, links := [(6, 1)], exports := [(3, { lbase := 0x100000, pbase := 0x8000, size := 0x1000 })] })] }

theorem witness_LinkEvents : linked.boot.powered = true ∧ (3 : Nat) < 12 ∧ (linked.linkAt 3).up = true ∧ 16 ≤ (linked.linkAt 3).replays ∧
    linked.boundOver 3 = [] ∧ (∃ e ∈ linked.glades, 0 < (linked.linkAt 3).waiting 0 e.1) ∧
    (∀ e ∈ linked.glades, (linked.linkAt 3).waiting 1 e.1 = 0) ∧ (((linked.gladeAt 0).links.at? 6).getD 0).getLsbD 0 = true ∧
    linked.isReady = true ∧ linked.exported 3 0 4 = none ∧ linked.exported 3 0x100FFC 4 = some (0, 0x8FFC) ∧
    linked.exported 3 0x100FFD 4 = none ∧ (0x8FFC : Nat) % 128 + 4 ≤ 128 ∧ linked.homeOwns noTag (linked.dramPlace 0 0x8FFC) = true ∧ Canonical linked ∧
    linked.dramPlace 0 0x8FFC = .dram 0 0x8FFC ∧ linked.homeHas noTag (.dram 0 0x8FFC) = true ∧
    ({ linked with lines := [(0x11F, { (default : Line) with present := 1 })] } : State).homeOwns noTag (.dram 0 0x8FFC) = false :=
  ⟨by decide, by decide, by decide, by decide, by decide, ⟨_, List.mem_singleton.mpr rfl, by decide⟩, by decide, by decide, by decide, by decide,
    by decide, by decide, by decide, by decide, ⟨by decide, by decide, by decide⟩, by decide, by decide, by decide⟩

/-! Launches -/

/-- Slot 31 of the launch window holds a record and waits. -/
def submitting (r : List Byte) : State :=
  inContext (fun x => { x with cfg := { x.cfg with cpairs := 1 }, window := Memory.writeN [] (128 * 31) r, submits := [31] }) start

def graphRecord : List Byte := goodRecord.set 0x13 0x10

theorem witness_LaunchEvents_submit :
    (∀ r ∈ [goodRecord, badRecord, graphRecord], ((submitting r).pageAt 0 0).bound = some 0 ∧ ((submitting r).contextAt 0).submits = [31]) ∧
    (31 : Nat) < 32 ∧ (submitting goodRecord).submitter 0 0 31 = some 0 ∧
    (let s := { inContext (fun x => { x with guardians := [], writer := some (0, 0) }) (submitting goodRecord) with pages := [] }
     (s.pageAt 0 0).bound = none ∧ (s.contextAt 0).writer = some (0, 0) ∧ s.submitter 0 0 31 = some 0) ∧
    (submitting goodRecord).recordStatus 0 (((submitting goodRecord).contextAt 0).window.readN (128 * 31) 128) = 1 ∧
    (recordFrom (((submitting goodRecord).contextAt 0).window.readN (128 * 31) 128)).kind = 0 ∧
    (submitting badRecord).recordStatus 0 (((submitting badRecord).contextAt 0).window.readN (128 * 31) 128) ≠ 1 ∧
    (submitting graphRecord).recordStatus 0 (((submitting graphRecord).contextAt 0).window.readN (128 * 31) 128) = 1 ∧
    (recordFrom (((submitting graphRecord).contextAt 0).window.readN (128 * 31) 128)).kind = 1 := by
  refine ⟨?_, by decide, by decide, ⟨by decide, by decide, by decide⟩, by decide, by decide, by decide, by decide, by decide⟩
  have h : ∀ r ∈ [goodRecord, badRecord, graphRecord], ((submitting r).pageAt 0 0).bound = some 0 ∧ ((submitting r).contextAt 0).submits = [31] := by decide
  exact h

/-- A launch accepted and not yet placed, and its context with cores. -/
def queued : State :=
  inContext (fun x => { x with cfg := { x.cfg with cpairs := 1 }, queues := [(0, [0])] })
    { start with agenda := [], launches := [(0, loaderRecord.launch 0 1 0 none)], groves := [], groups := [] }

theorem witness_LaunchEvents_placement : queued.mayPlace 0 = true ∧ queued.firstUnit 0 = some (0, 0) ∧ queued.takeTurn 0 = some queued ∧
    (queued.placings (queued.needs 0 (queued.launchAt 0).rcd) (queued.launchAt 0).rcd (queued.allotment 0) (queued.launchAt 0).rcd.unitCount
      (queued.launchAt 0).next (queued.usage 0)).isSome = true := ⟨by decide, by decide, by decide, by decide⟩

/-- A launch whose grove has exited, with a flag to write; and another of the context. -/
def exited : State :=
  { start with
    launches := [(0, { loaderLaunch 2 with alive := 0, rcd := { loaderRecord with done := 0x8000, doneval := 1 } }), (1, loaderLaunch 2)],
    groves := [], groups := [] }

theorem witness_LaunchEvents_completion : (exited.launchAt 0).complete = false ∧ (exited.launchAt 0).rcd.groves < (exited.launchAt 0).next ∧
    (exited.launchAt 0).alive = 0 ∧ exited.effectsLeft 0 (exited.launchAt 0) = false ∧ (exited.launchAt 0).rcd.done ≠ 0 ∧
    (exited.launchAt 0).withdrawn = false ∧ exited.flightOf 0 0x8000 = none ∧ (hostHolds exited).homeOwns 0 (.dram 0 0x8000) = false ∧
    exited.translateAt 0 0x8000 true true = .ok (.place (.dram 0 0x8000)) ∧
    exited.blocked 0 (.dram 0 0x8000) = false ∧ exited.homeOwns 0 (.dram 0 0x8000) = true ∧ (Place.dram 0 0x8000).isGlobal = true ∧
    exited.effectsLeft 0 { exited.launchAt 0 with rcd := loaderRecord } = false ∧
    (exited.contexts.at? 0).isSome = true ∧ exited.hasWork 0 = true ∧ (∃ e ∈ exited.launches, e.1 ≠ 0 ∧ e.2.ctx = 0 ∧ e.2.complete = false) :=
  ⟨by decide, by decide, by decide, by decide, by decide, by decide, by decide, by decide, by decide, by decide, by decide, by decide, by decide,
    by decide, by decide, ⟨(1, loaderLaunch 2), by decide, by decide⟩⟩

def theGraph : Graph :=
  { ctx := 0, rcd := { loaderRecord with kind := 1, entry := 0x8000 }, lid := 2, node := 0, counts := [], submitted := [], entry := none, snap := none,
    clk := 0, failed := false }

/-- A graph at its node 0, whose 16 bytes are given, with its records at 0x9000. -/
def walking (node : List Byte) : State :=
  inContext (fun x => { x with cfg := { x.cfg with cpairs := 1 } }) (inDram 0x8000 node { start with graphs := [(5, theGraph)] })

/-- A node of a type: its address, LIMIT, ALT, NEXT. -/
def aNode (type addr limit : Nat) : List Byte := toBytes addr 8 ++ toBytes (2 ^ 48 * limit + type) 8

theorem witness_GraphWalker : (walking []).graphs.at? 5 = some theGraph ∧ ((walking []).contextAt 0).cfg.root ≠ 0 ∧
    ((walking []).contextAt 0).state ≠ .suspended ∧ theGraph.failed = false ∧ (walking []).graphIdle theGraph = true ∧
    (nodeOf (aNode 0 0 0)).bad (theGraph.rcd.groves + 1) = false ∧ theGraph.rcd.done = 0 ∧
    (nodeOf (aNode 0 4 0)).bad (theGraph.rcd.groves + 1) = true ∧ theGraph.entry = none ∧ theGraph.snap = none :=
  ⟨by decide, by decide, by decide, by decide, by decide, by decide, by decide, by decide, by decide, by decide⟩

/-- What a read of the walker comes to: bytes without poison; poison; a wait; a fault. -/
def gets (f : Fetched) (b : List Byte) : Bool :=
  match f with
  | .got r none _ => decide (r = b)
  | .got _ (some _) _ | .waits _ | .fault _ _ _ => false
def getsPoison (f : Fetched) : Bool :=
  match f with
  | .got _ (some _) _ => true
  | .got _ none _ | .waits _ | .fault _ _ _ => false
def getsNothing (f : Fetched) : Bool :=
  match f with
  | .waits _ => true
  | .got _ _ _ | .fault _ _ _ => false

/-- A flag to write, a launch that still runs, and a node whose entry cannot be translated. -/
theorem witness_GraphWalker_others :
    (walking []).translateAt 0 0xA000 true true = .ok (.place (.dram 0 0xA000)) ∧ (walking []).blocked 0 (.dram 0 0xA000) = false ∧
    (walking []).homeOwns 0 (.dram 0 0xA000) = true ∧
    ({ walking [] with launches := [(7, loaderLaunch 2)] } : State).graphIdle { theGraph with submitted := [7] } = false ∧
    (walking []).flightOf 5 0xA000 = none ∧ (∃ a c d, (walking []).fetchFor 0 5 0x40000000 16 = .fault a c d) ∧
    getsNothing ((hostHolds (walking [])).fetchFor 0 5 0x8000 16) = true ∧ getsPoison ((poisonedAt (walking [])).fetchFor 0 5 0x8000 16) = true ∧
    (∀ n ∈ [4, 128], getsNothing (((hostHolds (walking [])).land 5).fetchFor 0 5 0x8000 n) = true) :=
  ⟨by decide, by decide, by decide, by decide, by decide, ⟨_, _, _, rfl⟩, by decide, by decide, by decide⟩

theorem witness_GraphWalker_end : gets ((walking (aNode 0 0 0)).fetchFor 0 5 0x8000 16) (aNode 0 0 0) = true := by decide +kernel
theorem witness_GraphWalker_bad : gets ((walking (aNode 0 4 0)).fetchFor 0 5 0x8000 16) (aNode 0 4 0) = true := by decide +kernel
theorem witness_GraphWalker_launch : gets ((walking (aNode 1 0x9000 0)).fetchFor 0 5 0x8000 16) (aNode 1 0x9000 0) = true := by decide +kernel
theorem witness_GraphWalker_record : gets (((walking (aNode 1 0x9000 0)).land 5).fetchFor 0 5 0x9000 128) goodRecord = true ∧
    gets ((inDram 0x9000 badRecord ((walking (aNode 1 0x9000 0)).land 5)).fetchFor 0 5 0x9000 128) badRecord = true ∧ malformed badRecord = true :=
  ⟨by decide +kernel, by decide +kernel, by decide⟩
theorem witness_GraphWalker_conditional : gets ((walking (aNode 2 0x9000 0)).fetchFor 0 5 0x8000 16) (aNode 2 0x9000 0) = true ∧
    gets (((walking (aNode 2 0x9000 0)).land 5).fetchFor 0 5 0x9000 4) [0, 0, 0, 0] = true := ⟨by decide +kernel, by decide +kernel⟩
theorem witness_GraphWalker_while : gets ((walking (aNode 3 0x9000 1)).fetchFor 0 5 0x8000 16) (aNode 3 0x9000 1) = true ∧
    gets (((walking (aNode 3 0x9000 1)).land 5).fetchFor 0 5 0x9000 4) [0, 0, 0, 0] = true := ⟨by decide +kernel, by decide +kernel⟩

theorem witness_GraphWalker_nodes : (nodeOf (aNode 1 0x9000 0)).bad (theGraph.rcd.groves + 1) = false ∧ (nodeOf (aNode 1 0x9000 0)).addr = 0x9000 ∧
    malformed goodRecord = false ∧ (walking (aNode 1 0x9000 0)).unplaceable 0 (recordFrom goodRecord) = false ∧ (recordFrom goodRecord).kind = 0 ∧
    (((walking (aNode 1 0x9000 0)).contextAt 0).queue theGraph.rcd.queue).length < 64 ∧
    (nodeOf (aNode 2 0x9000 0)).bad (theGraph.rcd.groves + 1) = false ∧ (nodeOf (aNode 3 0x9000 1)).bad (theGraph.rcd.groves + 1) = false ∧
    (nodeOf (aNode 3 0x9000 1)).limit ≠ 0 := ⟨by decide, by decide, by decide, by decide, by decide, by decide, by decide, by decide, by decide⟩

theorem witness_GraphWalker_failed : ({ theGraph with failed := true } : Graph).failed = true ∧
    (walking []).graphIdle { theGraph with failed := true } = true := ⟨rfl, by decide⟩

/-! Scheduling -/

/-- A context whose turn is over, and another that was evicted, with a launch that is not complete. -/
def twoContexts (l : Table Launch) : State :=
  { start with contexts := [(0, loaderContext 0), (1, { loaderContext 0 with evicted := true })], launches := l,
               glades := [(0, { Glade.initial 1 0 0 with ports := 1, turn := some 0 })], time := 10000000 }

def another : Table Launch := [(5, { loaderLaunch 2 with ctx := 1 })]

/-- A context with a core pair of its own, not that of its grove. -/
def allotted : State := inContext (fun x => { x with cfg := { x.cfg with cpairs := 2 } }) start

theorem witness_SchedulingEvents_slice :
    (twoContexts another).glades.at? 0 = some { Glade.initial 1 0 0 with ports := 1, turn := some 0 } ∧ ((twoContexts another).contextAt 0).evicted = false ∧
    ((twoContexts another).contextAt 0).evicting = false ∧ 0 + 10 * 1000000 ≤ (twoContexts another).time ∧ 1 ∈ (twoContexts another).contextsOf 0 ∧
    (twoContexts another).timeSliced 1 = true ∧ (twoContexts another).hasLaunch 1 = true ∧ (twoContexts []).hasLaunch 1 = false ∧
    (twoContexts []).contextsOf 0 = [0, 1] ∧ (twoContexts another).timeSliced 0 = true ∧ allotted.timeSliced 0 = false :=
  ⟨by decide, by decide, by decide, by decide, by decide, by decide, by decide, by decide, by decide, by decide, by decide⟩

def evictingState : State := inContext (fun x => { x with evicting := true }) start

theorem witness_SchedulingEvents_preemption : (evictingState.contextAt 0).evicting = true ∧ (at_ theGroup).groupAt 2 = some theGroup ∧
    theGroup.role = .kernel ∧ theGroup.wait ≠ .discarded ∧ theGroup.wait ≠ .stopped ∧ theGroup.mode = .user ∧ theGroup.rstate ≠ 2 ∧
    ({ theGroup with mode := .steward } : Group).mode = .steward ∧ theGroup.evictSince = none ∧ (waiting (.svc 3) theGroup).wait = .svc 3 :=
  ⟨by decide, rfl, by decide, by decide, by decide, by decide, by decide, rfl, by decide, rfl⟩

theorem witness_SchedulingEvents_restart :
    (let g := waiting .discarded theGroup
     (at_ g).groupAt 2 = some g ∧ (at_ g).storesLeft 2 = false ∧ ((at_ g).contextAt g.ctx).evicted = false ∧ ((at_ g).contextAt g.ctx).evicting = false ∧
      ((at_ g).contextAt g.ctx).state ≠ .suspended ∧ ((at_ g).groveAt g.grove).placed = true ∧ g.based = false ∧ (at_ g).locals = [] ∧
      (at_ g).slotWrites = [] ∧ (at_ g).writesWhere 0 (at_ g).notKernel = false ∧ (at_ g).flights = []) :=
  ⟨rfl, by decide, by decide, by decide, by decide, by decide, by decide, by decide, by decide, by decide, rfl⟩

/-- A discarded group with a slot, which lists one register; its stores are performed or one is not. -/
def returner : Group := { waiting .discarded theGroup with based := true }
def slotRead (off n : Nat) : List (Place × Nat × Nat) := value ((slotted returner).placesOf 0 (0x10000 + off) n false)

theorem witness_SchedulingEvents_slot : (slotted returner).groupAt 2 = some returner ∧ (slotted returner).slotOf returner = 0x10000 ∧
    (slotted returner).storesLeft 2 = false ∧ ({ slotted returner with entries := [anEntry] } : State).storesLeft 2 = true ∧
    returner.based = true ∧ returner.width = 32 ∧ (slotted returner).placesOf 0 0x10000 0x400 false = .ok (slotRead 0 0x400) ∧
    (slotted returner).placesReady 0 (slotRead 0 0x400) false = true ∧ (slotted returner).placesOf 0 0x10400 128 false = .ok (slotRead 0x400 128) ∧
    (slotted returner).placesReady 0 (slotRead 0x400 128) false = true :=
  ⟨rfl, by decide, by decide, by decide, rfl, by decide, ok_value (by decide), by decide, ok_value (by decide), by decide⟩

theorem witness_SchedulingEvents_slot_fields : (let h := ((slotted returner).readPlaces 0 (slotRead 0 0x400)).1
    fieldOf h 0x23 1 = 0 ∧ fieldOf h 0x24 1 = 0) ∧
    ((slotted returner).readPlaces 0 (slotRead 0 0x400)).2 = none ∧ ((slotted returner).readPlaces 0 (slotRead 0x400 128)).2 = none ∧
    (({ slotted returner with poison := [(0x800, 1)] } : State).readPlaces 0 (slotRead 0 0x400)).2 = some 3 ∧ (slotted returner).flights = [] :=
  ⟨⟨by decide +kernel, by decide +kernel⟩, by decide +kernel, by decide +kernel, by decide +kernel, rfl⟩

def late (g : Group) : State := { at_ g with cores := [(0, { Core.reset with phase := 2 ^ 20 * 800 * 40 })] }

theorem witness_SchedulingEvents_watchdog :
    (let g := { theGroup with evictSince := some 0, rstate := 2 }
     (late g).groupAt 2 = some g ∧ 0 + 2 ^ 20 ≤ ((late g).coreAt g.core).clock ∧ g.mode = .user ∧ g.heldTrap = none) ∧
    (let g := { theGroup with evictSince := some 0, mode := .steward }
     (late g).groupAt 2 = some g ∧ 0 + 2 ^ 20 ≤ ((late g).coreAt g.core).clock ∧ g.wait ≠ .stopped ∧ g.entered ≤ 0) :=
  ⟨⟨rfl, by decide, by decide, by decide⟩, rfl, by decide, by decide, by decide⟩

theorem witness_SchedulingEvents_eviction :
    (let s := { evictingState with groups := [(2, waiting .discarded theGroup)] }
     (s.contextAt 0).evicting = true ∧ s.serving 0 = false ∧ s.allDiscarded 0 = true ∧ s.writesLeft 0 = false ∧ s.grovesOf 0 ≠ [] ∧
      ({ s with entries := [anEntry] } : State).writesLeft 0 = true) :=
  ⟨by decide, by decide, by decide, by decide, by decide, by decide⟩

/-- An evicted context whose restore has been asked for. -/
def restoringState : State := inContext (fun x => { x with evicted := true, restoring := true }) { start with groves := [], groups := [] }

theorem regroved_of_none {s : State} (h : s.groves = []) (ctx : Nat) : s.regroved ctx = [] := by simp [State.regroved, h]

theorem witness_SchedulingEvents_restore : (restoringState.contextAt 0).evicted = true ∧ (restoringState.contextAt 0).evicting = false ∧
    restoringState.serving 0 = false ∧ restoringState.writesLeft 0 = false ∧ (∃ t, restoringState.restoreTurn 0 = some t ∧ ∃ l, t.respots 0 (t.regroved 0) (0, 0, []) (t.usage 0) = some l) :=
  ⟨by decide, by decide, by decide, by decide, _, rfl, [], by rw [regroved_of_none rfl]; rfl⟩

theorem witness_SchedulingEvents_rebase : (let s := at_ { theGroup with clk := 2 ^ 47 }
    2 ^ 47 ≤ s.highWater ∧ s.inFlight = false ∧ s.groupAt 2 = some { theGroup with clk := 2 ^ 47 }) := ⟨by decide, by decide, rfl⟩

/-- A redundant grove: copies 1 and 3, groups 2 and 4, each at a compare after `n` records. -/
def pair (sig : BitVec 64) : State :=
  let g := { theGroup with wait := .compare, sigCount := 1, sig := 7, sigLog := [(1, 7)] }
  { at_ g with
    launches := [(0, { loaderLaunch 2 with rcd := { loaderRecord with redund := true } })],
    groves := [(1, loaderGrove 0), (3, { loaderGrove 0 with copy := 1 })],
    groups := [(2, g), (4, { g with grove := 3, sig := sig, sigLog := [(1, sig)] })] }

theorem witness_SchedulingEvents_compare : (∀ sig ∈ [(7 : BitVec 64), 8], ∃ g, (pair sig).groupAt 2 = some g ∧ (pair sig).redundant g = true ∧ g.wait = .compare) ∧
    (∃ g, (pair 7).groupAt 2 = some g ∧ (pair 7).compareWith g = some true) ∧ ∃ g, (pair 8).groupAt 2 = some g ∧ (pair 8).compareWith g = some false := by
  refine ⟨?_, ⟨_, rfl, by decide⟩, ⟨_, rfl, by decide⟩⟩
  intro sig h
  simp only [List.mem_cons, List.not_mem_nil, or_false] at h
  rcases h with rfl | rfl <;> exact ⟨_, rfl, by decide, by decide⟩

/-! Hosts: VF 0 is port 0's, its page 0 guards context 0, its page 1 is unbound -/

theorem witness_HostMemoryAccesses_off : State.reset.isReady = false := by decide

theorem witness_HostMemoryAccesses : start.vfPort 0 = some 0 ∧ start.isReady = true ∧ start.hdmContext 0 0 0x807C 4 = .ok 0 ∧ (0x807C : Nat) % 128 + 4 ≤ 128 ∧
    Canonical start ∧ start.isPoisoned (start.dramPlace 0 0x807C).line 128 = false ∧
    ({ start with poison := [(0x400, 1)] } : State).isPoisoned (start.dramPlace 0 0x807C).line 128 = true ∧
    start.hdmContext 0 1 0x8000 4 = .error none ∧ start.hdmContext 0 0 (48 * 2 ^ 30 - 3) 4 = .error (some 0) ∧
    (start.pageAt 0 1).bound = none ∧ (start.pageAt 0 0).bound = some 0 ∧ (start.gladeAt (start.contextAt 0).glade).len * (48 * 2 ^ 30) < 48 * 2 ^ 30 - 3 + 4 :=
  ⟨by decide, by decide, by decide, by decide, ⟨by decide, by decide, by decide⟩, by decide, by decide, by decide, by decide, by decide, by decide, by decide⟩

def aLine (present : BitVec 4) : Line := { w := 3, l := 5, present := present, owned := false, dirty := false, shared := 0, backing := [], backBad := 0 }

theorem witness_HostMemoryAccesses_answers :
    (let s := { start with lines := [(0x100, aLine 8)] }
     s.lines.at? 0x100 = some (aLine 8) ∧ (aLine 8).present.getLsbD 3 = true) ∧
    start.prefetches = [] ∧ start.asks = [] ∧
    ({ ctx := noTag, port := 3, line := deviceLine 0x100, own := true } : Ask) ∈ ({ start with asks := [{ ctx := noTag, port := 3, line := deviceLine 0x100, own := true }] } : State).asks ∧
    (List.replicate 128 (0 : Byte)).length = 128 ∧ start.trackedAt 0 0x8000 = [] ∧
    ({ start with lines := [(2 ^ 64 + 0x100, aLine 0)] } : State).trackedAt 0 0x8000 = [.host 0 0 0x8000] ∧ start.gladeOfSlice 0 = some 0 :=
  ⟨⟨by decide, by decide⟩, rfl, rfl, by decide, List.length_replicate, by decide, by decide, by decide⟩

/-- A home's request for a line of host 0's memory, for context 0; and a line that a home's L3 holds. -/
theorem witness_HostMemoryAccesses_asked :
    (let a : Ask := { ctx := 0, port := 0, line := .host 0 0 0x8000, own := true }
     ({ start with asks := [a] } : State).asks.find? (fun b => decide (b.port = 0) && decide (b.line = .host 0 0 0x8000) && decide (b.own = true)) = some a) ∧
    (let s := start.holdLine 0 (.dram 0 0x8000)
     s.onChip (.dram 0 0x8000) = true ∧ start.onChip (.dram 0 0x8000) = false) := by decide

/-- Context 1 has tables, and holds what they map; VF 0 does not guard it, and context 0 holds nothing. -/
theorem witness_HostMemoryAccesses_of_another :
    (let s := { start with contexts := [(0, { loaderContext 0 with cfg := Settings.initial }), (1, loaderContext 0)] }
     1 ∈ s.contextsOf 0 ∧ 1 ∉ s.boundTo 0 ∧ s.holdsMemory 1 0x8000 4 = true ∧ ∀ o ∈ s.boundTo 0, s.holdsMemory o 0x8000 4 = false) :=
  ⟨by decide, by decide, by decide +kernel, by decide⟩

theorem calls_start (page : Nat) (h : page < 4) : Calls start 0 page 0 := ⟨by decide, h, by decide, by decide⟩

def theGuardian : Guardian := { port := 0, vf := 0, page := 0, identity := 0, last := 0 }

/-- The context, changed, under its guardian's page. -/
theorem primary_of (f : Context → Context) (h : (f (loaderContext 0)).guardians.head? = some theGuardian)
    (k : (inContext f start).caller 0 0 = some (0, theGuardian)) : Primary (inContext f start) 0 0 0 0 (f (loaderContext 0)) theGuardian :=
  ⟨⟨⟨rfl, by decide, rfl, (by decide : (start.vfAt 0).tdisp ≠ .error)⟩, k, rfl⟩, h⟩

/-- A host fills the settings block with the defaults of R338. -/
def someSettings : List Byte :=
  List.replicate 0x26 0 ++ toBytes 250 2 ++ toBytes 600 4 ++ List.replicate 212 0

def withPage (f : CtxPage → CtxPage) (s : State) : State := s.setPage 0 0 (f (s.pageAt 0 0))

theorem witness_ContextCommands_bind : Calls start 0 1 0 ∧ (start.pageAt 0 1).bound = none ∧ start.gladeNamed 0 = some 0 ∧
    (start.gladeAt 0).ports.getLsbD 0 = true ∧ (start.vfAt 0).tdisp = .unlocked ∧ start.freeContext = some 1 ∧ start.caller 0 1 = none :=
  ⟨calls_start 1 (by decide), by decide, by decide, by decide, by decide, by decide, by decide⟩

theorem witness_ContextCommands_primary : Primary start 0 0 0 0 (loaderContext 0) theGuardian := ⟨⟨calls_start 0 (by decide), by decide, by decide⟩, by decide⟩

def pageWith (b : List Byte) : State := withPage (fun p => { p with settings := Memory.writeN [] 0 b }) start

theorem witness_ContextCommands_set :
    (Primary (pageWith someSettings) 0 0 0 0 (loaderContext 0) theGuardian) ∧
    (∃ c ckpt tvec sev, (pageWith someSettings).parseSettings 0 (((pageWith someSettings).pageAt 0 0).settings.readN 0 256) = some (c, ckpt, tvec, sev) ∧
      (pageWith someSettings).settingsClash 0 0 c = false) ∧
    (pageWith []).parseSettings 0 (((pageWith []).pageAt 0 0).settings.readN 0 256) = none :=
  ⟨⟨⟨⟨by decide, by decide, by decide, by decide⟩, by decide, by decide⟩, by decide⟩, ⟨_, _, _, _, rfl, by decide⟩, by decide⟩

/-- SET gives core pair 1, and lifts the severance of port 0; the grove of the context, on core 0, is moved.  One that is evicted, one being
evicted, and one that runs. -/
theorem witness_ContextCommands_set_moves :
    (∃ c ckpt tvec sev, start.parseSettings 0 ((someSettings.set 0x30 2).set 0x7C 1) = some (c, ckpt, tvec, sev) ∧ c.cpairs ≠ (loaderContext 0).cfg.cpairs ∧
      Nat.testBit sev 0 = true) ∧ aCut.line.atPort 0 = true ∧ allotted.strays 0 = true ∧ start.strays 0 = false ∧
    (restoringState.contextAt 0).evicted = true ∧ (evictingState.contextAt 0).evicting = true ∧ (evictingState.contextAt 0).evicted = false ∧
    (start.contextAt 0).evicting = false ∧ (start.contextAt 0).restoring = false :=
  ⟨⟨_, _, _, _, rfl, by decide, by decide⟩, by decide, by decide, by decide, by decide, by decide, by decide, by decide, by decide⟩

/-- ARG0 of ASSIGNCH for local channel 5, engine 0, channel 1. -/
theorem witness_ContextCommands_assignch :
    (let s := { start with glades := [(0, { Glade.initial 1 0 0 with ports := 1, engines := 1 })] }
     Primary s 0 0 0 0 (loaderContext 0) theGuardian ∧ (0x10005 : Nat) < 2 ^ 20 ∧ bitsOf 0x10005 15 13 = 0 ∧
      (s.gladeAt 0).engines.getLsbD (bitsOf 0x10005 12 8) = true ∧ (s.channelAt (16 * bitsOf 0x10005 12 8 + bitsOf 0x10005 19 16)).owner = none ∧
      s.channelOf 0 (bitsOf 0x10005 7 0) = none) ∧
    (∀ f ∈ [true, false], (channeled { Channel.reset with fault := f } start).channelOf 0 0 = some 0 ∧
      ((channeled { Channel.reset with fault := f } start).channelAt 0).queue = []) ∧
    ((copying (aCopying 0x8000 0 none)).channelAt 0).queue ≠ [] :=
  ⟨⟨⟨⟨⟨by decide, by decide, by decide, by decide⟩, by decide, by decide⟩, by decide⟩, by decide, by decide, by decide, by decide, by decide⟩, by decide,
    by decide⟩

theorem witness_ContextCommands_registers : Guards start 0 0 0 0 (loaderContext 0) theGuardian ∧ (start.vfAt 0).tdisp ≠ .run ∧
    (start.pageAt 0 0).waiting = [] ∧ 0 < (toBytes (5 * 2 ^ 32 + 0x10D) 8).length ∧ 0 + 256 ≤ 256 :=
  ⟨⟨calls_start 0 (by decide), by decide, by decide⟩, by decide, by decide, by decide, by decide⟩

/-- Page 0 of VF 0 holds a co-guardian's role. -/
def second : Context → Context := fun x => { x with state := .shared, guardians := [{ theGuardian with port := 1, vf := 64 }, theGuardian] }

theorem witness_ContextCommands_second : Guards (inContext second start) 0 0 0 0 (second (loaderContext 0)) theGuardian ∧
    (second (loaderContext 0)).guardians.head? ≠ some theGuardian ∧ (0 : BitVec 32).toNat % 4 = theGuardian.port ∧ (1 : BitVec 32).toNat % 4 ≠ theGuardian.port ∧
    ((second (loaderContext 0)).guardians.drop 1).find? (fun h => decide (h.port = theGuardian.port)) = some theGuardian :=
  ⟨⟨⟨rfl, by decide, rfl, (by decide : (start.vfAt 0).tdisp ≠ .error)⟩, by decide, rfl⟩, by decide, by decide, by decide, by decide⟩

/-- A queue of 256 notices whose first is of type 3, and one of 256 of type 4. -/
def queue (first : Nat) : List Notice := { (default : Notice) with type := first, queued := true } ::
  List.replicate 255 { (default : Notice) with type := 4, queued := true }

theorem witness_ContextCommands_notices : (∀ t ∈ [3, 4], 256 ≤ ((queue t).filter (·.queued)).length) ∧
    queue 3 = [] ++ { (default : Notice) with type := 3, queued := true } :: (queue 3).drop 1 ∧ (∀ y ∈ queue 4, ¬ (y.queued = true ∧ y.type = 3)) ∧
    CtxPage.reset.waiting = [] ∧ (CtxPage.reset.nhead - CtxPage.reset.ntail).toNat < 16 ∧
    16 ≤ (({ CtxPage.reset with nhead := 16 } : CtxPage).nhead - CtxPage.reset.ntail).toNat := by
  refine ⟨by decide, rfl, ?_, rfl, by decide, by decide⟩
  intro y h
  simp only [queue, List.mem_cons, List.mem_replicate] at h
  rcases h with rfl | ⟨_, rfl⟩ <;> simp

/-- Page 1 of VF 0 comes to a context that port 1 guards; and to one that is orphaned. -/
def joinable : State := inContext (fun x => { x with guardians := [{ theGuardian with port := 1, vf := 64 }] }) start
def adoptable : State := inContext (fun x => { x with guardians := [], state := .orphaned, lostAt := some 0 }) start

theorem witness_GuardianRoles_join : Calls joinable 0 1 0 ∧ (joinable.pageAt 0 1).bound = none ∧
    (joinable.gladeAt (joinable.contextAt 0).glade).ports.getLsbD 0 = true ∧ (joinable.contextAt 0).state = .guarded ∧
    (∀ g ∈ (joinable.contextAt 0).guardians, g.port ≠ 0) ∧ Calls adoptable 0 1 0 ∧ (adoptable.contextAt 0).adoptFrom ≤ adoptable.time ∧
    (adoptable.contextAt 0).guardians = [] ∧ (adoptable.contextAt 0).state = .orphaned ∧ (adoptable.contextAt 0).isProtected = false ∧
    start.time < (start.contextAt 0).adoptFrom :=
  ⟨⟨by decide, by decide, by decide, by decide⟩, by decide, by decide, by decide, by decide, ⟨by decide, by decide, by decide, by decide⟩, by decide,
    by decide, by decide, by decide, by decide⟩

def shared : Context → Context := fun x => { x with state := .shared, guardians := [theGuardian, { theGuardian with port := 1, vf := 64 }] }

theorem witness_GuardianRoles_primary : Primary (inContext shared start) 0 0 0 0 (shared (loaderContext 0)) theGuardian ∧
    (∃ h, ((shared (loaderContext 0)).guardians.drop 1).find? (fun h => decide (h.port = (1 : BitVec 32).toNat % 4)) = some h) ∧
    (let s := { start with glades := [(0, { Glade.initial 1 0 0 with ports := 3 })] }
     s.vfPort ((64 : BitVec 32).toNat % 256) = some 1 ∧ (s.pageAt 64 (bitsOf 64 9 8)).bound = none ∧ (s.gladeAt 0).ports.getLsbD 1 = true ∧
      (∀ h ∈ (loaderContext 0).guardians, h.port ≠ 1) ∧ (loaderContext 0).isProtected = false) ∧
    (∀ f ∈ [fun x : Context => { x with state := .suspended }, fun x => { x with evicted := true }], (f (loaderContext 0)).evicting = false ∧
      ∃ g, Primary (inContext f start) 0 0 0 0 (f (loaderContext 0)) g) := by
  refine ⟨primary_of _ (by decide) (by decide), ⟨_, rfl⟩, ⟨by decide, by decide, by decide, by decide, by decide⟩, ?_⟩
  intro f h
  simp only [List.mem_cons, List.not_mem_nil, or_false] at h
  rcases h with rfl | rfl <;> exact ⟨rfl, theGuardian, primary_of _ (by decide) (by decide)⟩

def aNotice (claimant : Option Nat) : Notice := { (default : Notice) with seq := 3, type := 2, gid := some 2, claimant := claimant }
def noticed (claimant : Option Nat) (x : Context) : Context := { x with nextNotice := 4, notices := [aNotice claimant] }

theorem witness_GuardianRoles_notices : (∀ c ∈ [none, some 0], (noticed c (loaderContext 0)).noticeNamed 3 = .is (aNotice c)) ∧
    Primary (inContext (noticed none) start) 0 0 0 0 (noticed none (loaderContext 0)) theGuardian ∧
    Primary (inContext (noticed (some 0)) start) 0 0 0 0 (noticed (some 0) (loaderContext 0)) theGuardian ∧ (aNotice none).channel = none ∧
    (loaderContext 0).state ≠ .shared ∧ (waiting (.svc 3) theGroup).wait = .svc (aNotice none).seq :=
  ⟨by decide, primary_of _ (by decide) (by decide), primary_of _ (by decide) (by decide), rfl, by decide, rfl⟩

/-- A notice that is answered, and one of a channel; a context of two guardians in which the other one claimed it. -/
theorem witness_GuardianRoles_answers :
    (noticed none { loaderContext 0 with notices := [] }).noticeNamed 4 = .never ∧ ({ noticed none (loaderContext 0) with notices := [] } : Context).noticeNamed 3 = .needsNone ∧
    (∀ n ∈ [{ aNotice (some 0) with answered := true }, { aNotice none with gid := none, channel := some 0 }],
      ({ noticed none (loaderContext 0) with notices := [n] } : Context).noticeNamed 3 = .is n) ∧
    Guards (inContext (fun x => noticed (some 1) (shared x)) start) 0 0 0 0 (noticed (some 1) (shared (loaderContext 0))) theGuardian :=
  ⟨by decide, by decide, by decide, (primary_of (fun x => noticed (some 1) (shared x)) (by decide) (by decide)).guards⟩

/-- A request that waited for what was in progress; and a last guardian, lost while a group is left. -/
theorem witness_GuardianRoles_orphan :
    (∀ e ∈ [(true, true), (false, false), (true, false)], ({ loaderContext 0 with asked := [e.1], evicted := e.2 } : Context).asked = e.1 :: [] ∧
      ({ loaderContext 0 with asked := [e.1], evicted := e.2 } : Context).evicting = false) ∧
    (loaderContext 0).guardians = [theGuardian] ∧ (loaderContext 0).state ≠ .suspended ∧ (loaderContext 0).notices.any Notice.pending = false ∧
    start.hasWork 0 = true ∧ start.contexts.at? 0 = some (loaderContext 0) := ⟨by decide, by decide, by decide, by decide, by decide, by decide⟩

theorem witness_GuardianRoles_loss :
    (let s := { start with time := 252000000 }
     s.contexts.at? 0 = some (loaderContext 0) ∧ (loaderContext 0).guardians.find? (fun g => decide (g.port = 0)) = some theGuardian ∧
      theGuardian.last + (loaderContext 0).cfg.leasems * 1000000 + 2000000 ≤ s.time ∧ (loaderContext 0).guardians.head? = some theGuardian) ∧
    (let s := { inContext (fun x => { x with state := .suspended, guardians := [], reapFrom := some 0 }) start with time := 600000000000 }
     (s.contextAt 0).state = .suspended ∧ (s.contextAt 0).guardians = [] ∧ (s.contextAt 0).reapFrom = some 0 ∧
      0 + (s.contextAt 0).cfg.reaps * 1000000000 ≤ s.time) := ⟨⟨by decide, by decide, by decide, by decide⟩, by decide, by decide, by decide, by decide⟩

/-! The package -/

def bare : State := { start with contexts := [], pages := [], groups := [], groves := [], launches := [] }

theorem witness_PackageEvents_glades : bare.isReady = true ∧ legalGlade 1 = true ∧ (∀ e ∈ bare.glades, 1 + lengthOf 0 ≤ e.1 ∨ e.1 + e.2.len ≤ 1) ∧
    legalGlade 0x0C = false ∧ bare.gladeNamed 0 = some 0 ∧ (bare.gladeAt 0).admin = 0 ∧ bare.contextsOf 0 = [] ∧ start.contextsOf 0 ≠ [] ∧
    start.gsetBad 0 (start.gladeAt 0) (gladeArgs ((start.portAt 0).args.readN 0 0x268)) = true ∧
    (let s := { bare with ports := [(0, { Port.reset with args := Memory.writeN [] 5 [48, 10] })] }
     s.gsetBad 0 (s.gladeAt 0) (gladeArgs ((s.portAt 0).args.readN 0 0x268)) = false) :=
  ⟨by decide, by decide, by decide, by decide, by decide, by decide, by decide, by decide, by decide, by decide⟩

/-- A start: the image is good or it is not. -/
theorem witness_PackageEvents_starts :
    (let s := { State.reset with boot := { State.reset.boot with state := .starting, cold := true } }
     s.boot.state = .starting ∧ s.boot.powered = true ∧ (s.imageGood = true ∨ s.imageGood = false)) ∧
    State.reset.boot.powered = true ∧ State.reset.boot.state = .off ∧ start.boot.state = .ready := by
  refine ⟨⟨rfl, rfl, ?_⟩, rfl, rfl, rfl⟩
  cases State.imageGood _ <;> simp

theorem witness_PackageEvents_others : start.translatedWork 1 = false ∧ start.gladeOfSlice 0 = some 0 ∧ 0 < sliceBytes ∧ start.isReady = true ∧
    (next (exec .powerOff start)).boot.powered = false ∧ (start.contexts.at? 0).isSome = true ∧ start.contexts.at? 1 = none ∧
    (start.glades.at? 0).isSome = true ∧ (List.replicate 256 ({ time := 0, addr := 0, ctx := 0, cls := 2, source := 6, act := 1, ovf := false, detail := 0 } : LogEntry)).length = 256 :=
  ⟨by decide, by decide, by decide, by decide, by decide, by decide, by decide, by decide, List.length_replicate⟩

/-- A package part of which is over its limit, since `t`; and all of it within its limits. -/
def throttled (overs : List Nat) (t : Option Nat) (now : Nat) : State :=
  { start with time := now, boot := { start.boot with overs := overs, lowered := 1, throttleAt := t } }

theorem witness_PackageEvents_throttle :
    (∀ e ∈ [(([] : List Nat), (none : Option Nat), 0), ([3], some 0, 5), ([3, 12], some 0, 100000)], (throttled e.1 e.2.1 e.2.2).isReady = true ∧
      (throttled e.1 e.2.1 e.2.2).boot.throttleAt = e.2.1) ∧
    [(3 : Nat)].filter (fun p => decide (p ≠ 3)) = [] ∧ (throttled [3] (some 0) 100000).due = none ∧ (1 : Nat) < 16 ∧ 0 + 100000 ≤ 100000 ∧
    (12 ∈ [(3 : Nat), 12]) ∧ 12 ∉ [(3 : Nat)] ∧
    (let s := { throttled [12] (some 0) 5 with boot := { start.boot with overs := [12], lowered := 8 } }
     ∀ k, k < 288 → (s.coreAt k).step ≤ 32 + s.boot.lowered) ∧
    (∃ k, k < 288 ∧ 32 + (throttled [12] (some 0) 5).boot.lowered < ((throttled [12] (some 0) 5).coreAt k).step) := by
  refine ⟨by decide, by decide, by decide, by decide, by decide, by decide, by decide, ?_, 0, by decide, by decide⟩
  decide

/-- Before a start has completed nothing is throttled. -/
theorem witness_PackageEvents_throttle_before : State.reset.boot.powered = true ∧ State.reset.isReady = false := by decide

/-- The module has been above its limit for 10 ms. -/
theorem witness_PackageEvents_hot :
    (let s := { start with time := 10000000, boot := { start.boot with hotAt := some 0, throttleAt := some 0 } }
     s.boot.hotAt = some 0 ∧ 0 + 10000000 ≤ s.time ∧ s.tickOf = none ∧ s.lossOf = none ∧ s.reapOf = none) ∧
    ((Memory.writeN [] 0 [5]).readN 0 1) = [5] := ⟨⟨by decide, by decide, by decide, by decide, by decide⟩, by decide⟩

theorem witness_SecurityEvents : start.isReady = true ∧ start.vfPort 1 = some 0 ∧ (∀ p, p < 4 → (start.pageAt 1 p).bound = none) ∧
    (∀ t ∈ [Tdisp.unlocked, .locked, .run, .error], (({ start with vfs := [(1, { tdisp := t, stream := 5 })] } : State).vfAt 1).tdisp = t) ∧
    ((({ start with vfs := [(1, { tdisp := .run, stream := 5 })] } : State).vfs.map (·.1)).Nodup) ∧
    (∀ k ∈ [Session.none, .versioned, .capable, .negotiated, .exchanged, .secured],
      (({ start with ports := [(0, { Port.reset with session := k })] } : State).portAt 0).session = k) ∧
    (start.pageAt 0 0).bound = some 0 ∧ (start.contextAt 0).guardianOn 0 0 = some theGuardian ∧ (start.pageAt 0 1).bound = none ∧
    (start.portAt 0).challenged = none ∧ ((({ Port.reset with challenged := some (1, 0) } : Port).slotGen.at? 1).getD 0 = 0) :=
  ⟨by decide, by decide, by decide, by decide, by decide, by decide, by decide, by decide, by decide, by decide, by decide⟩

end Sys2Proof.Tests
end

/-! The state of a group at its first instruction (R28) and its control registers at their reset values (R42). -/

namespace Sys2Proof.Machine

/-! ## What a start leaves in the registers of a group (R28) -/

/-- The table of scalars lists s0 only when the parameter block is not at address 0; an unlisted scalar reads zero. -/
@[simp] theorem Group.scalar_atStart (g : Group) (param k : Nat) :
    (g.atStart param).scalar k = if k = 0 then BitVec.ofNat 64 param else 0 := by
  by_cases hp : param = 0
  · simp [Group.scalar, Group.atStart, Table.at?, hp]
  · by_cases hk : k = 0
    · simp [Group.scalar, Group.atStart, Table.at?, hp, hk]
    · simp [Group.scalar, Group.atStart, Table.at?, hp, hk, Ne.symm hk]

@[simp] theorem Group.vlane_atStart (g : Group) (param p i : Nat) : (g.atStart param).vlane p i = 0 := rfl

@[simp] theorem Group.planeOf_atStart (g : Group) (param j : Nat) : (g.atStart param).planeOf j = 0 := rfl

/-- `2 ^ width - 1` has ones exactly below bit `width`. -/
theorem Group.getLsbD_xm_atStart (g : Group) (param : Nat) {j : Nat} (hj : j < 64) :
    (g.atStart param).xm.getLsbD j = decide (j < g.width) := by
  have hxm : (g.atStart param).xm = BitVec.ofNat 64 (2 ^ g.width - 1) := rfl
  rw [hxm, BitVec.getLsbD_ofNat, Nat.testBit_two_pow_sub_one, decide_eq_true hj, Bool.true_and]

/-! ## A new group is a group at its start, with the shape that its launch record asks for (R157) -/

section
variable (ctx launch grove gix grx core slot : Nat) (x : Record) (clk : Nat)

@[simp] theorem scalar_newGroup (k : Nat) :
    (newGroup ctx launch grove gix grx core slot x clk).scalar k = if k = 0 then BitVec.ofNat 64 x.param else 0 :=
  Group.scalar_atStart _ _ _

@[simp] theorem vlane_newGroup (p i : Nat) : (newGroup ctx launch grove gix grx core slot x clk).vlane p i = 0 :=
  Group.vlane_atStart _ _ _ _

@[simp] theorem planeOf_newGroup (j : Nat) : (newGroup ctx launch grove gix grx core slot x clk).planeOf j = 0 :=
  Group.planeOf_atStart _ _ _

theorem getLsbD_xm_newGroup {j : Nat} (hj : j < 64) :
    (newGroup ctx launch grove gix grx core slot x clk).xm.getLsbD j = decide (j < 16 * 2 ^ x.width) :=
  Group.getLsbD_xm_atStart _ _ hj

end

/-- Settles O44: the registers by what a start leaves in them, XM bit by bit; every other field stands in the
definition of a group's start (`Group.atStart`) or of a new group as its reset value. -/
theorem groupStart : Obligations.GroupStart := by
  unfold Obligations.GroupStart
  intro ctx lk grove gix grx core slot x clk _ g
  have hscalar : ∀ k, g.scalar k = if k = 0 then BitVec.ofNat 64 x.param else 0 := fun _ => scalar_newGroup ..
  have hvlane : ∀ p i, g.vlane p i = 0 := fun _ _ => vlane_newGroup ..
  have hxm : ∀ j, j < 64 → g.xm.getLsbD j = decide (j < 16 * 2 ^ x.width) := fun _ hj => getLsbD_xm_newGroup (hj := hj) ..
  have hplane : ∀ j, g.planeOf j = 0 := fun _ => planeOf_newGroup ..
  exact ⟨hscalar 0, fun k hk => (hscalar k).trans (if_neg hk), hvlane, hxm, rfl, hplane, rfl, rfl, rfl, rfl, rfl, rfl, rfl,
    rfl, rfl, rfl, rfl, rfl, rfl, rfl, rfl, rfl, rfl, rfl, rfl, rfl, rfl⟩

end Sys2Proof.Machine

section
/-! Decoding and encoding are inverse (R52, R53): the fields of a word determine it, in each of the four formats. -/

namespace Sys2Proof

/-! ## Each field of a word of each format -/

section
variable (s : Bool) (m : BitVec 4) (f : BitVec 6) (d a b : BitVec 7)

@[simp] theorem parkMark_rrr : parkMark (rrr s m f d a b) = s := by simp only [rrr_fields]
@[simp] theorem majorOf_rrr : majorOf (rrr s m f d a b) = m := by simp only [rrr_fields]
@[simp] theorem fn6Of_rrr : fn6Of (rrr s m f d a b) = f := by simp only [rrr_fields]
@[simp] theorem rrrD_rrr : rrrD (rrr s m f d a b) = d := by simp only [rrr_fields]
@[simp] theorem rrrA_rrr : rrrA (rrr s m f d a b) = a := by simp only [rrr_fields]
@[simp] theorem rrrB_rrr : rrrB (rrr s m f d a b) = b := by simp only [rrr_fields]

end

section
variable (s : Bool) (m : BitVec 4) (f : BitVec 3) (d a : BitVec 7) (k : BitVec 10)

@[simp] theorem parkMark_ri : parkMark (ri s m f d a k) = s := by simp only [ri_fields]
@[simp] theorem majorOf_ri : majorOf (ri s m f d a k) = m := by simp only [ri_fields]
@[simp] theorem fn3Of_ri : fn3Of (ri s m f d a k) = f := by simp only [ri_fields]
@[simp] theorem immD_ri : immD (ri s m f d a k) = d := by simp only [ri_fields]
@[simp] theorem immA_ri : immA (ri s m f d a k) = a := by simp only [ri_fields]
@[simp] theorem imm10Of_ri : imm10Of (ri s m f d a k) = k := by simp only [ri_fields]

end

section
variable (s : Bool) (m : BitVec 4) (f : BitVec 3) (d : BitVec 7) (k : BitVec 17)

@[simp] theorem parkMark_rl : parkMark (rl s m f d k) = s := by simp only [rl_fields]
@[simp] theorem majorOf_rl : majorOf (rl s m f d k) = m := by simp only [rl_fields]
@[simp] theorem fn3Of_rl : fn3Of (rl s m f d k) = f := by simp only [rl_fields]
@[simp] theorem immD_rl : immD (rl s m f d k) = d := by simp only [rl_fields]
@[simp] theorem imm17Of_rl : imm17Of (rl s m f d k) = k := by simp only [rl_fields]

end

section
variable (s : Bool) (f : BitVec 3) (d : BitVec 7) (sa sb : BitVec 5) (fmt : BitVec 3) (bsel : BitVec 4)

@[simp] theorem parkMark_mx : parkMark (mx s f d sa sb fmt bsel) = s := by simp only [mx_fields]
@[simp] theorem majorOf_mx : majorOf (mx s f d sa sb fmt bsel) = 6 := by simp only [mx_fields]
@[simp] theorem fn3Of_mx : fn3Of (mx s f d sa sb fmt bsel) = f := by simp only [mx_fields]
@[simp] theorem immD_mx : immD (mx s f d sa sb fmt bsel) = d := by simp only [mx_fields]
@[simp] theorem mxSa_mx : mxSa (mx s f d sa sb fmt bsel) = sa := by simp only [mx_fields]
@[simp] theorem mxSb_mx : mxSb (mx s f d sa sb fmt bsel) = sb := by simp only [mx_fields]
@[simp] theorem mxFmt_mx : mxFmt (mx s f d sa sb fmt bsel) = fmt := by simp only [mx_fields]
@[simp] theorem mxBsel_mx : mxBsel (mx s f d sa sb fmt bsel) = bsel := by simp only [mx_fields]

end

/-! ## A word is made of its fields, in every format -/

theorem ofBool_parkMark (w : BitVec 32) : BitVec.ofBool (parkMark w) = w.extractLsb' 31 1 := by
  apply BitVec.eq_of_getLsbD_eq
  intro i hi
  obtain rfl : i = 0 := by omega
  simp [parkMark]

theorem rrr_eta (w : BitVec 32) : rrr (parkMark w) (majorOf w) (fn6Of w) (rrrD w) (rrrA w) (rrrB w) = w := by
  simp (disch := omega) only [rrr, majorOf, fn6Of, rrrD, rrrA, rrrB, ofBool_parkMark,
    BitVec.extractLsb'_append_extractLsb'_eq_extractLsb']
  exact BitVec.extractLsb'_eq_self

theorem ri_eta (w : BitVec 32) : ri (parkMark w) (majorOf w) (fn3Of w) (immD w) (immA w) (imm10Of w) = w := by
  simp (disch := omega) only [ri, majorOf, fn3Of, immD, immA, imm10Of, ofBool_parkMark,
    BitVec.extractLsb'_append_extractLsb'_eq_extractLsb']
  exact BitVec.extractLsb'_eq_self

theorem rl_eta (w : BitVec 32) : rl (parkMark w) (majorOf w) (fn3Of w) (immD w) (imm17Of w) = w := by
  simp (disch := omega) only [rl, majorOf, fn3Of, immD, imm17Of, ofBool_parkMark,
    BitVec.extractLsb'_append_extractLsb'_eq_extractLsb']
  exact BitVec.extractLsb'_eq_self

theorem mx_eta (w : BitVec 32) (h : majorOf w = 6) :
    mx (parkMark w) (fn3Of w) (immD w) (mxSa w) (mxSb w) (mxFmt w) (mxBsel w) = w := by
  rw [mx, ← h]
  simp (disch := omega) only [majorOf, fn3Of, immD, mxSa, mxSb, mxFmt, mxBsel, ofBool_parkMark,
    BitVec.extractLsb'_append_extractLsb'_eq_extractLsb']
  exact BitVec.extractLsb'_eq_self

/-- A word is the RRR word of some fields exactly when they are its fields. -/
theorem rrr_eq_iff {w : BitVec 32} {m : BitVec 4} {f : BitVec 6} {d a b : BitVec 7} : rrr (parkMark w) m f d a b = w ↔
    majorOf w = m ∧ (fn6Of w).toNat = f.toNat ∧ rrrD w = d ∧ rrrA w = a ∧ rrrB w = b := by
  simp only [BitVec.toNat_inj]
  constructor
  · intro h
    rw [← h]
    simp
  · rintro ⟨rfl, rfl, rfl, rfl, rfl⟩
    exact rrr_eta w

/-- A word is the RI word of some fields exactly when they are its fields. -/
theorem ri_eq_iff {w : BitVec 32} {m : BitVec 4} {f : BitVec 3} {d a : BitVec 7} {k : BitVec 10} : ri (parkMark w) m f d a k = w ↔
    majorOf w = m ∧ (fn3Of w).toNat = f.toNat ∧ immD w = d ∧ immA w = a ∧ imm10Of w = k := by
  simp only [BitVec.toNat_inj]
  constructor
  · intro h
    rw [← h]
    simp
  · rintro ⟨rfl, rfl, rfl, rfl, rfl⟩
    exact ri_eta w

/-- A word is the RL or B word of some fields exactly when they are its fields. -/
theorem rl_eq_iff {w : BitVec 32} {m : BitVec 4} {f : BitVec 3} {d : BitVec 7} {k : BitVec 17} : rl (parkMark w) m f d k = w ↔
    majorOf w = m ∧ (fn3Of w).toNat = f.toNat ∧ immD w = d ∧ imm17Of w = k := by
  simp only [BitVec.toNat_inj]
  constructor
  · intro h
    rw [← h]
    simp
  · rintro ⟨rfl, rfl, rfl, rfl⟩
    exact rl_eta w

/-- A word is the MX word of some fields exactly when they are its fields. -/
theorem mx_eq_iff {w : BitVec 32} {f : BitVec 3} {d : BitVec 7} {sa sb : BitVec 5} {fmt : BitVec 3} {bsel : BitVec 4} :
    mx (parkMark w) f d sa sb fmt bsel = w ↔
    majorOf w = 6 ∧ (fn3Of w).toNat = f.toNat ∧ immD w = d ∧ mxSa w = sa ∧ mxSb w = sb ∧ mxFmt w = fmt ∧ mxBsel w = bsel := by
  simp only [BitVec.toNat_inj]
  constructor
  · intro h
    rw [← h]
    simp
  · rintro ⟨hm, rfl, rfl, rfl, rfl, rfl, rfl⟩
    exact mx_eta w hm

/-! ## From an instruction to its word and back (R52, R53) -/

theorem shiftForm_zeroExtend (n : BitVec 6) (f : BitVec 6 → Instr) : shiftForm (n.zeroExtend 10) f = .ok (f n) := by
  have h := n.isLt
  have e : (n.zeroExtend 10).toNat = n.toNat := by simp; omega
  simp [shiftForm, e, h]

section
variable {w : BitVec 32}

theorem decode_eq_decodeSint (h : majorOf w = 0) : decode w = decodeSint w := by rw [decode, h]; rfl
theorem decode_eq_decodeVint (h : majorOf w = 1) : decode w = decodeVint w := by rw [decode, h]; rfl
theorem decode_eq_decodeVflt (h : majorOf w = 2) : decode w = decodeVflt w := by rw [decode, h]; rfl
theorem decode_eq_decodeVxl (h : majorOf w = 3) : decode w = decodeVxl w := by rw [decode, h]; rfl
theorem decode_eq_decodeMem (h : majorOf w = 4) : decode w = decodeMem w := by rw [decode, h]; rfl
theorem decode_eq_decodeSync (h : majorOf w = 5) : decode w = decodeSync w := by rw [decode, h]; rfl
theorem decode_eq_decodeMat (h : majorOf w = 6) : decode w = decodeMat w := by rw [decode, h]; rfl
theorem decode_eq_decodeEng (h : majorOf w = 7) : decode w = decodeEng w := by rw [decode, h]; rfl
theorem decode_eq_decodeSimm (h : majorOf w = 8) : decode w = decodeSimm w := by rw [decode, h]; rfl
theorem decode_eq_decodeVimm (h : majorOf w = 9) : decode w = decodeVimm w := by rw [decode, h]; rfl
theorem decode_eq_decodeMemi (h : majorOf w = 10) : decode w = decodeMemi w := by rw [decode, h]; rfl
theorem decode_eq_decodeSli (h : majorOf w = 11) : decode w = decodeSli w := by rw [decode, h]; rfl
theorem decode_eq_decodeBr (h : majorOf w = 12) : decode w = decodeBr w := by rw [decode, h]; rfl
theorem decode_eq_decodeSys (h : majorOf w = 15) : decode w = decodeSys w := by rw [decode, h]; rfl

end

/-- Major by major: the decoder reads the function and the fields that the encoder laid out, picks its arm by the function
(`change` runs that choice, and the checks of the fields that are zero), and names the registers back. -/
theorem decode_of_encode {i : Instr} {s : Bool} {w : BitVec 32} (h : encode s i = some w) : decode w = .ok i := by
  cases i with
  | sadd _ _ _ | ssub _ _ _ | smul _ _ _ | smulhI _ _ _ | smulhN _ _ _ | sdivI _ _ _ | sdivN _ _ _ | smodI _ _ _
  | smodN _ _ _ | sand _ _ _ | sor _ _ _ | sxor _ _ _ | sandn _ _ _ | sshl _ _ _ | sshr _ _ _ | ssra _ _ _ | sminI _ _ _
  | sminN _ _ _ | smaxI _ _ _ | smaxN _ _ _ | ssltI _ _ _ | ssltN _ _ _ | sseq _ _ _ | sclz _ _ | spop _ _ | smov _ _ =>
    cases h
    rw [decode_eq_decodeSint (majorOf_rrr ..), decodeSint, fn6Of_rrr, rrrD_rrr, rrrA_rrr, rrrB_rrr]
    change Except.ok _ = _
    simp only [Reg.ofField_field]
  | vadd _ _ _ | vsub _ _ _ | vmul _ _ _ | vmulhI _ _ _ | vmulhN _ _ _ | vmad _ _ _ | vminI _ _ _ | vminN _ _ _ | vmaxI _ _ _
  | vmaxN _ _ _ | vabs _ _ | vand _ _ _ | vor _ _ _ | vxor _ _ _ | vandn _ _ _ | vshl _ _ _ | vshr _ _ _ | vsra _ _ _
  | vclz _ _ | vpop _ _ | vbrev _ _ | vsel _ _ _ | vcmpEq _ _ | vcmpNe _ _ | vcmpLtI _ _ | vcmpLtN _ _ | vcmpLeI _ _
  | vcmpLeN _ _ | vdp4I _ _ _ | vdp4N _ _ _ =>
    cases h
    rw [decode_eq_decodeVint (majorOf_rrr ..), decodeVint, fn6Of_rrr, rrrD_rrr, rrrA_rrr, rrrB_rrr]
    change Except.ok _ = _
    simp only [Reg.ofField_field]
  | vfadd _ _ _ | vfsub _ _ _ | vfmul _ _ _ | vffma _ _ _ | vfmin _ _ _ | vfmax _ _ _ | vfabs _ _ | vfneg _ _ | vfcmpEq _ _
  | vfcmpLt _ _ | vfcmpLe _ _ | vfcmpUn _ _ | vfrcp _ _ | vfrsq _ _ | vfsqrt _ _ | vfexp2 _ _ | vflog2 _ _ | vftanh _ _
  | vhadd _ _ _ | vhmul _ _ _ | vhfma _ _ _ | vbadd _ _ _ | vbmul _ _ _ | vbfma _ _ _ =>
    cases h
    rw [decode_eq_decodeVflt (majorOf_rrr ..), decodeVflt, fn6Of_rrr, rrrD_rrr, rrrA_rrr, rrrB_rrr]
    change Except.ok _ = _
    simp only [Reg.ofField_field]
  | vcvtFI _ _ | vcvtIF _ _ | vcvtFH _ _ | vcvtHF _ _ | vcvtFB _ _ | vcvtBF _ _ | vpackE4 _ _ | vpackE5 _ _ | vpackLx _ _
  | vunpkE4 _ _ | vunpkE5 _ _ | vunpkLx _ _ | vshfl _ _ _ | vrot _ _ _ | vbcast _ _ _ | vredAddI _ _ | vredAddF _ _
  | vredMinI _ _ | vredMaxI _ _ | vredMaxF _ _ | vscanAddI _ _ | vballot _ _ | vmovs _ _ | smovv _ _ _ | vif | velse | vendif
  | xmset _ | xmget _ | plset _ | plsel _ | pljoin | plmask _ | plocc _ =>
    cases h
    rw [decode_eq_decodeVxl (majorOf_rrr ..), decodeVxl, fn6Of_rrr, rrrD_rrr, rrrA_rrr, rrrB_rrr]
    change Except.ok _ = _
    simp only [Reg.ofField_field]
  | vldB _ _ _ | vldBI _ _ _ | vldH _ _ _ | vldHI _ _ _ | vldW _ _ _ | vldD _ _ _ | vldQ _ _ _ | vstB _ _ _ | vstH _ _ _
  | vstW _ _ _ | vstD _ _ _ | vstQ _ _ _ | sldW _ _ _ | sldD _ _ _ | sstW _ _ _ | sstD _ _ _ | vpref _ _ =>
    cases h
    rw [decode_eq_decodeMem (majorOf_rrr ..), decodeMem, fn6Of_rrr, rrrD_rrr, rrrA_rrr, rrrB_rrr]
    change Except.ok _ = _
    simp only [Reg.ofField_field]
  | vatomAdd _ _ _ | vatomAddf _ _ _ | vatomMinI _ _ _ | vatomMaxI _ _ _ | vatomAnd _ _ _ | vatomOr _ _ _ | vatomXor _ _ _
  | vatomXchg _ _ _ | vatomCas _ _ _ | satomAdd _ _ _ | satomCas _ _ _ | gredAdd _ _ _ | gredAddf _ _ _ | gredMaxI _ _ _
  | sqredAddf _ _ _ | sqredAdd _ _ _ | sqopen _ _ _ | sqclose _ | fenceG | fenceC | fenceD | fenceP | fenceS | xfence
  | barArr _ | barWt _ | barSync _ | barQ _ _ =>
    cases h
    rw [decode_eq_decodeSync (majorOf_rrr ..), decodeSync, fn6Of_rrr, rrrD_rrr, rrrA_rrr, rrrB_rrr]
    change Except.ok _ = _
    simp only [Reg.ofField_field]
  | mma _ _ _ _ _ | mmas _ _ _ _ _ | mzero _ =>
    cases h
    rw [decode_eq_decodeMat (majorOf_mx ..), decodeMat, fn3Of_mx, immD_mx, mxSa_mx, mxSb_mx, mxFmt_mx, mxBsel_mx]
    change Except.ok _ = _
    simp only [Reg.ofField_field]
  | mbatch _ | mwait _ | mquery _ _ | cpy _ _ _ | cpyt _ _ _ | cpyq _ _ _ | cwp _ _ | cwait _ _ | launch _ _ | lquery _ _ =>
    cases h
    rw [decode_eq_decodeEng (majorOf_rrr ..), decodeEng, fn6Of_rrr, rrrD_rrr, rrrA_rrr, rrrB_rrr]
    change Except.ok _ = _
    simp only [Reg.ofField_field]
  | saddi _ _ _ | sandi _ _ _ | sori _ _ _ | sxori _ _ _ | sslti _ _ _ =>
    cases h
    rw [decode_eq_decodeSimm (majorOf_ri ..), decodeSimm, fn3Of_ri, immD_ri, immA_ri, imm10Of_ri]
    change Except.ok _ = _
    simp only [Reg.ofField_field]
  | sshli _ _ _ | sshri _ _ _ | ssrai _ _ _ =>
    cases h
    rw [decode_eq_decodeSimm (majorOf_ri ..), decodeSimm, fn3Of_ri, immD_ri, immA_ri, imm10Of_ri]
    refine (shiftForm_zeroExtend ..).trans ?_
    simp only [Reg.ofField_field]
  | vaddi _ _ _ | vandi _ _ _ | vori _ _ _ | vxori _ _ _ | vmovi _ _ =>
    cases h
    rw [decode_eq_decodeVimm (majorOf_ri ..), decodeVimm, fn3Of_ri, immD_ri, immA_ri, imm10Of_ri]
    change Except.ok _ = _
    simp only [Reg.ofField_field]
  | vshli _ _ _ | vshri _ _ _ | vsrai _ _ _ =>
    cases h
    rw [decode_eq_decodeVimm (majorOf_ri ..), decodeVimm, fn3Of_ri, immD_ri, immA_ri, imm10Of_ri]
    refine (shiftForm_zeroExtend ..).trans ?_
    simp only [Reg.ofField_field]
  | vldWO _ _ _ | vldDO _ _ _ | vstWO _ _ _ | vstDO _ _ _ | sldWO _ _ _ | sldDO _ _ _ | sstWO _ _ _ | sstDO _ _ _ =>
    cases h
    rw [decode_eq_decodeMemi (majorOf_ri ..), decodeMemi, fn3Of_ri, immD_ri, immA_ri, imm10Of_ri]
    change Except.ok _ = _
    simp only [Reg.ofField_field]
  | smovi _ _ | slui _ _ | saddpc _ _ =>
    cases h
    rw [decode_eq_decodeSli (majorOf_rl ..), decodeSli, fn3Of_rl, immD_rl, imm17Of_rl]
    change Except.ok _ = _
    simp only [Reg.ofField_field]
  | bra _ | bz _ _ | bnz _ _ | bneg _ _ | bnn _ _ | bloop _ _ | bcall _ _ | bany _ =>
    cases h
    rw [decode_eq_decodeBr (majorOf_rl ..), decodeBr, fn3Of_rl, immD_rl, imm17Of_rl]
    change Except.ok _ = _
    simp only [Reg.ofField_field]
  | nop | park | exit | jmp _ | ret _ | wbase _ | wget _ | region _ _ | trap _ | brk _ | tret | ctlrd _ _ | ctlwr _ _ | svc _
  | tick _ | spin | sealst _ _ _ | sealld _ _ _ | dsave _ | dload _ =>
    cases h
    rw [decode_eq_decodeSys (majorOf_rrr ..), decodeSys, fn6Of_rrr, rrrD_rrr, rrrA_rrr, rrrB_rrr]
    change Except.ok _ = _
    simp only [Reg.ofField_field]
  | _ => cases h

theorem parkMark_of_encode {i : Instr} {s : Bool} {w : BitVec 32} (h : encode s i = some w) : parkMark w = s := by
  cases i <;> cases h <;> simp

/-- Settles O38, major by major. -/
theorem decodeEncode : Obligations.DecodeEncode :=
  fun _ _ _ h => ⟨decode_of_encode h, parkMark_of_encode h⟩

/-! ## From a word to its instruction and back (R52, R53, R56) -/

/-- What a decoder made of the word encodes, with the word's park mark, to that word. -/
def EncodesTo (w : BitVec 32) (r : Except (BitVec 8) Instr) : Prop := ∀ i, r = .ok i → encode (parkMark w) i = some w

section
variable {w : BitVec 32}

@[simp] theorem encodesTo_error (e : BitVec 8) : EncodesTo w (.error e) := fun _ h => nomatch h

@[simp] theorem encodesTo_ok {i : Instr} : EncodesTo w (.ok i) ↔ encode (parkMark w) i = some w := by simp [EncodesTo]

@[simp] theorem encodesTo_refusedIf {c : Prop} [Decidable c] {e : BitVec 8} {r : Except (BitVec 8) Instr} :
    EncodesTo w (if c then .error e else r) ↔ (¬ c → EncodesTo w r) := by
  by_cases h : c <;> simp [h]

@[simp] theorem encodesTo_needZero {n : Nat} {f : BitVec n} {r : Except (BitVec 8) Instr} :
    EncodesTo w (needZero f r) ↔ (f = 0 → EncodesTo w r) := by
  unfold needZero
  split
  · simp only [*, true_imp_iff]
  · simp only [*, encodesTo_error, false_imp_iff]

/-- A count that a shift form admits is the six bits that it is read as. -/
@[simp] theorem encodesTo_shiftForm {k : BitVec 10} {f : BitVec 6 → Instr} :
    EncodesTo w (shiftForm k f) ↔ ∀ n : BitVec 6, k = n.zeroExtend 10 → encode (parkMark w) (f n) = some w := by
  constructor
  · rintro h n rfl
    rwa [shiftForm_zeroExtend, encodesTo_ok] at h
  · intro h
    unfold shiftForm
    split
    · refine encodesTo_ok.mpr (h _ (BitVec.eq_of_toNat_eq ?_))
      simp only [BitVec.zeroExtend, BitVec.toNat_setWidth, BitVec.toNat_ofNat]
      omega
    · exact encodesTo_error _

@[simp] theorem encodesTo_needNul {f : BitVec 7} {i : Instr} :
    EncodesTo w (needNul (.ofField f) i) ↔ (f = 120 → encode (parkMark w) i = some w) := by
  have hnul : Reg.ofField f = .nul ↔ f = 120 :=
    ⟨fun h => (Reg.field_ofField f).symm.trans (congrArg Reg.field h), fun h => h ▸ Reg.ofField_field .nul⟩
  simp only [needNul, hnul]
  split
  · simp only [*, encodesTo_ok, true_imp_iff]
  · simp only [*, encodesTo_error, false_imp_iff]

theorem encodesTo_decodeSint (h : majorOf w = 0) : EncodesTo w (decodeSint w) := by
  unfold decodeSint
  split <;> simp_all [encode, rrr_eq_iff]

theorem encodesTo_decodeVint (h : majorOf w = 1) : EncodesTo w (decodeVint w) := by
  unfold decodeVint
  split <;> simp_all [encode, rrr_eq_iff]

theorem encodesTo_decodeVflt (h : majorOf w = 2) : EncodesTo w (decodeVflt w) := by
  unfold decodeVflt
  split <;> simp_all [encode, rrr_eq_iff]

theorem encodesTo_decodeVxl (h : majorOf w = 3) : EncodesTo w (decodeVxl w) := by
  unfold decodeVxl
  split <;> simp_all [encode, rrr_eq_iff]

theorem encodesTo_decodeMem (h : majorOf w = 4) : EncodesTo w (decodeMem w) := by
  unfold decodeMem
  split <;> simp_all [encode, rrr_eq_iff]

theorem encodesTo_decodeSync (h : majorOf w = 5) : EncodesTo w (decodeSync w) := by
  unfold decodeSync
  split <;> simp_all [encode, rrr_eq_iff]

theorem encodesTo_decodeMat (h : majorOf w = 6) : EncodesTo w (decodeMat w) := by
  unfold decodeMat
  split <;> simp_all [encode, mx_eq_iff]

theorem encodesTo_decodeEng (h : majorOf w = 7) : EncodesTo w (decodeEng w) := by
  unfold decodeEng
  split <;> simp_all [encode, rrr_eq_iff]

theorem encodesTo_decodeSimm (h : majorOf w = 8) : EncodesTo w (decodeSimm w) := by
  unfold decodeSimm
  split
  case h_8 =>
    have hfn : (fn3Of w).toNat = 7 := by have := (fn3Of w).isLt; simp_all only [imp_false]; omega
    simp_all [encode, ri_eq_iff]
  all_goals simp_all [encode, ri_eq_iff]

theorem encodesTo_decodeVimm (h : majorOf w = 9) : EncodesTo w (decodeVimm w) := by
  unfold decodeVimm
  split
  case h_8 =>
    have hfn : (fn3Of w).toNat = 7 := by have := (fn3Of w).isLt; simp_all only [imp_false]; omega
    simp_all [encode, ri_eq_iff]
  all_goals simp_all [encode, ri_eq_iff]

theorem encodesTo_decodeMemi (h : majorOf w = 10) : EncodesTo w (decodeMemi w) := by
  unfold decodeMemi
  split
  case h_8 =>
    have hfn : (fn3Of w).toNat = 7 := by have := (fn3Of w).isLt; simp_all only [imp_false]; omega
    simp_all [encode, ri_eq_iff]
  all_goals simp_all [encode, ri_eq_iff]

theorem encodesTo_decodeSli (h : majorOf w = 11) : EncodesTo w (decodeSli w) := by
  unfold decodeSli
  split <;> simp_all [encode, rl_eq_iff]

theorem encodesTo_decodeBr (h : majorOf w = 12) : EncodesTo w (decodeBr w) := by
  unfold decodeBr
  split
  case h_8 =>
    have hfn : (fn3Of w).toNat = 7 := by have := (fn3Of w).isLt; simp_all only [imp_false]; omega
    simp_all [encode, rl_eq_iff]
  all_goals simp_all [encode, rl_eq_iff]

theorem encodesTo_decodeSys (h : majorOf w = 15) : EncodesTo w (decodeSys w) := by
  unfold decodeSys
  split <;> simp_all [encode, rrr_eq_iff]

/-- The decoder of each major keeps every bit of the word, in a field or in its function. -/
theorem encodesTo_decode (w : BitVec 32) : EncodesTo w (decode w) := by
  unfold decode
  split
  · exact encodesTo_decodeSint (BitVec.eq_of_toNat_eq ‹_›)
  · exact encodesTo_decodeVint (BitVec.eq_of_toNat_eq ‹_›)
  · exact encodesTo_decodeVflt (BitVec.eq_of_toNat_eq ‹_›)
  · exact encodesTo_decodeVxl (BitVec.eq_of_toNat_eq ‹_›)
  · exact encodesTo_decodeMem (BitVec.eq_of_toNat_eq ‹_›)
  · exact encodesTo_decodeSync (BitVec.eq_of_toNat_eq ‹_›)
  · exact encodesTo_decodeMat (BitVec.eq_of_toNat_eq ‹_›)
  · exact encodesTo_decodeEng (BitVec.eq_of_toNat_eq ‹_›)
  · exact encodesTo_decodeSimm (BitVec.eq_of_toNat_eq ‹_›)
  · exact encodesTo_decodeVimm (BitVec.eq_of_toNat_eq ‹_›)
  · exact encodesTo_decodeMemi (BitVec.eq_of_toNat_eq ‹_›)
  · exact encodesTo_decodeSli (BitVec.eq_of_toNat_eq ‹_›)
  · exact encodesTo_decodeBr (BitVec.eq_of_toNat_eq ‹_›)
  · exact encodesTo_error _
  · exact encodesTo_error _
  · have hm : (majorOf w).toNat = 15 := by have := (majorOf w).isLt; simp_all only [imp_false]; omega
    exact encodesTo_decodeSys (BitVec.eq_of_toNat_eq hm)

end

/-- Settles O39, major by major. -/
theorem encodeDecode : Obligations.EncodeDecode := encodesTo_decode

/-- Settles O37: the encoder lays out each word that is an instruction's, and the decoder is run on the others. -/
theorem decodeWords : Obligations.DecodeWords := by
  refine ⟨?_, ?_, ?_, ?_, ?_, ?_, ?_, ?_, ?_, ?_, ?_, rfl, rfl, rfl, rfl⟩
  · exact decode_of_encode (s := true) rfl
  all_goals exact decode_of_encode (s := false) rfl

end Sys2Proof
end

section
/-! Words that trap whatever they would do, and words that do nothing without an issuing lane (R56, R80, R87, R171, R320). -/

namespace Sys2Proof.Machine

open Sys2Proof.Safety

/-! ## Every word's meaning stands under the checks of `word` -/

theorem exec_eq_word {i : Instr} {p : Bool} {w : BitVec 32} (h : encode p i = some w) (s : State) :
    ∃ k, exec i s = word i s k := by
  cases i <;> cases h <;> exact ⟨_, rfl⟩

theorem excused_of_lanesAlone {c : Issue} {i : Instr} (hm : c.mask = 0) (hl : lanesAlone i = true) : excused c i = true := by
  unfold excused
  split
  · rfl
  · simp [hm, hl]

theorem not_excused {c : Issue} {i : Instr} (h : c.mask ≠ 0 ∨ lanesAlone i = false) (hp : ∀ a b, i ≠ .vpref a b) :
    excused c i = false := by
  unfold excused
  split
  · exact absurd rfl (hp _ _)
  · rcases h with h | h
    · rw [decide_eq_false h, Bool.false_and]
    · rw [h, Bool.and_false]

/-! ## Without an issuing lane (R80, R171) -/

@[simp] theorem lanesOf_zero (w : Nat) : lanesOf w 0#64 = [] := by simp [lanesOf]

section
variable (s : State) {c : Issue} (g : Group) (hm : c.mask = 0)
include hm

theorem laneAccesses_none (addr : Nat → Scalar) : laneAccesses c g addr = [] := by simp [laneAccesses, hm]

theorem vectorLoad_none (d : Reg) (n size : Nat) (w : Widen) (addr : Nat → Scalar) :
    s.vectorLoad c g d n size w addr = s := by
  rw [State.vectorLoad, laneAccesses_none g hm]

theorem vectorStore_none (d : Reg) (size : Nat) (addr : Nat → Scalar) : s.vectorStore c g d size addr = s := by
  rw [State.vectorStore, laneAccesses_none g hm]

theorem vatom_none (op : AtomOp) (d a b : Reg) : s.vatom c g op d a b = s := if_pos (laneAccesses_none g hm _)

theorem reduceFar_none (op : AtomOp) (d a b : Reg) : s.reduceFar c g op d a b = s := by
  rw [State.reduceFar, laneAccesses_none g hm]

theorem sendContributions_none (d a b : Reg) : s.sendContributions c g d a b = s := if_pos (by simp [hm])

end

/-- A word of the issuing lanes does nothing when there is none. -/
theorem exec_without_lanes {i : Instr} {s : State} {c : Issue} {g : Group} (hl : lanesAlone i = true) (hc : s.cur = some c)
    (hg : s.groupAt c.gid = some g) (hm : c.mask = 0) (hd : i.detail = none) (hr : stalled g i = false) :
    exec i s = .next s := by
  have run (k : Issue → Group → State) (hk : k c g = s) : word i s k = .next s :=
    (word_excused hc hg (excused_of_lanesAlone hm hl) hm hd hr k).trans (congrArg _ hk)
  cases i with
  | vldB _ _ _ | vldBI _ _ _ | vldH _ _ _ | vldHI _ _ _ | vldW _ _ _ | vldD _ _ _ | vldQ _ _ _ | vldWO _ _ _ | vldDO _ _ _ =>
    exact run _ (vectorLoad_none s g hm ..)
  | vstB _ _ _ | vstH _ _ _ | vstW _ _ _ | vstD _ _ _ | vstQ _ _ _ | vstWO _ _ _ | vstDO _ _ _ =>
    exact run _ (vectorStore_none s g hm ..)
  | vatomAdd _ _ _ | vatomAddf _ _ _ | vatomMinI _ _ _ | vatomMaxI _ _ _ | vatomAnd _ _ _ | vatomOr _ _ _ | vatomXor _ _ _
  | vatomXchg _ _ _ => exact run _ (vatom_none s g hm ..)
  | vatomCas _ _ _ => exact run _ (if_pos (laneAccesses_none g hm _))
  | gredAdd _ _ _ | gredAddf _ _ _ | gredMaxI _ _ _ => exact run _ (reduceFar_none s g hm ..)
  | sqredAddf _ _ _ | sqredAdd _ _ _ => exact run _ (sendContributions_none s g hm ..)
  | _ => cases hl

/-! ## Breakpoints (R320) -/

theorem exec_brk_user {l : BitVec 7} {s : State} {c : Issue} {g : Group} (h : Ready (.brk l) s c g) (hu : g.mode = .user) :
    exec (.brk l) s = .next (s.trapWord c g 9 l.toNat (BitVec.ofNat 64 c.addr) 0) :=
  (word_ready h _).trans (by simp only [hu])

theorem exec_brk_steward {l : BitVec 7} {s : State} {c : Issue} {g : Group} (h : Ready (.brk l) s c g) (hw : g.mode = .steward) :
    exec (.brk l) s = .next s :=
  (word_ready h _).trans (by simp only [hw])

/-- Settles O26: by what `word` does with an illegal word and with an excused one, and by the meanings of the words that trap. -/
theorem wordsThatTrap : Obligations.WordsThatTrap := by
  refine ⟨?_, fun _ _ _ _ => exec_without_lanes, ?_, fun _ _ _ _ h => word_ready h _, fun _ _ _ _ h => ⟨exec_brk_user h, exec_brk_steward h⟩⟩
  · intro i s c g d w hw hc hg hd hl hp
    obtain ⟨k, hk⟩ := exec_eq_word hw s
    exact hk.trans (word_illegal hc hg (not_excused hl hp) hd k)
  · intro d s c g hc hg
    change execIllegalInstruction d s = _
    simp only [execIllegalInstruction, hc, hg]

end Sys2Proof.Machine
end

section
/-! What a steward fault drops beside its group (R291), against the statement on taking exceptions. -/

namespace Sys2Proof.Machine

/-- A group in its handler whose own write, of its checkpoint slot, is under way. -/
def handlerGroup : Group := { newGroup 0 0 0 0 0 0 0 default 0 with mode := .steward, wait := .writing }

def slotWriteUnderWay : Flight := { seq := 1, ctx := 0, who := 0, va := 0x1001C, pieces := [(.dram 0 0x1001C, 0, 4)], bytes := some [0, 0, 0, 0] }

def handlerIssue : Issue := { (default : Issue) with gid := 0, mask := 0xFFFF }

/-- The glade's ERRSEV asks for no more than the log for class 4 of source 0. -/
def handlerWriting : State :=
  { State.reset with
    glades := [(0, { (default : Glade) with len := 1, errsev := [(32, 1)] })], contexts := [(0, default)], groups := [(0, handlerGroup)],
    flights := [slotWriteUnderWay], cur := some handlerIssue }

/-- The fault of an illegal word drops the group's own write. -/
theorem flights_trapWord_handlerWriting : (handlerWriting.trapWord handlerIssue handlerGroup 1 2 0 0).flights = [] := by decide

/-- The log entry of the fault leaves that write under way, whatever the group becomes. -/
theorem flights_error_handlerWriting (g : Group) :
    ((handlerWriting.setGroup 0 g).error 4 0 0 0 0x201).flights = [slotWriteUnderWay] := rfl

/-- Refutes O27: of a group that serves no eviction the statement lets a steward fault change the group, the log and its action alone,
but the group's own write that is under way is dropped with it (`State.stewardFault`). -/
theorem not_trapEntry : ¬ Obligations.TrapEntry := by
  unfold Obligations.TrapEntry
  rintro ⟨hfault, _⟩
  obtain ⟨g', hg'⟩ := hfault handlerWriting handlerIssue handlerGroup 1 2 0 0 rfl (.inl rfl) (by decide) (by decide)
  -- past the 27 fields of the group, what the fault of a kernel's group comes to
  iterate 27 replace hg' := hg'.2
  obtain ⟨hkernel, _⟩ := hg'
  have hf := congrArg State.flights (hkernel rfl)
  have : [] = [slotWriteUnderWay] := flights_trapWord_handlerWriting.symm.trans (hf.trans (flights_error_handlerWriting g'))
  cases this

end Sys2Proof.Machine
end

section
/-! Registers written at issue, and the return from a handler (R46, R49, R179, R180, R289, R292). -/

namespace Sys2Proof.Machine

open Sys2Proof.Safety

/-! ## Registers written now -/

section
variable (g : Group)

@[simp] theorem scalar_setScalar_same (k : Nat) (v : Scalar) : (g.setScalar k v).scalar k = v := by
  simp [Group.scalar, Group.setScalar]

theorem scalar_setScalar_other {j k : Nat} (v : Scalar) (h : j ≠ k) : (g.setScalar k v).scalar j = g.scalar j := by
  simp [Group.scalar, Group.setScalar, Table.at?_put_other _ _ h]

@[simp] theorem scalar_writeNow_same (k : Nat) (v : Scalar) : (g.writeNow k v).scalar k = v := scalar_setScalar_same g k v

theorem scalar_writeNow_other {j k : Nat} (v : Scalar) (h : j ≠ k) : (g.writeNow k v).scalar j = g.scalar j :=
  scalar_setScalar_other g v h

/-- A scalar written at issue drops earlier results to it, and changes nothing else. -/
theorem writeNow_frame (k : Nat) (v : Scalar) :
    { g.writeNow k v with sregs := g.sregs, results := g.results, gens := g.gens } = g := rfl

/-! ## The hidden frame (R290, R292) -/

/-- The group with its hidden frame written back to s20 to s23. -/
def Group.restored : Group := g.frame.zipIdx.foldl (fun g (v, k) => g.writeNow (20 + k) v) g

theorem restored_frame : { g.restored with sregs := g.sregs, results := g.results, gens := g.gens } = g := by
  suffices h : ∀ (l : List (Scalar × Nat)) (x : Group), { x with sregs := g.sregs, results := g.results, gens := g.gens } = g →
      { l.foldl (fun g (v, k) => g.writeNow (20 + k) v) x with sregs := g.sregs, results := g.results, gens := g.gens } = g from
    h _ g rfl
  intro l
  induction l with
  | nil => exact fun _ h => h
  | cons e l ih => exact fun x h => ih _ h

variable {g} in
theorem scalar_restored {w20 w21 w22 w23 : Scalar} (h : g.frame = [w20, w21, w22, w23]) (k : Nat) : g.restored.scalar k =
    if k = 20 then w20 else if k = 21 then w21 else if k = 22 then w22 else if k = 23 then w23 else g.scalar k := by
  have hr : g.restored = (((g.writeNow 20 w20).writeNow 21 w21).writeNow 22 w22).writeNow 23 w23 := by
    simp only [Group.restored, h]; rfl
  rw [hr]
  split_ifs with h0 h1 h2 h3
  · subst h0; simp [scalar_writeNow_other]
  · subst h1; simp [scalar_writeNow_other]
  · subst h2; simp [scalar_writeNow_other]
  · subst h3; simp
  · simp [scalar_writeNow_other, h0, h1, h2, h3]

@[simp] theorem restored_tcause : g.restored.tcause = g.tcause := (congrArg Group.tcause (restored_frame g) :)
@[simp] theorem restored_tlane : g.restored.tlane = g.tlane := (congrArg Group.tlane (restored_frame g) :)
@[simp] theorem restored_toff : g.restored.toff = g.toff := (congrArg Group.toff (restored_frame g) :)
@[simp] theorem restored_tdone : g.restored.tdone = g.tdone := (congrArg Group.tdone (restored_frame g) :)
@[simp] theorem restored_tplane : g.restored.tplane = g.tplane := (congrArg Group.tplane (restored_frame g) :)
@[simp] theorem restored_tocc : g.restored.tocc = g.tocc := (congrArg Group.tocc (restored_frame g) :)
@[simp] theorem restored_laneTrap : g.restored.laneTrap = g.laneTrap := (congrArg Group.laneTrap (restored_frame g) :)

/-! ## Where the group resumes (R180, R289, R292) -/

/-- The planes of the offset that are done: those of TPLN, and the trapping one when its word is complete. -/
def Group.resumeDone : BitVec 4 := if resumesNext g.tcause then g.tdone ||| BitVec.ofNat 4 (2 ^ g.tplane.toNat) else g.tdone

/-- The park mark of the offset's words (R49). -/
def Group.resumeMark : Bool := g.trapMark || (resumesNext g.tcause && g.trapOwn)

/-- The plane and the lanes that a word whose cause had this CODE is confined to when it is issued again (log 96). -/
def Group.confined (code : Nat) : Option (Nat × Mask) :=
  if g.laneTrap ∧ (code = 7 ∨ code = 8) then some (g.tplane.toNat, g.tlane) else none

@[simp] theorem resumeDone_restored : g.restored.resumeDone = g.resumeDone := by simp [Group.resumeDone]

@[simp] theorem confined_restored (code : Nat) : g.restored.confined code = g.confined code := by simp [Group.confined]

/-- CODE is the low five bits of TCAUSE. -/
theorem bitsOf_code (v : Nat) : bitsOf v 4 0 = v % 32 := by simp [bitsOf]

theorem resumesNext_eq (tcause : Scalar) : resumesNext tcause = decide (tcause.toNat % 32 = 9 ∨ tcause.toNat % 32 = 13) := by
  rw [resumesNext, bitsOf_code, Bool.decide_or]; rfl

/-- The group back in user mode at the beginning of the offset TOFF. -/
def Group.atToff : Group :=
  { g.restored with
    mode := .user, doneP := 0, occ := none, offGens := [], mark := false, holding := false, early := [], off := g.restored.toff.toNat,
    replay := g.restored.confined (bitsOf g.tcause.toNat 4 0) }

/-- `tret` issues the trapped word again; goes past the offset; or goes on with the planes of the offset that are left. -/
theorem resume_cases :
    (g.resumeDone = 0 ∧ g.resume = g.atToff) ∨
    (g.resumeDone ≠ 0 ∧ g.tocc &&& ~~~g.resumeDone = 0 ∧ g.resume =
      { g.atToff with off := g.restored.toff.toNat + 1, replay := none, wait := if g.resumeMark then .run else .none }) ∨
    (g.resumeDone ≠ 0 ∧ g.tocc &&& ~~~g.resumeDone ≠ 0 ∧ g.resume =
      { g.atToff with occ := some g.restored.tocc, doneP := g.restored.resumeDone, mark := g.resumeMark }) := by
  by_cases h0 : g.resumeDone = 0
  · exact .inl ⟨h0, if_pos ((resumeDone_restored g).trans h0)⟩
  have h0' : ¬ g.restored.resumeDone = 0 := by rwa [resumeDone_restored]
  by_cases h1 : g.tocc &&& ~~~g.resumeDone = 0
  · have h1' : g.restored.tocc &&& ~~~g.restored.resumeDone = 0 := by rwa [restored_tocc, resumeDone_restored]
    exact .inr (.inl ⟨h0, h1, (if_neg h0').trans (if_pos h1')⟩)
  · have h1' : ¬ g.restored.tocc &&& ~~~g.restored.resumeDone = 0 := by rwa [restored_tocc, resumeDone_restored]
    exact .inr (.inr ⟨h0, h1, (if_neg h0').trans (if_neg h1')⟩)

/-- What `tret` leaves alone. -/
theorem resume_frame :
    { g.resume with
      mode := g.mode, off := g.off, doneP := g.doneP, occ := g.occ, offGens := g.offGens, mark := g.mark, holding := g.holding, early := g.early,
      replay := g.replay, wait := g.wait, sregs := g.sregs, results := g.results, gens := g.gens } = g := by
  rcases resume_cases g with ⟨_, hr⟩ | ⟨_, _, hr⟩ | ⟨_, _, hr⟩
  all_goals
    rw [hr]
    have := congrArg (fun x : Group => { x with
      mode := g.mode, off := g.off, doneP := g.doneP, occ := g.occ, offGens := g.offGens, mark := g.mark, holding := g.holding,
      early := g.early, replay := g.replay, wait := g.wait }) (restored_frame g)
    exact this

theorem mode_resume : g.resume.mode = .user := by
  rcases resume_cases g with ⟨_, hr⟩ | ⟨_, _, hr⟩ | ⟨_, _, hr⟩ <;> rw [hr] <;> rfl

theorem sregs_resume : g.resume.sregs = g.restored.sregs := by
  rcases resume_cases g with ⟨_, hr⟩ | ⟨_, _, hr⟩ | ⟨_, _, hr⟩ <;> rw [hr] <;> rfl

/-- The group as `tret` leaves it: a word with a park mark ends its run (R49). -/
def Group.returned (marked : Bool) : Group := { g.resume with wait := if marked then .run else g.resume.wait }

theorem returned_eq (marked : Bool) : g.returned marked = if marked then { g.resume with wait := .run } else g.resume := by
  cases marked <;> rfl

theorem returned_frame (marked : Bool) :
    { g.returned marked with
      mode := g.mode, off := g.off, doneP := g.doneP, occ := g.occ, offGens := g.offGens, mark := g.mark, holding := g.holding, early := g.early,
      replay := g.replay, wait := g.wait, sregs := g.sregs, results := g.results, gens := g.gens } = g := resume_frame g

theorem scalar_returned (marked : Bool) (k : Nat) : (g.returned marked).scalar k = g.restored.scalar k := by
  simp only [Group.scalar, Group.returned, sregs_resume]

/-- Where the group goes on: the three cases of `resume_cases`. -/
theorem returned_resumes (marked : Bool) :
    (g.resumeDone = 0 → (g.returned marked).off = g.toff.toNat ∧ (g.returned marked).occ = none ∧ (g.returned marked).doneP = 0 ∧
      (g.returned marked).replay = g.confined (g.tcause.toNat % 32)) ∧
    (g.resumeDone ≠ 0 → g.tocc &&& ~~~g.resumeDone = 0 → (g.returned marked).off = g.toff.toNat + 1 ∧ (g.returned marked).occ = none ∧
      (g.returned marked).doneP = 0 ∧ (g.returned marked).replay = none ∧ (g.resumeMark = true → (g.returned marked).wait = .run) ∧
      (g.resumeMark = false → marked = false → (g.returned marked).wait = .none)) ∧
    (g.resumeDone ≠ 0 → g.tocc &&& ~~~g.resumeDone ≠ 0 → (g.returned marked).off = g.toff.toNat ∧
      (g.returned marked).occ = some g.tocc ∧ (g.returned marked).doneP = g.resumeDone ∧ (g.returned marked).mark = g.resumeMark ∧
      (g.returned marked).replay = g.confined (g.tcause.toNat % 32)) := by
  rcases resume_cases g with ⟨h0, hr⟩ | ⟨h0, h1, hr⟩ | ⟨h0, h1, hr⟩
  · refine ⟨fun _ => ?_, fun h => absurd h0 h, fun h => absurd h0 h⟩
    simp only [Group.returned, hr, Group.atToff, restored_toff, confined_restored, bitsOf_code, and_self]
  · refine ⟨fun h => absurd h h0, fun _ _ => ?_, fun _ h => absurd h1 h⟩
    simp only [Group.returned, hr, Group.atToff, restored_toff, true_and]
    exact ⟨fun h => by simp [h], fun h hm => by simp [h, hm]⟩
  · refine ⟨fun h => absurd h h0, fun _ h => absurd h h1, fun _ _ => ?_⟩
    simp only [Group.returned, hr, Group.atToff, restored_toff, restored_tocc, resumeDone_restored, confined_restored, bitsOf_code, and_self]

end

/-! ## `tret` (R292, R301, R303) -/

theorem fate_left {t : State} {c : Issue} (h : t.cur = some c) : t.fate .left = Safety.leaves t c := by
  simp only [State.fate, Safety.leaves, h, Option.map_some]

/-- The return of a group that is then discarded: before its restart, or for a preemption that waited for its handler. -/
theorem exec_tret_discarded {s : State} {c : Issue} {g : Group} (h : Ready .tret s c g)
    (hd : g.tcause.setWidth 16 = (0x010E : BitVec 16) ∨ (g.evictSince ≠ none ∧ g.rstate ≠ 2)) :
    exec .tret s = .next (((s.setGroup c.gid (g.returned c.mark)).discard c.gid).fate .left) := by
  refine (word_ready h _).trans (congrArg (fun t : State => Host.Outcome.next (t.fate .left)) ?_)
  rw [returned_eq]
  by_cases hw : g.tcause.setWidth 16 = (0x010E : BitVec 16)
  · exact if_pos hw
  · obtain ⟨he, hs⟩ := hd.resolve_left hw
    exact (if_neg hw).trans (if_pos ⟨Option.isSome_iff_ne_none.mpr he, hs⟩)

theorem exec_tret_resumed {s : State} {c : Issue} {g : Group} (h : Ready .tret s c g)
    (hd : ¬ (g.tcause.setWidth 16 = (0x010E : BitVec 16) ∨ (g.evictSince ≠ none ∧ g.rstate ≠ 2))) :
    exec .tret s = .next (Safety.leaves (s.setGroup c.gid (g.returned c.mark)) c) := by
  obtain ⟨hw, he⟩ := not_or.mp hd
  have hr : exec .tret s = .next ((s.setGroup c.gid (g.returned c.mark)).fate .left) := by
    refine (word_ready h _).trans (congrArg (fun t : State => Host.Outcome.next (t.fate .left)) ?_)
    rw [returned_eq]
    exact (if_neg hw).trans (if_neg fun hx => he ⟨Option.isSome_iff_ne_none.mp hx.1, hx.2⟩)
  exact hr.trans (congrArg _ (fate_left h.atIssue))

/-! ## Issue masks (R176, R292) -/

theorem getLsbD_maskOf (l : List Nat) {j : Nat} (hj : j < 64) : (maskOf l).getLsbD j = decide (j ∈ l) := by
  suffices h : ∀ m : Mask, (l.foldl (fun m i => m ||| BitVec.ofNat 64 (2 ^ i)) m).getLsbD j = (m.getLsbD j || decide (j ∈ l)) by
    simpa [maskOf] using h 0
  induction l with
  | nil => simp
  | cons i l ih =>
    intro m
    rw [List.foldl_cons, ih, BitVec.getLsbD_or, BitVec.getLsbD_ofNat, Nat.testBit_two_pow]
    simp [hj, eq_comm (a := i), Bool.or_assoc]

/-- The lanes that a plane's word issues for in user mode: those of XM that lie in the plane, confined by a replay in its plane. -/
theorem getLsbD_issueMask {g : Group} (hu : g.mode = .user) (p : Nat) {j : Nat} (hj : j < 64) : (g.issueMask p).getLsbD j =
    (decide (j < g.width) && g.xm.getLsbD j && decide (g.planeOf j = p) && match g.replay with
      | some (q, m) => decide (q ≠ p) || m.getLsbD j
      | none => true) := by
  have hp : (maskOf ((lanesOf g.width g.xm).filter fun i => decide (g.planeOf i = p))).getLsbD j =
      (decide (j < g.width) && g.xm.getLsbD j && decide (g.planeOf j = p)) := by
    rw [getLsbD_maskOf _ hj]
    simp [mem_lanesOf, Bool.decide_and]
  unfold Group.issueMask
  rw [hu]
  cases g.replay with
  | none => simp [hp]
  | some e =>
    obtain ⟨q, m⟩ := e
    by_cases hq : q = p <;> simp [hp, hq]

/-- Settles O28: the hidden frame comes back to s20 to s23 (`scalar_restored`), the planes that are left decide where the group goes
on (`resume_cases`), and `tret` leaves everything else alone (`resume_frame`). -/
theorem trapReturn : Obligations.TrapReturn := by
  unfold Obligations.TrapReturn
  refine ⟨?_, fun g p j hj hu => getLsbD_issueMask hu p hj⟩
  intro s c g w20 w21 w22 w23 h hf
  have hk := returned_frame g c.mark
  have hs (k : Nat) := (scalar_returned g c.mark k).trans (scalar_restored hf k)
  have hgo := returned_resumes g c.mark
  simp only [Group.resumeDone, Group.resumeMark, Group.confined, resumesNext_eq] at hgo
  refine ⟨g.returned c.mark, exec_tret_resumed h, exec_tret_discarded h, mode_resume g, hs 20, hs 21, hs 22, hs 23, fun k hk => ?_,
    (congrArg Group.vregs hk :), (congrArg Group.xm hk :), (congrArg Group.cm hk :), (congrArg Group.clk hk :),
    (congrArg Group.stack hk :), fun hm => ?_, hgo⟩
  · rw [hs k, if_neg (by omega), if_neg (by omega), if_neg (by omega), if_neg (by omega)]
  · exact if_pos hm

end Sys2Proof.Machine
end

section
/-! The return of results and loads (R45, R47, R48, R98, R215, R220). -/

namespace Sys2Proof.Machine

open Sys2Proof.Safety

/-! ## Lanes written one after another -/

/-- Lanes of one vector register written in turn. -/
def Group.setLanes (g : Group) (p : Nat) (lanes : List Nat) (f : Nat → Lane) : Group := lanes.foldl (fun g i => g.setLane p i (f i)) g

theorem setLanes_frame (p : Nat) (f : Nat → Lane) (lanes : List Nat) : ∀ g : Group, { g.setLanes p lanes f with vregs := g.vregs } = g := by
  induction lanes with
  | nil => exact fun _ => rfl
  | cons i lanes ih =>
    intro g
    have := congrArg (fun x : Group => { x with vregs := g.vregs }) (ih (g.setLane p i (f i)))
    exact this

theorem vlane_setLane (g : Group) (p : Nat) {i j : Nat} (hi : i < 64) (hj : j < 64) (v : Lane) (q : Nat) :
    (g.setLane p i v).vlane q j = if q = p ∧ j = i then v else g.vlane q j := by
  split_ifs with h
  · obtain ⟨rfl, rfl⟩ := h
    simp [Group.vlane, Group.setLane]
  · have hk : 64 * q + j ≠ 64 * p + i := by omega
    simp [Group.vlane, Group.setLane, Table.at?_put_other _ _ hk]

theorem vlane_setLanes (p : Nat) (f : Nat → Lane) (lanes : List Nat) (hl : ∀ i ∈ lanes, i < 64) (q : Nat) {j : Nat} (hj : j < 64) :
    ∀ g : Group, (g.setLanes p lanes f).vlane q j = if q = p ∧ j ∈ lanes then f j else g.vlane q j := by
  induction lanes with
  | nil => simp [Group.setLanes]
  | cons i lanes ih =>
    intro g
    have hi := hl i List.mem_cons_self
    have hstep : (g.setLanes p (i :: lanes) f).vlane q j = ((g.setLane p i (f i)).setLanes p lanes f).vlane q j := rfl
    rw [hstep, ih (fun k hk => hl k (List.mem_cons_of_mem _ hk)), vlane_setLane g p hi hj]
    by_cases hji : j = i
    · subst hji
      by_cases hq : q = p <;> simp [hq]
    · simp [hji]

/-! ## One register of a returning result (R47, R48) -/

section
variable {g : Group} {r : Result} {k key : Nat}

theorem writeResult_of_not (h : ¬ stillWrites g r k key) : g.writeResult r k key = g := by
  refine if_neg fun hx => h ⟨hx.1, ?_⟩
  simpa using hx.2

/-- The register is still the result's. -/
theorem writeResult_of (h : stillWrites g r k key) : g.writeResult r k key =
    if key = 2048 then { g with cm := widthMask g.width (r.svals.getD k 0) }
    else if 1024 ≤ key then g.setScalar (key - 1024) (r.svals.getD k 0)
    else g.setLanes key (lanesOf g.width r.mask) fun i => (r.vals.at? (64 * k + i)).getD 0 :=
  if_pos ⟨h.1, by simpa using h.2⟩

theorem writeResult_cases (g : Group) (r : Result) (k key : Nat) : g.writeResult r k key = g ∨ (stillWrites g r k key ∧
    (key = 2048 ∧ g.writeResult r k key = { g with cm := widthMask g.width (r.svals.getD k 0) } ∨
      key ≠ 2048 ∧ 1024 ≤ key ∧ g.writeResult r k key = g.setScalar (key - 1024) (r.svals.getD k 0) ∨
      key < 1024 ∧ g.writeResult r k key = g.setLanes key (lanesOf g.width r.mask) fun i => (r.vals.at? (64 * k + i)).getD 0)) := by
  by_cases hs : stillWrites g r k key
  · refine .inr ⟨hs, ?_⟩
    rw [writeResult_of hs]
    split_ifs with h1 h2
    · exact .inl ⟨h1, rfl⟩
    · exact .inr (.inl ⟨h1, h2, rfl⟩)
    · exact .inr (.inr ⟨by omega, rfl⟩)
  · exact .inl (writeResult_of_not hs)

/-- It changes vector registers, scalars or CM, and nothing else. -/
theorem writeResult_frame (g : Group) (r : Result) (k key : Nat) :
    { g.writeResult r k key with vregs := g.vregs, sregs := g.sregs, cm := g.cm } = g := by
  rcases writeResult_cases g r k key with h | ⟨_, ⟨_, h⟩ | ⟨_, _, h⟩ | ⟨_, h⟩⟩ <;> rw [h]
  · rfl
  · have := congrArg (fun x : Group => { x with sregs := g.sregs, cm := g.cm }) (setLanes_frame key
      (fun i => (r.vals.at? (64 * k + i)).getD 0) (lanesOf g.width r.mask) g)
    exact this

/-- Lanes that a mask names are below 64. -/
theorem lt_of_mem_lanesOf {w i : Nat} {m : Mask} (h : i ∈ lanesOf w m) : i < 64 := by
  by_contra hge
  have := (mem_lanesOf.mp h).2
  simp [BitVec.getLsbD_of_ge m i (by omega)] at this

open Classical in
/-- A vector register takes the result in the lanes of its mask. -/
theorem writeResult_vec (hk : key < 1024) : (g.writeResult r k key).sregs = g.sregs ∧ (g.writeResult r k key).cm = g.cm ∧
    ∀ q i, i < 64 → (g.writeResult r k key).vlane q i =
      if q = key ∧ stillWrites g r k key ∧ i < g.width ∧ r.mask.getLsbD i = true then (r.vals.at? (64 * k + i)).getD 0
      else g.vlane q i := by
  by_cases hs : stillWrites g r k key
  · rw [writeResult_of hs, if_neg (by omega), if_neg (by omega)]
    have hf := setLanes_frame key (fun i => (r.vals.at? (64 * k + i)).getD 0) (lanesOf g.width r.mask) g
    refine ⟨(congrArg Group.sregs hf :), (congrArg Group.cm hf :), fun q i hi => ?_⟩
    rw [vlane_setLanes _ _ _ (fun _ => lt_of_mem_lanesOf) q hi]
    simp [hs, mem_lanesOf]
  · rw [writeResult_of_not hs]
    simp [hs]

open Classical in
/-- A scalar takes the result. -/
theorem writeResult_scal (hk : 1024 ≤ key) (hk' : key < 2048) : (g.writeResult r k key).vregs = g.vregs ∧
    (g.writeResult r k key).cm = g.cm ∧ ∀ j, (g.writeResult r k key).scalar j =
      if 1024 + j = key ∧ stillWrites g r k key then r.svals.getD k 0 else g.scalar j := by
  by_cases hs : stillWrites g r k key
  · rw [writeResult_of hs, if_neg (by omega), if_pos hk]
    refine ⟨rfl, rfl, fun j => ?_⟩
    by_cases hj : 1024 + j = key
    · obtain rfl : key - 1024 = j := by omega
      rw [if_pos ⟨hj, hs⟩, scalar_setScalar_same]
    · rw [if_neg fun h => hj h.1, scalar_setScalar_other _ _ (by omega)]
  · rw [writeResult_of_not hs]
    simp [hs]

end

/-! ## All registers of a returning result (R48) -/

/-- The registers of a result's destination written in turn. -/
def Group.written (g : Group) (r : Result) : Group := r.dest.keys.zipIdx.foldl (fun g e => g.writeResult r e.2 e.1) g

/-- The first `n` registers from key `b` on written in turn. -/
def Group.writtenFrom (g : Group) (r : Result) (b n : Nat) : Group := (List.range n).foldl (fun g k => g.writeResult r k (b + k)) g

theorem writtenFrom_succ (g : Group) (r : Result) (b n : Nat) :
    g.writtenFrom r b (n + 1) = (g.writtenFrom r b n).writeResult r n (b + n) := by
  simp [Group.writtenFrom, List.range_succ]

theorem zipIdx_range (b n : Nat) : ((List.range n).map (b + ·)).zipIdx = (List.range n).map fun k => (b + k, k) := by
  induction n with
  | zero => rfl
  | succ n ih => simp [List.range_succ, List.zipIdx_append, ih]

section
variable (g : Group) {r : Result}

theorem written_vec {p n : Nat} (h : r.dest = .vec p n) : g.written r = g.writtenFrom r p n := by
  simp only [Group.written, h, Dest.keys, zipIdx_range, List.foldl_map, Group.writtenFrom]

theorem written_scal {p n : Nat} (h : r.dest = .scal p n) : g.written r = g.writtenFrom r (1024 + p) n := by
  simp only [Group.written, h, Dest.keys, zipIdx_range, List.foldl_map, Group.writtenFrom]

theorem written_cm (h : r.dest = .cm) : g.written r = g.writeResult r 0 2048 := by
  simp only [Group.written, h, Dest.keys]; rfl

theorem written_nul (h : r.dest = .nul) : g.written r = g := by
  simp only [Group.written, h, Dest.keys]; rfl

theorem written_frame (r : Result) : { g.written r with vregs := g.vregs, sregs := g.sregs, cm := g.cm } = g := by
  suffices h : ∀ (l : List (Nat × Nat)) (x : Group), { x with vregs := g.vregs, sregs := g.sregs, cm := g.cm } = g →
      { l.foldl (fun g e => g.writeResult r e.2 e.1) x with vregs := g.vregs, sregs := g.sregs, cm := g.cm } = g from h _ g rfl
  intro l
  induction l with
  | nil => exact fun _ h => h
  | cons e l ih =>
    intro x hx
    have := congrArg (fun y : Group => { y with vregs := g.vregs, sregs := g.sregs, cm := g.cm }) (writeResult_frame x r e.2 e.1)
    exact ih _ (this.trans hx)

theorem writtenFrom_frame (r : Result) (b n : Nat) :
    { g.writtenFrom r b n with vregs := g.vregs, sregs := g.sregs, cm := g.cm } = g := by
  induction n with
  | zero => rfl
  | succ n ih =>
    have := congrArg (fun y : Group => { y with vregs := g.vregs, sregs := g.sregs, cm := g.cm })
      (writeResult_frame (g.writtenFrom r b n) r n (b + n))
    rw [writtenFrom_succ]
    exact this.trans ih

/-- What a result writes of a group is decided by the group's generations, which writing leaves alone. -/
theorem stillWrites_writtenFrom (r : Result) (b n k key : Nat) : stillWrites (g.writtenFrom r b n) r k key ↔ stillWrites g r k key := by
  have hg : (g.writtenFrom r b n).gens = g.gens := (congrArg Group.gens (writtenFrom_frame g r b n) :)
  simp only [stillWrites, Group.genOf, hg]

open Classical in
theorem writtenFrom_vec (r : Result) {p n : Nat} (hn : p + n ≤ 1024) : (g.writtenFrom r p n).sregs = g.sregs ∧
    (g.writtenFrom r p n).cm = g.cm ∧ ∀ q i, i < 64 → (g.writtenFrom r p n).vlane q i =
      if p ≤ q ∧ q < p + n ∧ stillWrites g r (q - p) q ∧ i < g.width ∧ r.mask.getLsbD i = true
      then (r.vals.at? (64 * (q - p) + i)).getD 0 else g.vlane q i := by
  induction n with
  | zero => exact ⟨rfl, rfl, fun q i _ => (if_neg (by omega)).symm⟩
  | succ n ih =>
    obtain ⟨hs, hc, hv⟩ := ih (by omega)
    have hw : (g.writtenFrom r p n).width = g.width := (congrArg Group.width (writtenFrom_frame g r p n) :)
    obtain ⟨hs', hc', hv'⟩ := writeResult_vec (g := g.writtenFrom r p n) (r := r) (k := n) (key := p + n) (by omega)
    rw [writtenFrom_succ]
    refine ⟨hs'.trans hs, hc'.trans hc, fun q i hi => ?_⟩
    rw [hv' q i hi, hv q i hi, hw, stillWrites_writtenFrom]
    by_cases hq : q = p + n
    · subst hq
      have hle : p ≤ p + n := by omega
      have hlt : p + n < p + (n + 1) := by omega
      simp [hle, hlt]
    · have hlt : q < p + (n + 1) ↔ q < p + n := by omega
      simp [hq, hlt]

open Classical in
theorem writtenFrom_scal (r : Result) {p n : Nat} (hn : p + n ≤ 1024) : (g.writtenFrom r (1024 + p) n).vregs = g.vregs ∧
    (g.writtenFrom r (1024 + p) n).cm = g.cm ∧ ∀ j, (g.writtenFrom r (1024 + p) n).scalar j =
      if p ≤ j ∧ j < p + n ∧ stillWrites g r (j - p) (1024 + j) then r.svals.getD (j - p) 0 else g.scalar j := by
  induction n with
  | zero => exact ⟨rfl, rfl, fun j => (if_neg (by omega)).symm⟩
  | succ n ih =>
    obtain ⟨hv, hc, hs⟩ := ih (by omega)
    obtain ⟨hv', hc', hs'⟩ := writeResult_scal (g := g.writtenFrom r (1024 + p) n) (r := r) (k := n) (key := 1024 + p + n)
      (by omega) (by omega)
    rw [writtenFrom_succ]
    refine ⟨hv'.trans hv, hc'.trans hc, fun j => ?_⟩
    rw [hs' j, hs j, stillWrites_writtenFrom]
    by_cases hj : j = p + n
    · subst hj
      have hle : p ≤ p + n := by omega
      have hlt : p + n < p + (n + 1) := by omega
      simp [hle, hlt, Nat.add_assoc]
    · have hlt : j < p + (n + 1) ↔ j < p + n := by omega
      have hne : 1024 + j ≠ 1024 + p + n := by omega
      simp [hne, hlt]

theorem deliver_eq (r : Result) :
    g.deliver r = (({ g with results := g.results.filter fun x => x.seq ≠ r.seq } : Group).written r).mergeFlags r.flags := rfl

/-- A result delivered has returned. -/
theorem returned_deliver (r : Result) : Returned g (g.deliver r) r := by
  rw [deliver_eq]
  set x : Group := { g with results := g.results.filter fun y => y.seq ≠ r.seq }
  have hf := written_frame x r
  refine ⟨(congrArg Group.results hf :), ?_, fun p n hd hn => ?_, fun p n hd hn => ?_, fun hd => ?_, fun hd => ?_, ?_⟩
  · have hflags : (x.written r).flags = g.flags := (congrArg Group.flags hf :)
    simp only [Group.mergeFlags, hflags]
  · rw [written_vec x hd]
    obtain ⟨hs, hc, hv⟩ := writtenFrom_vec x r hn
    refine ⟨fun j => congrArg (fun t : Table Scalar => (t.at? j).getD 0) hs, hc, fun k i hi => ⟨fun hk hw hi' hm => ?_, fun hno => ?_, fun q hq => ?_⟩⟩
    · have := hv (p + k) i hi
      rw [Nat.add_sub_cancel_left, if_pos ⟨by omega, by omega, hw, hi', hm⟩] at this
      exact this
    · have := hv (p + k) i hi
      rw [Nat.add_sub_cancel_left, if_neg fun h => hno ⟨by omega, h.2.2⟩] at this
      exact this
    · have := hv q i hi
      rw [if_neg (by omega)] at this
      exact this
  · rw [written_scal x hd]
    obtain ⟨hv, hc, hs⟩ := writtenFrom_scal x r hn
    exact ⟨hv, hc, fun j => ⟨fun h1 h2 h3 => (hs j).trans (if_pos ⟨h1, h2, h3⟩), fun hno => (hs j).trans (if_neg hno)⟩⟩
  · rw [written_cm x hd]
    by_cases hw : stillWrites x r 0 2048
    · rw [writeResult_of hw, if_pos rfl]
      exact ⟨rfl, rfl, fun _ => rfl, fun h => absurd hw h⟩
    · rw [writeResult_of_not hw]
      exact ⟨rfl, rfl, fun h => absurd h hw, fun _ => rfl⟩
  · rw [written_nul x hd]
    exact ⟨rfl, rfl, rfl⟩
  · have := congrArg (fun y : Group => { y with results := g.results, flags := g.flags }) hf
    exact this

end

/-! ## Returns of results and loads (R48, R215, R220) -/

theorem exec_resultReturn {s : State} {gid k : Nat} {g : Group} {r : Result} (hg : s.groupAt gid = some g) (hr : g.results[k]? = some r)
    (h : s.resultReady gid g r = true) : exec (.resultReturn gid k) s = .next (s.setGroup gid (g.deliver r)) := by
  change execResultReturn gid k s = _
  simp only [execResultReturn, hg, hr, h, if_true]

/-- A load that meets no poison, or whose result writes no register, returns to its group. -/
theorem exec_loadReturn {s : State} {seq : Nat} {g : Group} {r : Result} {x : Load}
    (hx : s.loads.find? (fun y => decide (y.seq = seq)) = some x) (hg : s.groupAt x.gid = some g)
    (hr : g.results.find? (fun r => decide (r.seq = seq)) = some r) (hl : s.loadReady x = true)
    (hd : s.resultReady x.gid g { r with ready := true } = true)
    (hp : (s.performLoad g.ctx g.core x).2.poison = none ∨ g.writesOf r = false) :
    exec (.loadReturn seq) s = .next
      (({ (s.performLoad g.ctx g.core x).1 with
          loads := (s.performLoad g.ctx g.core x).1.loads.filter fun z : Load => decide (z.seq ≠ seq) } : State).setGroup
        (s.performLoad g.ctx g.core x).2.gid
        ((g.loadClock (s.performLoad g.ctx g.core x).2).deliver (r.fill (s.performLoad g.ctx g.core x).2))) := by
  have hc : (if g.writesOf r then (s.performLoad g.ctx g.core x).2.poison else none) = none := by
    rcases hp with hp | hp
    · rw [hp, ite_self]
    · rw [hp]; rfl
  change execLoadReturn seq s = _
  simp only [execLoadReturn, hx, hg, hr, hl, hd, hc]
  rfl

/-- What a load does to the clock and the hit count of its group. -/
theorem loadClock_spec (g : Group) (y : Load) : 
    let hit : Prop := y.hit = true ∧ ∃ l ∈ y.lanes, l.place.isGlobal = true
    let g' := g.loadClock y
    g'.clk = max g.clk y.w ∧ (hit → g'.hits = g.hits + 1 ∧ (g'.tickDue = true ↔ g.tickDue = true ∨ g.atick.toNat ≤ g.hits + 1)) ∧
      (¬ hit → g'.hits = g.hits ∧ g'.tickDue = g.tickDue) ∧
      { g' with clk := g.clk, hits := g.hits, tickDue := g.tickDue } = g := by
  have hhit : (y.hit && y.lanes.any fun l => l.place.isGlobal) = true ↔ y.hit = true ∧ ∃ l ∈ y.lanes, l.place.isGlobal = true := by simp
  refine ⟨rfl, fun h => ?_, fun h => ?_, rfl⟩
  · have hb := hhit.mpr h
    simp only [Group.loadClock, hb]
    simp
  · have hb := Bool.eq_false_iff.mpr fun hb => h (hhit.mp hb)
    simp only [Group.loadClock, hb]
    simp

/-- Settles O45: what comes back is delivered (`returned_deliver`), a load's after its clock and its hits (`loadClock_spec`). -/
theorem resultsReturn : Obligations.ResultsReturn := by
  unfold Obligations.ResultsReturn
  refine ⟨fun s gid k g r hg hr h => ⟨_, returned_deliver g r, exec_resultReturn hg hr h⟩,
    fun s seq g r x hx hg hr hl hd hp => ⟨_, returned_deliver _ _, exec_loadReturn hx hg hr hl hd hp⟩, loadClock_spec⟩

end Sys2Proof.Machine
end

section
/-! The control registers: reads, writes, and the accesses that are refused (R40 to R43, R56, R98, R322). -/

namespace Sys2Proof.Machine

open Sys2Proof.Safety

/-! ## `ctlrd` (R40 to R43) -/

/-- A control register whose value is `v` is read so. -/
theorem ctlrd_reads {d : Reg} {l : BitVec 7} {v : State → Group → Scalar} (h : ∀ s g, s.ctlValue g l.toNat = v s g) :
    ScalarWord (.ctlrd d l) d fun s _ g => v s g := by
  refine scalarWord_of fun s => ?_
  simp only [← h]
  rfl

theorem toNat_append_add {m n : Nat} (x : BitVec m) (y : BitVec n) : (x ++ y).toNat = x.toNat * 2 ^ n + y.toNat := by
  rw [BitVec.toNat_append, ← Nat.shiftLeft_add_eq_or_of_lt y.isLt, Nat.shiftLeft_eq]

section
variable (s : State) (g : Group)

theorem ctlValue_gctl : s.ctlValue g 0x00 = BitVec.ofNat 64
    (g.rmode.toNat + (if g.ftz then 4 else 0) + 16 * (if g.planes = 1 then 0 else if g.planes = 2 then 1 else 2) +
      64 * (if g.width = 16 then 0 else if g.width = 32 then 1 else 2)) := by
  have h : s.ctlValue g 0x00 = BitVec.ofNat 64 g.gctl := rfl
  rw [h, Group.gctl, widthCode, planeCode]
  congr 1
  ring

theorem ctlValue_tpln : s.ctlValue g 0x0A = (g.tdone ++ (0 : BitVec 2) ++ g.tplane ++ g.tocc).zeroExtend 64 := by
  have h : s.ctlValue g 0x0A = BitVec.ofNat 64 g.tpln := rfl
  have hd := g.tdone.isLt
  have hp := g.tplane.isLt
  have ho := g.tocc.isLt
  rw [h, Group.tpln]
  apply BitVec.eq_of_toNat_eq
  simp only [BitVec.zeroExtend, BitVec.toNat_setWidth, BitVec.ofNat_eq_ofNat, BitVec.toNat_ofNat, toNat_append_add]
  omega

theorem ctlValue_mbat : s.ctlValue g 0x0D = BitVec.ofNat 64 (g.mlast.toNat + 16 * g.batches.length) := by
  have h : s.ctlValue g 0x0D = BitVec.ofNat 64 (g.batches.length * 2 ^ 4 + g.mlast.toNat) := rfl
  rw [h]
  congr 1
  ring

theorem ctlValue_eclass : s.ctlValue g 0x12 = match (s.contextAt g.ctx).eclass with
    | none => 0
    | some (source, cls) => BitVec.ofNat 64 (4096 + 256 * source + cls) := by
  have h : s.ctlValue g 0x12 = (s.contextAt g.ctx).eclassWord := rfl
  rw [h, Context.eclassWord]
  cases (s.contextAt g.ctx).eclass with
  | none => rfl
  | some e => 
    obtain ⟨source, cls⟩ := e
    have : 2 ^ 12 + source * 2 ^ 8 + cls = 4096 + 256 * source + cls := by ring
    simp only [this]

end

/-! ## `ctlwr` (R41, R98) -/

theorem exec_ctlwr {a : Reg} {l : BitVec 7} {s : State} {c : Issue} {g : Group} (h : Ready (.ctlwr a l) s c g) :
    exec (.ctlwr a l) s = .next (s.ctlPut c g l.toNat (g.srcS .a a)) := word_ready h _

/-- A control register whose write replaces the group. -/
theorem ctlwr_writes {a : Reg} {l : BitVec 7} {f : Group → Group}
    (h : ∀ s c g, State.ctlPut s c g l.toNat (g.srcS .a a) = s.setGroup c.gid (f g)) : GroupWord (.ctlwr a l) fun _ _ g => f g :=
  fun _ _ _ hr => (exec_ctlwr hr).trans (congrArg _ (h ..))

section
variable (s : State) (c : Issue) (g : Group) (v : Scalar)

/-- RGNOFF of a group that has no slot. -/
theorem ctlPut_rgnoff (h : s.slotOf g = 0) : s.ctlPut c g 0x04 v = s.setGroup c.gid { g with rgnoff := v.extractLsb' 0 20 } := if_pos h

/-- A word's own write that no severed port holds up is performed. -/
theorem landWrites_single {gid clk : Nat} {e : Flight} (hc : s.cuts = []) (he : s.flightsOf gid = [e]) :
    s.landWrites gid clk = ((s.land gid).writePlaces e.ctx e.va e.pieces (e.bytes.getD []) clk).1 := by
  have hu : s.unanswered e.seq = fun _ => false := by
    funext p
    simp [State.unanswered, hc]
  simp only [State.landWrites, he, List.foldl_cons, List.foldl_nil, hu]
  rfl

/-- RGNOFF and its copy in the slot, once the slot's home has the line. -/
theorem ctlPut_rgnoff_writing {e : Flight} (h : s.slotOf g ≠ 0) (hw : g.wait = .writing) (hc : s.cuts = []) (he : s.flightsOf c.gid = [e]) :
    s.ctlPut c g 0x04 v = (((s.setGroup c.gid { g with rgnoff := v.extractLsb' 0 20, wait := .none }).land c.gid).writePlaces e.ctx e.va e.pieces
      (e.bytes.getD []) g.clk).1 := by
  refine ((if_neg h).trans (if_pos hw)).trans ?_
  exact landWrites_single (s.setGroup c.gid _) hc he

theorem ctlPut_rgnoff_ready {p : List (Place × Nat × Nat)} (h : s.slotOf g ≠ 0) (hw : g.wait ≠ .writing)
    (hp : s.placesOf g.ctx (s.slotOf g + 28) 4 true = .ok p) (hr : s.placesReady g.ctx p true = true) (hl : s.slotLeft c.gid = false) :
    s.ctlPut c g 0x04 v = ((s.setGroup c.gid { g with rgnoff := v.extractLsb' 0 20, wait := .none }).writePlaces g.ctx (s.slotOf g + 28) p
      (toBytes v.toNat 4) g.clk).1 := by
  refine ((if_neg h).trans (if_neg hw)).trans ?_
  simp only [hp, hr, hl]
  rfl

theorem askAll_cur (ctx : Nat) (own : Bool) (ps : List Place) : ∀ t : State, (t.askAll ctx ps own).cur = t.cur := by
  induction ps with
  | nil => exact fun _ => rfl
  | cons p ps ih => exact fun t => ih (t.ask ctx p own)

theorem takeOff_cur (ctx who va : Nat) (ps : List (Place × Nat × Nat)) (bytes : Option (List Byte)) :
    (s.takeOff ctx who va ps bytes).cur = s.cur := askAll_cur ..

variable {s c} in
theorem ctlPut_rgnoff_waits {p : List (Place × Nat × Nat)} (hcur : s.cur = some c) (h : s.slotOf g ≠ 0) (hw : g.wait ≠ .writing)
    (hp : s.placesOf g.ctx (s.slotOf g + 28) 4 true = .ok p) (hr : s.placesReady g.ctx p true = false ∨ s.slotLeft c.gid = true) :
    s.ctlPut c g 0x04 v = waits (s.takeOff g.ctx c.gid (s.slotOf g + 28) p (some (toBytes v.toNat 4))) c g .writing := by
  have hn : (!s.placesReady g.ctx p true || s.slotLeft c.gid) = true := by rcases hr with hr | hr <;> simp [hr]
  refine ((if_neg h).trans (if_neg hw)).trans ?_
  simp only [hp, hn, if_true]
  exact hold_waits ((takeOff_cur ..).trans hcur) g .writing

end

/-! ## Refused accesses (R40, R41, R56) -/

section
variable {s : State} {c : Issue} {g : Group} (hc : s.cur = some c) (hg : s.groupAt c.gid = some g)

section
variable {write : Bool} {l : BitVec 7} {v : Scalar} {r w : Bool} (hl : l.toNat < 0x13)
include hl

theorem ctlDetail_denied (ha : ctlAccess g.mode l.toNat = (false, w)) : ctlDetail g write l v = some 0x08 := by
  cases write <;> simp [ctlDetail, ha, Nat.not_le.mpr hl]

theorem ctlDetail_readOnly (ha : ctlAccess g.mode l.toNat = (true, false)) : ctlDetail g true l v = some 0x06 := by
  simp [ctlDetail, ha, Nat.not_le.mpr hl]

theorem ctlDetail_badValue (ha : ctlAccess g.mode l.toNat = (true, true)) (hb : ctlBadValue l.toNat v = true) :
    ctlDetail g true l v = some 0x0A := by
  simp [ctlDetail, ha, hb, Nat.not_le.mpr hl]

theorem ctl_detail_none : (Operand.ctl l).detail = none := by
  simp [Operand.detail, Nat.not_le.mpr hl, Nat.not_le.mpr (hl.trans (by decide : 0x13 < 64))]

end

theorem lowerDetail_none (x : Option (BitVec 8)) : lowerDetail x none = x := by cases x <;> rfl

/-- What a control register word is refused for, with its register field in order: its index, or the access (R56). -/
theorem illegalDetail_ctl {i : Instr} {k : Kind} {f : Reg} {l : BitVec 7} {x : Option (BitVec 8)} (hi : i.operands = [.reg k f, .ctl l])
    (hk : k.detail f = none) (hs : stateDetail s g i = x) : illegalDetail s g i = lowerDetail (Operand.ctl l).detail x := by
  have hd : i.detail = lowerDetail (k.detail f) (lowerDetail (Operand.ctl l).detail none) := by rw [Instr.detail, hi]; rfl
  rw [illegalDetail, hd, hk, lowerDetail_none, hs]
  rfl

theorem kind_of_detail_ctlrd {d : Reg} (h : (Instr.ctlrd d 0).detail = none) : Kind.sd.detail d = none :=
  (lowerDetail_none _).symm.trans h

theorem kind_of_detail_ctlwr {a : Reg} (h : (Instr.ctlwr a 0).detail = none) : Kind.ss.detail a = none :=
  (lowerDetail_none _).symm.trans h

/-- A scalar field names no vector register. -/
theorem stateDetail_ctlrd (d : Reg) (l : BitVec 7) : stateDetail s g (.ctlrd d l) = ctlDetail g false l 0 := by
  have hw : wordVectors (.ctlrd d l) = [] := by cases d <;> rfl
  simp only [stateDetail, hw]
  rfl

theorem stateDetail_ctlwr (a : Reg) (l : BitVec 7) : stateDetail s g (.ctlwr a l) = ctlDetail g true l (g.srcS .a a) := by
  have hw : wordVectors (.ctlwr a l) = [] := by cases a <;> rfl
  simp only [stateDetail, hw]
  rfl

theorem ctlrd_operands (d : Reg) (l : BitVec 7) : (Instr.ctlrd d l).operands = [.reg .sd d, .ctl l] := rfl
theorem ctlwr_operands (a : Reg) (l : BitVec 7) : (Instr.ctlwr a l).operands = [.reg .ss a, .ctl l] := rfl

/-- An assigned register, whose access is refused. -/
theorem illegalDetail_access {i : Instr} {k : Kind} {f : Reg} {l : BitVec 7} {x : BitVec 8} (hi : i.operands = [.reg k f, .ctl l])
    (hk : k.detail f = none) (hl : l.toNat < 0x13) (hs : stateDetail s g i = some x) : illegalDetail s g i = some x := by
  rw [illegalDetail_ctl hi hk hs, ctl_detail_none hl]
  rfl

/-- A reserved index. -/
theorem illegalDetail_reserved {i : Instr} {k : Kind} {f : Reg} {l : BitVec 7} {write : Bool} {v : Scalar}
    (hi : i.operands = [.reg k f, .ctl l]) (hk : k.detail f = none) (h1 : 0x13 ≤ l.toNat) (h2 : l.toNat < 0x40)
    (hs : stateDetail s g i = ctlDetail g write l v) : illegalDetail s g i = some 0x09 := by
  have hn : ctlDetail g write l v = none := if_pos h1
  have hd : (Operand.ctl l).detail = some 0x09 := (if_neg (by omega)).trans (if_pos h1)
  rw [illegalDetail_ctl hi hk (hs.trans hn), hd]
  rfl

include hc hg

theorem refused_ctlrd {d : Reg} {l : BitVec 7} {x : BitVec 8} (h : illegalDetail s g (.ctlrd d l) = some x) :
    exec (.ctlrd d l) s = .next (s.trapWord c g 1 x.toNat (BitVec.ofNat 64 c.addr) 0) :=
  word_illegal hc hg (not_excused (.inr rfl) (fun _ _ h => by cases h)) h _

theorem refused_ctlwr {a : Reg} {l : BitVec 7} {x : BitVec 8} (h : illegalDetail s g (.ctlwr a l) = some x) :
    exec (.ctlwr a l) s = .next (s.trapWord c g 1 x.toNat (BitVec.ofNat 64 c.addr) 0) :=
  word_illegal hc hg (not_excused (.inr rfl) (fun _ _ h => by cases h)) h _

section
variable {a : Reg} (hk : Kind.ss.detail a = none) {l : BitVec 7} (hl : l.toNat < 0x13)
include hk hl

theorem ctlwr_denied {w : Bool} (ha : ctlAccess g.mode l.toNat = (false, w)) :
    exec (.ctlwr a l) s = .next (s.trapWord c g 1 0x08 (BitVec.ofNat 64 c.addr) 0) :=
  refused_ctlwr (x := 0x08) hc hg (illegalDetail_access (ctlwr_operands a l) hk hl ((stateDetail_ctlwr a l).trans (ctlDetail_denied hl ha)))

theorem ctlwr_readOnly (ha : ctlAccess g.mode l.toNat = (true, false)) :
    exec (.ctlwr a l) s = .next (s.trapWord c g 1 0x06 (BitVec.ofNat 64 c.addr) 0) :=
  refused_ctlwr (x := 0x06) hc hg (illegalDetail_access (ctlwr_operands a l) hk hl ((stateDetail_ctlwr a l).trans (ctlDetail_readOnly hl ha)))

theorem ctlwr_badValue (ha : ctlAccess g.mode l.toNat = (true, true)) (hb : ctlBadValue l.toNat (g.srcS .a a) = true) :
    exec (.ctlwr a l) s = .next (s.trapWord c g 1 0x0A (BitVec.ofNat 64 c.addr) 0) :=
  refused_ctlwr (x := 0x0A) hc hg (illegalDetail_access (ctlwr_operands a l) hk hl ((stateDetail_ctlwr a l).trans (ctlDetail_badValue hl ha hb)))

end

/-- `tret` in user mode. -/
theorem refused_tret (hu : g.mode = .user) : exec .tret s = .next (s.trapWord c g 1 0x08 (BitVec.ofNat 64 c.addr) 0) := by
  have hd : illegalDetail s g .tret = some 0x08 := by
    have hs : stateDetail s g .tret = some 0x08 := by simp only [stateDetail, hu]; rfl
    rw [illegalDetail, hs]
    rfl
  exact word_illegal hc hg (not_excused (.inr rfl) (fun _ _ h => by cases h)) hd _

end

/-! ## Values out of range (R41 to R43) -/

section
variable {v : Scalar}

theorem gctl_badValue (h : 2 ^ 8 ≤ v.toNat ∨ v.toNat / 2 ^ 3 % 2 = 1) : ctlBadValue 0x00 v = true := by
  have hb : v.getLsbD 3 = decide (v.toNat / 2 ^ 3 % 2 = 1) := Nat.testBit_eq_decide_div_mod_eq
  simp only [ctlBadValue, hb, Bool.or_eq_true, decide_eq_true_eq]
  omega

theorem lease_badValue (h : 2 ^ 8 ≤ v.toNat ∨ v.toNat % 2 ^ 8 = 0) : ctlBadValue 0x01 v = true := by
  simp only [ctlBadValue, Bool.or_eq_true, decide_eq_true_eq]
  omega

theorem base_badValue (h : v.toNat % 2 ^ 8 ≠ 0) : ctlBadValue 0x03 v = true := decide_eq_true h

theorem offset_badValue (h : 2 ^ 20 ≤ v.toNat) : ctlBadValue 0x04 v = true := by
  simp only [ctlBadValue, decide_eq_true_eq]
  omega

theorem tcause_badValue (h : 2 ^ 16 ≤ v.toNat ∨ v.toNat / 2 ^ 5 % 2 ^ 3 ≠ 0 ∨ 16 ≤ v.toNat % 2 ^ 5) : ctlBadValue 0x06 v = true := by
  have hd : bitsOf v.toNat 7 5 = v.toNat / 32 % 8 := rfl
  have hc : bitsOf v.toNat 4 0 = v.toNat / 1 % 32 := rfl
  simp only [ctlBadValue, hd, hc, Bool.or_eq_true, decide_eq_true_eq]
  omega

theorem tpln_badValue (h : 2 ^ 12 ≤ v.toNat ∨ v.toNat / 2 ^ 6 % 2 ^ 2 ≠ 0) : ctlBadValue 0x0A v = true := by
  have hb : bitsOf v.toNat 7 6 = v.toNat / 64 % 4 := rfl
  simp only [ctlBadValue, hb, Bool.or_eq_true, decide_eq_true_eq]
  omega

theorem flags_badValue (h : 2 ^ 5 ≤ v.toNat) : ctlBadValue 0x10 v = true := by
  simp only [ctlBadValue, decide_eq_true_eq]
  omega

end

/-! ## What the trap of a refused access records (R289, R290) -/

/-- `g'` holds in its trap registers what a trap at `g` records, and every other control register as `g` does. -/
def Recorded (g : Group) (cause : Scalar) (plane : Nat) (taddr : Scalar) (tlane : Mask) (g' : Group) : Prop :=
  g'.tcause = cause ∧ g'.taddr = taddr ∧ g'.tlane = tlane ∧ g'.toff = BitVec.ofNat 20 g.off ∧ g'.tplane = BitVec.ofNat 2 plane ∧
  g'.tdone = g.doneP ∧ g'.tocc = g.occ.getD 0 ∧ g'.rmode = g.rmode ∧ g'.ftz = g.ftz ∧ g'.lease = g.lease ∧ g'.atick = g.atick ∧
  g'.rgnoff = g.rgnoff ∧ g'.stack = g.stack ∧ g'.winb = g.winb ∧ g'.mlast = g.mlast ∧ g'.batches = g.batches ∧ g'.flags = g.flags

theorem recorded_writeNow {g x : Group} {cause : Scalar} {plane : Nat} {taddr : Scalar} {tlane : Mask} (k : Nat) (v : Scalar)
    (h : Recorded g cause plane taddr tlane x) : Recorded g cause plane taddr tlane (x.writeNow k v) := h

/-- A trap in user mode replaces the group alone, by one that holds what the trap records. -/
theorem trapWord_user {s : State} {c : Issue} {g : Group} (hu : g.mode = .user) (ht : (s.contextAt g.ctx).tvec ≠ 0)
    (code detail : Nat) (taddr : Scalar) (tlane : Mask) :
    ∃ g', s.trapWord c g code detail taddr tlane = (s.setGroup c.gid g').fate .left ∧
      Recorded g (tcauseWord code detail) c.plane taddr tlane g' := by
  have recorded : Recorded g (tcauseWord code detail) c.plane taddr tlane (g.record code detail taddr tlane g.off c.plane) :=
    ⟨rfl, rfl, rfl, rfl, rfl, rfl, rfl, rfl, rfl, rfl, rfl, rfl, rfl, rfl, rfl, rfl, rfl⟩
  rcases trapWord_cases s c g code detail taddr tlane with ⟨h | h, _⟩ | ⟨_, _, _, h⟩ | ⟨_, _, _, h⟩
  · cases hu.symm.trans h
  · exact absurd h ht
  · exact ⟨_, h, recorded_writeNow _ _ recorded⟩
  · exact ⟨_, h, recorded⟩

/-- The word that TCAUSE takes of an illegal word. -/
theorem tcauseWord_illegal {detail : Nat} (h : detail < 256) : tcauseWord 1 detail = BitVec.ofNat 64 (256 * detail + 1) := by
  rw [tcauseWord, Nat.mod_eq_of_lt h, Nat.mul_comm]

/-! ## Access by mode (R41 to R43) -/

/-- An index that a user group may neither read nor write. -/
theorem access_steward : ∀ l ∈ [(0x03 : BitVec 7), 0x05], l.toNat < 0x13 ∧ ctlAccess .user l.toNat = (false, false) := by decide

theorem access_user_readOnly :
    ∀ l ∈ [(0x04 : BitVec 7), 0x06, 0x07, 0x08, 0x09, 0x0A, 0x0B, 0x0C, 0x0D, 0x0E, 0x0F, 0x11, 0x12],
      l.toNat < 0x13 ∧ ctlAccess .user l.toNat = (true, false) := by decide

theorem access_steward_readOnly : ∀ l ∈ [(0x0B : BitVec 7), 0x0C, 0x0D, 0x0E, 0x0F, 0x11, 0x12],
    l.toNat < 0x13 ∧ ctlAccess .steward l.toNat = (true, false) := by decide

theorem access_writable (m : Mode) : ∀ l ∈ [(0x00 : BitVec 7), 0x01, 0x02, 0x10],
    l.toNat < 0x13 ∧ ctlAccess m l.toNat = (true, true) := by cases m <;> decide

theorem access_steward_writable : ∀ l ∈ [(0x03 : BitVec 7), 0x04, 0x05, 0x06, 0x09, 0x0A],
    l.toNat < 0x13 ∧ ctlAccess .steward l.toNat = (true, true) := by decide

/-! ## The obligation -/

section
variable {s : State} {c : Issue} {g : Group} (hc : s.cur = some c) (hg : s.groupAt c.gid = some g)
include hc hg

theorem ctlrd_denied {d : Reg} (hk : Kind.sd.detail d = none) (hu : g.mode = .user) :
    ∀ l ∈ [(0x03 : BitVec 7), 0x05], exec (.ctlrd d l) s = .next (s.trapWord c g 1 0x08 (BitVec.ofNat 64 c.addr) 0) := by
  intro l hl
  obtain ⟨hb, ha⟩ := access_steward l hl
  rw [← hu] at ha
  exact refused_ctlrd (x := 0x08) hc hg
    (illegalDetail_access (ctlrd_operands d l) hk hb ((stateDetail_ctlrd d l).trans (ctlDetail_denied hb ha)))

theorem ctlrd_reserved {d : Reg} (hk : Kind.sd.detail d = none) (l : BitVec 7) (h1 : 0x13 ≤ l.toNat) (h2 : l.toNat < 0x40) :
    exec (.ctlrd d l) s = .next (s.trapWord c g 1 0x09 (BitVec.ofNat 64 c.addr) 0) :=
  refused_ctlrd (x := 0x09) hc hg (illegalDetail_reserved (ctlrd_operands d l) hk h1 h2 (stateDetail_ctlrd d l))

theorem ctlwr_reserved {a : Reg} (hk : Kind.ss.detail a = none) (l : BitVec 7) (h1 : 0x13 ≤ l.toNat) (h2 : l.toNat < 0x40) :
    exec (.ctlwr a l) s = .next (s.trapWord c g 1 0x09 (BitVec.ofNat 64 c.addr) 0) :=
  refused_ctlwr (x := 0x09) hc hg (illegalDetail_reserved (ctlwr_operands a l) hk h1 h2 (stateDetail_ctlwr a l))

/-- A value that a register, writable in either mode, does not hold. -/
theorem ctlwr_badValue_writable {a : Reg} (hk : Kind.ss.detail a = none) {l : BitVec 7} (hl : l ∈ [(0x00 : BitVec 7), 0x01, 0x02, 0x10])
    (hb : ctlBadValue l.toNat (g.srcS .a a) = true) : exec (.ctlwr a l) s = .next (s.trapWord c g 1 0x0A (BitVec.ofNat 64 c.addr) 0) :=
  let ⟨hr, ha⟩ := access_writable g.mode l hl
  ctlwr_badValue hc hg hk hr ha hb

/-- A value that a register, writable in steward mode, does not hold. -/
theorem ctlwr_badValue_steward {a : Reg} (hk : Kind.ss.detail a = none) (hm : g.mode = .steward) {l : BitVec 7}
    (hl : l ∈ [(0x03 : BitVec 7), 0x04, 0x05, 0x06, 0x09, 0x0A]) (hb : ctlBadValue l.toNat (g.srcS .a a) = true) :
    exec (.ctlwr a l) s = .next (s.trapWord c g 1 0x0A (BitVec.ofNat 64 c.addr) 0) :=
  let ⟨hr, ha⟩ := access_steward_writable l hl
  ctlwr_badValue hc hg hk hr (hm ▸ ha) hb

end

/-- Settles O29: one lemma for the reads, one for the writes that replace the group, one per kind of refusal, and what a trap in
user mode leaves of the group. -/
theorem controlRegisterWords : Obligations.ControlRegisterWords := by
  refine ⟨fun d => ?reads, fun a => ?writes, fun s c g hc hg => ⟨fun d hd => ?readRefused, fun a hd => ?writeRefused, refused_tret hc hg⟩,
    fun s c g detail hc hg hu ht hd => ?records⟩
  case reads =>
    exact ⟨ctlrd_reads ctlValue_gctl, ctlrd_reads fun _ _ => rfl, ctlrd_reads fun _ _ => rfl, ctlrd_reads fun _ _ => rfl,
      ctlrd_reads fun _ _ => rfl, ctlrd_reads fun _ _ => rfl, ctlrd_reads fun _ _ => rfl, ctlrd_reads fun _ _ => rfl,
      ctlrd_reads fun _ _ => rfl, ctlrd_reads fun _ _ => rfl, ctlrd_reads ctlValue_tpln, ctlrd_reads fun _ _ => rfl,
      ctlrd_reads fun _ _ => rfl, ctlrd_reads ctlValue_mbat, ctlrd_reads fun _ _ => rfl, ctlrd_reads fun _ _ => rfl,
      ctlrd_reads fun _ _ => rfl, ctlrd_reads fun _ _ => rfl, ctlrd_reads ctlValue_eclass⟩
  case writes =>
    refine ⟨ctlwr_writes fun _ _ _ => rfl, ctlwr_writes fun _ _ _ => rfl, ctlwr_writes fun _ _ _ => rfl,
      fun _ _ _ => exec_ctlwr, fun s c g h => ⟨fun h0 => ?_, fun h0 hw hcut e he => ?_, fun p h0 hw hp => ⟨fun hr hl => ?_, fun hr => ?_⟩⟩,
      fun _ _ _ => exec_ctlwr, ctlwr_writes fun _ _ _ => rfl, ctlwr_writes fun _ _ _ => rfl, ctlwr_writes fun _ _ _ => rfl,
      ctlwr_writes fun _ _ _ => rfl, ctlwr_writes fun _ _ _ => rfl,
      fun s _ _ h => ⟨fun seq => (Config.unstated (s.draws + seq)).setWidth 5, exec_ctlwr h⟩⟩
    all_goals refine (exec_ctlwr h).trans (congrArg _ ?_)
    · exact ctlPut_rgnoff s c g _ h0
    · exact ctlPut_rgnoff_writing s c g _ h0 hw hcut he
    · exact ctlPut_rgnoff_ready s c g _ h0 hw hp hr hl
    · exact ctlPut_rgnoff_waits g _ h.atIssue h0 hw hp hr
  case readRefused =>
    have hk := kind_of_detail_ctlrd hd
    exact ⟨ctlrd_denied hc hg hk, ctlrd_reserved hc hg hk⟩
  case writeRefused =>
    have hk := kind_of_detail_ctlwr hd
    refine ⟨fun hu l hl => ?_, fun hu l hl => ?_, fun hm l hl => ?_, ctlwr_reserved hc hg hk, fun hv => ?_, fun hv => ⟨?_, ?_⟩, fun hv => ?_,
      fun hm => ⟨fun hv => ⟨?_, ?_⟩, fun hv => ⟨?_, ?_⟩, fun hv => ?_, fun hv => ?_⟩⟩
    · obtain ⟨hb, ha⟩ := access_steward l hl
      exact ctlwr_denied hc hg hk hb (hu ▸ ha)
    · obtain ⟨hb, ha⟩ := access_user_readOnly l hl
      exact ctlwr_readOnly hc hg hk hb (hu ▸ ha)
    · obtain ⟨hb, ha⟩ := access_steward_readOnly l hl
      exact ctlwr_readOnly hc hg hk hb (hm ▸ ha)
    · exact ctlwr_badValue_writable hc hg hk (by decide) (gctl_badValue hv)
    · exact ctlwr_badValue_writable hc hg hk (by decide) (lease_badValue hv)
    · exact ctlwr_badValue_writable hc hg hk (by decide) (lease_badValue hv)
    · exact ctlwr_badValue_writable hc hg hk (by decide) (flags_badValue hv)
    · exact ctlwr_badValue_steward hc hg hk hm (by decide) (base_badValue hv)
    · exact ctlwr_badValue_steward hc hg hk hm (by decide) (base_badValue hv)
    · exact ctlwr_badValue_steward hc hg hk hm (by decide) (offset_badValue hv)
    · exact ctlwr_badValue_steward hc hg hk hm (by decide) (offset_badValue hv)
    · exact ctlwr_badValue_steward hc hg hk hm (by decide) (tcause_badValue hv)
    · exact ctlwr_badValue_steward hc hg hk hm (by decide) (tpln_badValue hv)
  case records =>
    obtain ⟨g', he, hcause, haddr, hlane, hoff, hplane, hdone, hocc, hrmode, hftz, hlease, hatick, hrgnoff, hstack, hwinb, hmlast, hbatches,
      hflags⟩ := trapWord_user hu ht 1 detail (BitVec.ofNat 64 c.addr) 0
    rw [tcauseWord_illegal hd] at hcause
    exact ⟨g', (congrArg (State.groupAt · c.gid) he).trans (groupAt_setGroup_same ..), hcause, haddr, hlane, hoff, hplane, hdone, hocc,
      hrmode, hftz, hlease, hatick, hrgnoff, hstack, hwinb, hmlast, hbatches, hflags, (congrArg State.contexts he :),
      (congrArg State.time he :)⟩

end Sys2Proof.Machine
end

section
/-! The scalar integer words (R60 to R65): each gives its one scalar, so what is left to show of a word is its value. -/

namespace Sys2Proof.Machine

open Sys2Proof.Safety

/-! ## Values (R60 to R62) -/

section
variable (a b : Scalar)

theorem sdivValue_eq : sdivValue a b = if b = 0 then BitVec.allOnes 64 else BitVec.ofInt 64 (a.toInt.tdiv b.toInt) := by
  rw [sdivValue, BitVec.eq_of_toInt_eq ((BitVec.toInt_sdiv a b).trans (BitVec.toInt_ofInt _).symm)]

theorem sdivnValue_eq : sdivnValue a b = if b = 0 then BitVec.allOnes 64 else BitVec.ofNat 64 (a.toNat / b.toNat) := by
  rw [sdivnValue, BitVec.udiv_eq, BitVec.udiv_def]

theorem smodValue_eq : smodValue a b = if b = 0 then a else BitVec.ofInt 64 (a.toInt.tmod b.toInt) := by
  rw [smodValue, ← BitVec.toInt_srem, BitVec.ofInt_toInt]

theorem smodnValue_eq : smodnValue a b = if b = 0 then a else BitVec.ofNat 64 (a.toNat % b.toNat) := by
  rw [smodnValue, BitVec.umod_eq, BitVec.umod_def]

theorem slt_truth : truth (a.slt b) = if a.toInt < b.toInt then 1 else 0 := by
  simp only [truth, BitVec.slt_iff_toInt_lt]

/-- Of two operands that are equal as numbers either is the lesser, and either the greater: they are one operand. -/
theorem select_lt_eq_le {α : Type} [LinearOrder α] {f : Scalar → α} (hf : f.Injective) :
    (if f a < f b then a else b) = (if f a ≤ f b then a else b) ∧ (if f a < f b then b else a) = if f a ≤ f b then b else a := by
  rcases lt_trichotomy (f a) (f b) with h | h | h
  · simp [h, h.le]
  · simp [hf h]
  · simp [h.not_gt, h.not_ge]

theorem signedMin_eq : (if a.slt b then a else b) = if a.toInt ≤ b.toInt then a else b := by
  simpa only [BitVec.slt_iff_toInt_lt] using (select_lt_eq_le a b fun _ _ => BitVec.eq_of_toInt_eq).1

theorem signedMax_eq : (if a.slt b then b else a) = if a.toInt ≤ b.toInt then b else a := by
  simpa only [BitVec.slt_iff_toInt_lt] using (select_lt_eq_le a b fun _ _ => BitVec.eq_of_toInt_eq).2

theorem unsignedMin_eq : (if a < b then a else b) = if a.toNat ≤ b.toNat then a else b :=
  (select_lt_eq_le a b fun _ _ => BitVec.eq_of_toNat_eq).1

theorem unsignedMax_eq : (if a < b then b else a) = if a.toNat ≤ b.toNat then b else a :=
  (select_lt_eq_le a b fun _ _ => BitVec.eq_of_toNat_eq).2

theorem ult_truth : truth (a.ult b) = if a.toNat < b.toNat then 1 else 0 := by
  simp only [truth, BitVec.ult, decide_eq_true_eq]

theorem eq_truth : truth (a == b) = if a = b then 1 else 0 := by
  simp only [truth, beq_iff_eq]

end

/-- The immediate of `sslti`, sign-extended, is the number that it is. -/
theorem slti_truth (a : Scalar) (k : BitVec 10) : truth (a.slt (sext10 k)) = if a.toInt < k.toInt then 1 else 0 := by
  rw [slt_truth, sext10, BitVec.toInt_signExtend_of_le (by decide)]

/-! ## Code addresses (R64, R323) -/

theorem codeAddress_eq (s : State) (g : Group) (plane : Nat) (k : BitVec 17) : s.codeAddress g plane k =
    (match g.mode with
      | .user => BitVec.ofNat 64 ((s.recordOf g).entry + plane * ((s.recordOf g).pstride * 256))
      | .steward => BitVec.ofNat 64 g.vec) + (BitVec.ofNat 64 g.off + k.signExtend 64) * 4 := by
  unfold State.codeAddress
  cases g.mode <;> rfl

/-! ## The words -/

/-- A word whose effect is one scalar result of a value that is `v`. -/
theorem scalarWord_eq {i : Instr} {d : Reg} {v w : State → Issue → Group → Scalar}
    (h : ∀ s, exec i s = word i s fun c g => s.scalResult c g d [w s c g] 0) (hv : ∀ s c g, w s c g = v s c g) : ScalarWord i d v :=
  (funext fun s => funext fun c => funext (hv s c) : w = v) ▸ scalarWord_of h

/-- Settles O1: the effect of every word is one scalar result; its value is the statement's by definition, or by the lemma on it. -/
theorem scalarArithmetic : Obligations.ScalarArithmetic := by
  refine ⟨?sadd, ?ssub, ?smul, ?smulhI, ?smulhN, ?sand, ?sor, ?sxor, ?sandn, ?smov, ?saddi, ?sandi, ?sori, ?sxori, ?smovi, ?slui, ?saddpc,
    ?sshl, ?sshr, ?ssra, ?sminI, ?sminN, ?smaxI, ?smaxN, ?ssltI, ?ssltN, ?sseq, ?sclz, ?spop, ?sshli, ?sshri, ?ssrai, ?sslti⟩
  case saddpc => exact fun d k => scalarWord_eq (fun _ => rfl) fun s c g => codeAddress_eq s g c.plane k
  case sminI => exact fun d a b => scalarWord_eq (fun _ => rfl) fun _ _ g => signedMin_eq ..
  case sminN => exact fun d a b => scalarWord_eq (fun _ => rfl) fun _ _ g => unsignedMin_eq ..
  case smaxI => exact fun d a b => scalarWord_eq (fun _ => rfl) fun _ _ g => signedMax_eq ..
  case smaxN => exact fun d a b => scalarWord_eq (fun _ => rfl) fun _ _ g => unsignedMax_eq ..
  case ssltI => exact fun d a b => scalarWord_eq (fun _ => rfl) fun _ _ g => slt_truth ..
  case ssltN => exact fun d a b => scalarWord_eq (fun _ => rfl) fun _ _ g => ult_truth ..
  case sseq => exact fun d a b => scalarWord_eq (fun _ => rfl) fun _ _ g => eq_truth ..
  case sslti => exact fun d a k => scalarWord_eq (fun _ => rfl) fun _ _ g => slti_truth ..
  case smov | sclz | spop | smovi | slui => exact fun _ _ => scalarWord_of fun _ => rfl
  all_goals exact fun _ _ _ => scalarWord_of fun _ => rfl

/-- Settles O2: by what the four values of R62 are. -/
theorem scalarDivision : Obligations.ScalarDivision :=
  ⟨fun _ _ _ => scalarWord_eq (fun _ => rfl) fun _ _ _ => sdivValue_eq .., fun _ _ _ => scalarWord_eq (fun _ => rfl) fun _ _ _ => sdivnValue_eq ..,
    fun _ _ _ => scalarWord_eq (fun _ => rfl) fun _ _ _ => smodValue_eq .., fun _ _ _ => scalarWord_eq (fun _ => rfl) fun _ _ _ => smodnValue_eq ..⟩

end Sys2Proof.Machine
end

section
/-! Branches and indirect transfers (R67 to R70): what field a is written at issue, and where the group goes on. -/

namespace Sys2Proof.Machine

open Sys2Proof.Safety

/-! ## Field a written at issue (R46 to R48, R67) -/

theorem getLsbD_widthMask (w : Nat) (m : Mask) {j : Nat} (hj : j < 64) :
    (widthMask w m).getLsbD j = (decide (j < w) && m.getLsbD j) := by
  rw [widthMask, BitVec.getLsbD_and, BitVec.getLsbD_ofNat, Nat.testBit_two_pow_sub_one, Bool.and_comm, decide_eq_true hj, Bool.true_and]

/-- A register written at issue takes nothing from the outstanding results but their later write of it. -/
theorem bumpGen_results (g : Group) (k : Nat) :
    (g.bumpGen k).results.map (fun r => { r with past := [] }) = g.results.map fun r => { r with past := [] } := by
  simp only [Group.bumpGen, Group.supersede, List.map_map]
  refine List.map_congr_left fun r _ => ?_
  simp only [Function.comp]
  split <;> rfl

theorem wroteField_scalar (g : Group) (k : Fin 24) (v : Scalar) : WroteField g (g.writeNow k.val v) (.s k) v := by
  refine ⟨?_, ?_, ?_, ?_⟩
  · exact scalar_writeNow_same g k v
  · exact fun _ => scalar_writeNow_other g v
  · exact bumpGen_results (g.setScalar k v) (1024 + k.val)
  · exact writeNow_frame g k v

theorem wroteField_cm (g : Group) (v : Scalar) : WroteField g { g.bumpGen 2048 with cm := widthMask g.width v } .cm v :=
  ⟨fun _ => getLsbD_widthMask g.width v, bumpGen_results g 2048, rfl⟩

theorem wroteField_writeField (g : Group) (a : Reg) (v : Scalar) : WroteField g (g.writeField a v) a v := by
  unfold Group.writeField
  split
  · exact wroteField_scalar g _ v
  · exact wroteField_cm g v
  all_goals rfl

/-! ## Where the group goes on (R67, R69, R70) -/

theorem fate_goto {s : State} {c : Issue} (h : s.cur = some c) (n : Nat) : s.fate (.goto n) = goesTo s c n := by
  simp only [State.fate, goesTo, h, Option.map_some]

section
variable {s : State} {c : Issue} {g : Group} {taken : Bool} {off : BitVec 17} {f : Group → Group}

theorem branch_not_taken (h : taken = false) : s.branch c g taken off f = s.setGroup c.gid (f g) := by
  subst h; rfl

theorem branch_out_of_range (h : taken = true) (hr : (g.off : Int) + off.toInt < 0 ∨ 2 ^ 20 ≤ (g.off : Int) + off.toInt) :
    s.branch c g taken off f = s.trapWord c g 15 0 (BitVec.ofInt 64 (g.off + off.toInt)) 0 :=
  if_pos (by simpa [h] using hr)

theorem branch_taken (hc : s.cur = some c) (h : taken = true) {n : Nat} (hn : (n : Int) = g.off + off.toInt) (hr : n < 2 ^ 20) :
    s.branch c g taken off f = goesTo (s.setGroup c.gid (f g)) c n := by
  have hin : ¬ ((g.off : Int) + off.toInt < 0 ∨ 2 ^ 20 ≤ (g.off : Int) + off.toInt) := by omega
  refine (if_neg (by simpa [h] using hin)).trans ((if_pos h).trans ?_)
  rw [← hn, Int.toNat_natCast]
  exact fate_goto (s := s.setGroup c.gid (f g)) hc n

theorem jumpTo_in_range (hc : s.cur = some c) {v : Scalar} (h : v.toNat < 2 ^ 20) : s.jumpTo c g v = goesTo s c v.toNat :=
  (if_neg (by omega)).trans (fate_goto hc _)

theorem jumpTo_out_of_range {v : Scalar} (h : 2 ^ 20 ≤ v.toNat) : s.jumpTo c g v = s.trapWord c g 15 0 v 0 := if_pos h

end

/-- A word whose effect is a branch under a condition, and that writes at issue what `f` writes. -/
theorem branchWord_of {i : Instr} {off : BitVec 17} {b : Group → Bool} {f : Group → Group → Group} {taken : Group → Prop}
    {wrote : Group → Group → Prop} (h : ∀ s, exec i s = word i s fun c g => s.branch c g (b g) off (f g))
    (hb : ∀ g, b g = true ↔ taken g) (hf : ∀ g, wrote g (f g g)) : BranchWord i off taken wrote := by
  intro s c g hr
  have he := (h s).trans (word_ready hr _)
  refine ⟨fun hn => ⟨_, hf g, he.trans (congrArg _ (branch_not_taken ?_))⟩,
    fun ht ho => he.trans (congrArg _ (branch_out_of_range ((hb g).2 ht) ho)),
    fun n ht hn hlt => ⟨_, hf g, he.trans (congrArg _ (branch_taken hr.atIssue ((hb g).2 ht) hn hlt))⟩⟩
  exact Bool.eq_false_iff.2 (mt (hb g).1 hn)

/-- A word whose effect is an indirect transfer. -/
theorem exec_jump {i : Instr} {s : State} {c : Issue} {g : Group} {v : Group → Scalar} (hr : Ready i s c g)
    (h : exec i s = word i s fun c g => s.jumpTo c g (v g)) : ((v g).toNat < 2 ^ 20 → exec i s = .next (goesTo s c (v g).toNat)) ∧
      (2 ^ 20 ≤ (v g).toNat → exec i s = .next (s.trapWord c g 15 0 (v g) 0)) :=
  have he := h.trans (word_ready hr _)
  ⟨fun hv => he.trans (congrArg _ (jumpTo_in_range hr.atIssue hv)), fun hv => he.trans (congrArg _ (jumpTo_out_of_range hv))⟩

theorem negative_iff (v : Scalar) : v.getLsbD 63 = true ↔ v.toInt < 0 := by
  rw [← BitVec.msb_eq_getLsbD_last v, BitVec.msb_eq_toInt, decide_eq_true_eq]

/-- Settles O23: one lemma for the branches, whose conditions are the statement's, and one for the indirect transfers. -/
theorem controlTransfers : Obligations.ControlTransfers := by
  refine ⟨fun _ => ?bra, fun _ _ => ?bz, fun _ _ => ?bnz, fun _ _ => ?bneg, fun _ _ => ?bnn, fun a _ => ?bloop, fun a _ => ?bcall, fun _ => ?bany,
    fun a i hi s c g hr => ?jumps⟩
  case bra => exact branchWord_of (fun _ => rfl) (fun _ => iff_of_true rfl trivial) fun _ => rfl
  case bz => exact branchWord_of (fun _ => rfl) (fun _ => beq_iff_eq) fun _ => rfl
  case bnz => exact branchWord_of (fun _ => rfl) (fun _ => bne_iff_ne) fun _ => rfl
  case bneg => exact branchWord_of (fun _ => rfl) (fun _ => negative_iff _) fun _ => rfl
  case bnn => exact branchWord_of (fun _ => rfl) (fun _ => by rw [Bool.not_eq_true', ← Bool.not_eq_true, negative_iff, not_lt]) fun _ => rfl
  case bloop => exact branchWord_of (fun _ => rfl) (fun _ => bne_iff_ne) fun g => wroteField_writeField g a _
  case bcall => exact branchWord_of (fun _ => rfl) (fun _ => iff_of_true rfl trivial) fun g => wroteField_writeField g a _
  case bany => exact branchWord_of (fun _ => rfl) (fun _ => bne_iff_ne) fun _ => rfl
  case jumps =>
    rcases List.mem_pair.1 hi with rfl | rfl
    · exact exec_jump (v := fun g => g.srcS .a a) hr rfl
    · exact exec_jump (v := fun g => g.srcS .a a) hr rfl

end Sys2Proof.Machine
end

section
/-! The accesses of the memory words (R77 to R88, R228, R294): which are located, and what loads, stores, atomics and far reductions
of them issue. -/

namespace Sys2Proof.Machine

open Sys2Proof.Safety

/-! ## Accesses that pass the checks (R78) -/

/-- No trap of R78: every address is aligned and lies in the map. -/
theorem addressTrap_eq_none {s : State} {c : Issue} {g : Group} {scalar regs : Bool} {size : Nat} {la : List (Nat × Scalar)}
    (h : s.addressTrap c g scalar regs size la = none) :
    (∀ e ∈ la, e.2.toNat % size = 0) ∧ ∀ e ∈ la, s.mapAddr c.gid g e.2 ≠ none := by
  unfold State.addressTrap at h
  dsimp only at h
  split at h
  · cases h
  · rename_i hbad
    split at h
    · cases h
    · rename_i hout
      refine ⟨fun e he => ?_, fun e he hn => ?_⟩
      · simpa using List.filter_eq_nil_iff.1 hbad e he
      · exact List.filter_eq_nil_iff.1 hout e he (by simp only [hn])

theorem addressTrap_nil (s : State) (c : Issue) (g : Group) (scalar regs : Bool) (size : Nat) :
    s.addressTrap c g scalar regs size [] = none := rfl

/-! ## Locating accesses (R79) -/

/-- `t` is `s` but for translations that cores have cached. -/
def CachedOnly (s t : State) : Prop :=
  (∀ k, (t.coreAt k).l1 = (s.coreAt k).l1 ∧ (t.coreAt k).phase = (s.coreAt k).phase) ∧ { t with cores := s.cores } = s

theorem CachedOnly.trans {s t u : State} (h : CachedOnly s t) (k : CachedOnly t u) : CachedOnly s u := by
  obtain ⟨h1, h2⟩ := h
  obtain ⟨k1, k2⟩ := k
  refine ⟨fun n => ⟨(k1 n).1.trans (h1 n).1, (k1 n).2.trans (h1 n).2⟩, ?_⟩
  exact (congrArg (fun x : State => { x with cores := s.cores }) k2).trans h2

/-- The map reads the units of the group alone: its launch and the groves. -/
theorem CachedOnly.mapAddr {s t : State} (h : CachedOnly s t) (gid : Nat) (g : Group) (a : Scalar) :
    t.mapAddr gid g a = s.mapAddr gid g a := by
  rw [← h.2]
  rfl

section
variable (c : Issue) (g : Group) (write : Bool)

theorem locateAll_unmapped {s : State} {e : Nat × Scalar} (h : s.mapAddr c.gid g e.2 = none) (la : List (Nat × Scalar)) :
    s.locateAll c g write (e :: la) = s.locateAll c g write la := by
  simp only [State.locateAll, h]

theorem locateAll_good {s u : State} {e : Nat × Scalar} {m : Mapped} {p : Place} (h : s.mapAddr c.gid g e.2 = some m)
    (hl : s.locate g m write = (u, .ok p)) (la : List (Nat × Scalar)) : s.locateAll c g write (e :: la) =
      ((u.locateAll c g write la).1, (e.1, e.2, p) :: (u.locateAll c g write la).2.1, (u.locateAll c g write la).2.2) := by
  simp only [State.locateAll, h, hl]

theorem locateAll_bad {s u : State} {e : Nat × Scalar} {m : Mapped} {f : Nat × Nat} (h : s.mapAddr c.gid g e.2 = some m)
    (hl : s.locate g m write = (u, .error f)) (la : List (Nat × Scalar)) : s.locateAll c g write (e :: la) =
      ((u.locateAll c g write la).1, (u.locateAll c g write la).2.1, (e.1, e.2, f.1, f.2) :: (u.locateAll c g write la).2.2) := by
  simp only [State.locateAll, h, hl]

theorem locate_cachedOnly (s : State) (m : Mapped) : CachedOnly s (s.locate g m write).1 := locate_frame s g m write

theorem locateAll_cachedOnly (la : List (Nat × Scalar)) : ∀ s : State, CachedOnly s (s.locateAll c g write la).1 := by
  induction la with
  | nil => exact fun s => ⟨fun _ => ⟨rfl, rfl⟩, rfl⟩
  | cons e la ih =>
    intro s
    cases h : s.mapAddr c.gid g e.2 with
    | none => rw [locateAll_unmapped c g write h]; exact ih s
    | some m =>
      have hu := locate_cachedOnly g write s m
      cases hl : s.locate g m write with | mk u r =>
      rw [hl] at hu
      cases r with
      | ok p => rw [locateAll_good c g write h hl]; exact hu.trans (ih u)
      | error f => rw [locateAll_bad c g write h hl]; exact hu.trans (ih u)

/-- An access outside global memory that is located lies where the map says. -/
theorem locateAll_here (la : List (Nat × Scalar)) : ∀ s : State, ∀ e ∈ (s.locateAll c g write la).2.1,
    (e.1, e.2.1) ∈ la ∧ ∀ p, s.mapAddr c.gid g e.2.1 = some (.here p) → e.2.2 = p := by
  induction la with
  | nil => exact fun s e he => nomatch he
  | cons x la ih =>
    intro s e he
    cases h : s.mapAddr c.gid g x.2 with
    | none =>
      rw [locateAll_unmapped c g write h] at he
      exact (ih s e he).imp_left (List.mem_cons_of_mem _)
    | some m =>
      have hu := locate_cachedOnly g write s m
      cases hl : s.locate g m write with | mk u r =>
      rw [hl] at hu
      have later (he : e ∈ (u.locateAll c g write la).2.1) : (e.1, e.2.1) ∈ x :: la ∧
          ∀ p, s.mapAddr c.gid g e.2.1 = some (.here p) → e.2.2 = p :=
        ⟨List.mem_cons_of_mem _ (ih u e he).1, fun p hp => (ih u e he).2 p ((hu.mapAddr ..).trans hp)⟩
      cases r with
      | error f => rw [locateAll_bad c g write h hl] at he; exact later he
      | ok q =>
        rw [locateAll_good c g write h hl] at he
        rcases List.mem_cons.1 he with rfl | he
        · refine ⟨List.mem_cons_self .., fun p hp => ?_⟩
          obtain rfl : m = .here p := Option.some.inj (h.symm.trans hp)
          exact locate_here s g p q write (congrArg Prod.snd hl)
        · exact later he

/-- Accesses in the map none of which faults are located, each with its lane and address, in their order. -/
theorem locateAll_all (la : List (Nat × Scalar)) : ∀ s : State, (∀ e ∈ la, s.mapAddr c.gid g e.2 ≠ none) →
    (s.locateAll c g write la).2.2 = [] → (s.locateAll c g write la).2.1.map (fun e => (e.1, e.2.1)) = la := by
  induction la with
  | nil => exact fun _ _ _ => rfl
  | cons x la ih =>
    intro s hm hb
    cases h : s.mapAddr c.gid g x.2 with
    | none => exact absurd h (hm x (List.mem_cons_self ..))
    | some m =>
      have hu := locate_cachedOnly g write s m
      cases hl : s.locate g m write with | mk u r =>
      rw [hl] at hu
      cases r with
      | error f => rw [locateAll_bad c g write h hl] at hb; cases hb
      | ok p =>
        rw [locateAll_good c g write h hl] at hb ⊢
        exact congrArg (x :: ·) (ih u (fun e he => (hu.mapAddr ..).trans_ne (hm e (List.mem_cons_of_mem _ he))) hb)

end

section
variable {s t : State} {c : Issue} {g : Group} {scalar regs write : Bool} {size : Nat} {la : List (Nat × Scalar)} {good : List Located}
  {bad : List Faulted}

/-- Accesses that pass the checks and do not fault: all of them are located. -/
theorem located_all (ht : s.addressTrap c g scalar regs size la = none) (hl : s.locateAll c g write la = (t, good, [])) :
    good.map (fun e => (e.1, e.2.1)) = la := by
  have := locateAll_all c g write la s (addressTrap_eq_none ht).2
  rw [hl] at this
  exact this rfl

theorem located_ne_nil (hne : la ≠ []) (ht : s.addressTrap c g scalar regs size la = none)
    (hl : s.locateAll c g write la = (t, good, [])) : good ≠ [] := by
  rintro rfl
  exact hne (located_all ht hl).symm

/-! ## The accesses performed (R79, R294) -/

theorem access_of_located (ht : s.addressTrap c g scalar regs size la = none) (hl : s.locateAll c g write la = (t, good, bad))
    (k : State → Group → List Located → State) : s.access c g scalar write regs size la k =
      if bad = [] then (if good = [] then t else k t g good) else (if good = [] then t else k t g good).accessFault c scalar bad := by
  simp only [State.access, ht, hl]

theorem access_of_good (hne : la ≠ []) (ht : s.addressTrap c g scalar regs size la = none)
    (hl : s.locateAll c g write la = (t, good, [])) (k : State → Group → List Located → State) :
    s.access c g scalar write regs size la k = k t g good :=
  (access_of_located ht hl k).trans ((if_pos rfl).trans (if_neg (located_ne_nil hne ht hl)))

theorem overHazard_of_trap {code : Nat} {a : Scalar} {m : Mask} (ht : s.addressTrap c g scalar regs size la = some (code, a, m))
    (k : List Located → State) : s.overHazard c g scalar regs size la k = s.trapWord c g code 0 a m := by
  simp only [State.overHazard, ht]

theorem overHazard_of_located (ht : s.addressTrap c g scalar regs size la = none) (hl : s.locateAll c g true la = (t, good, bad))
    (hm : g.memHazard c.gid (good.map fun e => (e.1, e.2.2, size)) = none) (k : List Located → State) :
    s.overHazard c g scalar regs size la k = k good := by
  simp only [State.overHazard, ht, hl, hm]

end

/-! ## Loads (R83, R84) -/

theorem issueLoad_issued (t : State) (c : Issue) (g : Group) (d : Reg) (n size : Nat) (w : Widen) (good : List Located) :
    LoadIssued t (t.issueLoad c g (g.dest d n) size w good) c g d n size w good := by
  obtain ⟨tag, h⟩ := pushResult_issued t c g
    { (default : Result) with dest := g.dest d n, mask := maskOf (good.map (·.1)), ready := false }
  exact ⟨_, _, h, rfl, rfl, rfl, rfl, rfl⟩

/-- A word whose effect is to load from its accesses, if it has any. -/
theorem loadWord_of {i : Instr} {scalar : Bool} {d : Reg} {n size : Nat} {w : Widen} {la : Issue → Group → List (Nat × Scalar)}
    {k : State → Issue → Group → State} (h : ∀ s, exec i s = word i s (k s)) (hnone : ∀ s c g, la c g = [] → k s c g = s)
    (hsome : ∀ s c g, la c g ≠ [] → k s c g = s.access c g scalar false true size (la c g) fun s g good =>
      s.issueLoad c g (g.dest d n) size w good) : LoadWord i scalar d n size w la := by
  intro s c g hr
  have he := (h s).trans (word_ready hr _)
  refine ⟨fun hn => he.trans (congrArg _ (hnone s c g hn)), fun t good hne ⟨ht, hl⟩ => ?_, fun t good bad ht hl hb => ?_⟩
  · exact ⟨_, he.trans (congrArg _ ((hsome s c g hne).trans (access_of_good hne ht hl _))), issueLoad_issued ..⟩
  · have hne : la c g ≠ [] := by
      intro hn
      rw [hn] at hl
      cases hl
      exact hb rfl
    refine ⟨_, he.trans (congrArg _ ((hsome s c g hne).trans ((access_of_located ht hl _).trans (if_neg hb)))), fun hg => if_pos hg, fun hg => ?_⟩
    rw [if_neg hg]
    exact issueLoad_issued ..

theorem vectorLoad_nil {s : State} {c : Issue} {g : Group} {addr : Nat → Scalar} (h : laneAccesses c g addr = []) (d : Reg) (n size : Nat)
    (w : Widen) : s.vectorLoad c g d n size w addr = s := by
  rw [State.vectorLoad, h]

theorem vectorLoad_access {s : State} {c : Issue} {g : Group} {addr : Nat → Scalar} (h : laneAccesses c g addr ≠ []) (d : Reg) (n size : Nat)
    (w : Widen) : s.vectorLoad c g d n size w addr = s.access c g false false true size (laneAccesses c g addr) fun s g good =>
      s.issueLoad c g (g.dest d n) size w good := by
  unfold State.vectorLoad
  split
  · exact absurd ‹_› h
  · rfl

theorem vectorLoad_word {i : Instr} {d : Reg} {n size : Nat} {w : Widen} {addr : Group → Nat → Scalar}
    (h : ∀ s, exec i s = word i s fun c g => s.vectorLoad c g d n size w (addr g)) :
    LoadWord i false d n size w fun c g => eachLane c g (addr g) :=
  loadWord_of h (fun _ _ _ hn => vectorLoad_nil hn d n size w) fun _ _ _ hs => vectorLoad_access hs d n size w

theorem scalarLoad_word {i : Instr} {d : Reg} {size : Nat} {w : Widen} {addr : Group → Scalar}
    (h : ∀ s, exec i s = word i s fun c g => s.scalarLoad c g d size w (addr g)) :
    LoadWord i true d 1 size w fun _ g => [(0, addr g)] :=
  loadWord_of h (fun _ _ _ hn => absurd hn (List.cons_ne_nil _ _)) fun _ _ _ _ => rfl

/-- Settles O15: each word is a vector or a scalar load of its own width and address. -/
theorem loads : Obligations.Loads :=
  ⟨fun _ _ _ => vectorLoad_word fun _ => rfl, fun _ _ _ => vectorLoad_word fun _ => rfl, fun _ _ _ => vectorLoad_word fun _ => rfl,
    fun _ _ _ => vectorLoad_word fun _ => rfl, fun _ _ _ => vectorLoad_word fun _ => rfl, fun _ _ _ => vectorLoad_word fun _ => rfl,
    fun _ _ _ => vectorLoad_word fun _ => rfl, fun _ _ _ => vectorLoad_word fun _ => rfl, fun _ _ _ => vectorLoad_word fun _ => rfl,
    fun _ _ _ => scalarLoad_word fun _ => rfl, fun _ _ _ => scalarLoad_word fun _ => rfl, fun _ _ _ => scalarLoad_word fun _ => rfl,
    fun _ _ _ => scalarLoad_word fun _ => rfl⟩

end Sys2Proof.Machine
end

section
/-! What the stores, atomics and far reductions of a word issue (R85, R86, R228, R298, R299). -/

namespace Sys2Proof.Machine

open Sys2Proof.Safety

/-! ## The bytes of a data field (R85, R86) -/

theorem toBytes_extract {w : Nat} (v : BitVec w) (n : Nat) : toBytes v.toNat n = (List.range n).map fun k => v.extractLsb' (8 * k) 8 := by
  rw [toBytes_eq]
  refine List.map_congr_left fun k _ => ?_
  rw [BitVec.extractLsb', Nat.shiftRight_eq_div_pow]

/-- The bytes of the first `n` registers of a vector data field, in lane j. -/
theorem registerBytes (g : Group) (d : Reg) (j n : Nat) :
    ((List.range n).map fun k => toBytes (g.srcVk .d d k j).toNat 4).flatten =
      (List.range (4 * n)).map fun k => (g.srcVk .d d (k / 4) j).extractLsb' (8 * (k % 4)) 8 := by
  induction n with
  | zero => rfl
  | succ n ih =>
    rw [List.range_succ, List.map_append, List.flatten_append, ih, Nat.mul_succ, List.range_add, List.map_append, List.map_cons, List.map_nil,
      List.flatten_cons, List.flatten_nil, List.append_nil, toBytes_extract, List.map_map]
    refine congrArg _ (List.map_congr_left fun k hk => ?_)
    have hlt := List.mem_range.1 hk
    rw [Function.comp, show (4 * n + k) / 4 = n by omega, show (4 * n + k) % 4 = k by omega]

theorem vectorData_eq (g : Group) (d : Reg) (size j : Nat) : g.vectorData d size j = laneBytes g d size j := by
  rw [Group.vectorData, registerBytes, ← List.map_take, List.take_range, Nat.min_eq_left (by omega)]
  rfl

theorem scalarData_eq (g : Group) (d : Reg) (size : Nat) : toBytes (g.srcS .d d).toNat size = scalarBytes g d size := toBytes_extract _ _

/-! ## Stores (R85, R86, R218, R255) -/

theorem storeWord_of_located {s t : State} {c : Issue} {g : Group} {scalar : Bool} {size : Nat} {la : List (Nat × Scalar)} {good : List Located}
    {bad : List Faulted} (ht : s.addressTrap c g scalar true size la = none) (hl : s.locateAll c g true la = (t, good, bad))
    (hm : g.memHazard c.gid (good.map fun e => (e.1, e.2.2, size)) = none) (hr : s.bufferRoom c.gid g.core (linesStored good) = true)
    (data : Nat → List Byte) : s.storeWord c g scalar size la data = s.access c g scalar true true size la fun s g good =>
      s.issueStore c { g with wait := .none } (good.map fun e => (e.2.1, e.2.2, data e.1)) :=
  (overHazard_of_located ht hl hm _).trans (if_pos hr)

/-- A word whose effect is to store to its accesses, if it has any. -/
theorem storeWord_of {i : Instr} {scalar : Bool} {size : Nat} {la : Issue → Group → List (Nat × Scalar)} {data : Group → Nat → List Byte}
    {k : State → Issue → Group → State} (h : ∀ s, exec i s = word i s (k s)) (hnone : ∀ s c g, la c g = [] → k s c g = s)
    (hsome : ∀ s c g, la c g ≠ [] → k s c g = s.storeWord c g scalar size (la c g) (data g)) : StoreWord i scalar size la data := by
  intro s c g hr
  have he := (h s).trans (word_ready hr _)
  refine ⟨fun hn => he.trans (congrArg _ (hnone s c g hn)), fun t good bad hne ht hl hm hroom => ⟨fun hb => ?_, fun hb => ?_⟩⟩
  · subst hb
    exact he.trans (congrArg _ ((hsome s c g hne).trans ((storeWord_of_located ht hl hm hroom _).trans (access_of_good hne ht hl _))))
  · exact he.trans (congrArg _ ((hsome s c g hne).trans
      ((storeWord_of_located ht hl hm hroom _).trans ((access_of_located ht hl _).trans (if_neg hb)))))

theorem vectorStore_nil {s : State} {c : Issue} {g : Group} {addr : Nat → Scalar} (h : laneAccesses c g addr = []) (d : Reg) (size : Nat) :
    s.vectorStore c g d size addr = s := by
  rw [State.vectorStore, h]

theorem vectorStore_access {s : State} {c : Issue} {g : Group} {addr : Nat → Scalar} (h : laneAccesses c g addr ≠ []) (d : Reg) (size : Nat) :
    s.vectorStore c g d size addr = s.storeWord c g false size (laneAccesses c g addr) (laneBytes g d size) := by
  unfold State.vectorStore
  split
  · exact absurd ‹_› h
  · rw [funext (vectorData_eq g d size)]

theorem vectorStore_word {i : Instr} {d : Reg} {size : Nat} {addr : Group → Nat → Scalar}
    (h : ∀ s, exec i s = word i s fun c g => s.vectorStore c g d size (addr g)) :
    StoreWord i false size (fun c g => eachLane c g (addr g)) fun g j => laneBytes g d size j :=
  storeWord_of h (fun _ _ _ hn => vectorStore_nil hn d size) fun _ _ _ hs => vectorStore_access hs d size

theorem scalarStore_word {i : Instr} {d : Reg} {size : Nat} {addr : Group → Scalar}
    (h : ∀ s, exec i s = word i s fun c g => s.scalarStore c g d size (addr g)) :
    StoreWord i true size (fun _ g => [(0, addr g)]) fun g _ => scalarBytes g d size :=
  storeWord_of h (fun _ _ _ hn => absurd hn (List.cons_ne_nil _ _)) fun s c g _ =>
    congrArg (s.storeWord c g true size _) (funext fun _ => scalarData_eq g d size)

/-- Settles O16: each word is a vector or a scalar store of its own width and address. -/
theorem stores : Obligations.Stores :=
  ⟨fun _ _ _ => vectorStore_word fun _ => rfl, fun _ _ _ => vectorStore_word fun _ => rfl, fun _ _ _ => vectorStore_word fun _ => rfl,
    fun _ _ _ => vectorStore_word fun _ => rfl, fun _ _ _ => vectorStore_word fun _ => rfl, fun _ _ _ => vectorStore_word fun _ => rfl,
    fun _ _ _ => vectorStore_word fun _ => rfl, fun _ _ _ => scalarStore_word fun _ => rfl, fun _ _ _ => scalarStore_word fun _ => rfl,
    fun _ _ _ => scalarStore_word fun _ => rfl, fun _ _ _ => scalarStore_word fun _ => rfl⟩

/-! ## Atomics and far reductions sent (R228, R309) -/

/-- What signing one access keeps, signing those of a word keeps. -/
theorem signAll_keeps {α : Type} (p : Group → α) (hp : ∀ x a bytes, p (x.sign a bytes) = p x) (s : State) (g : Group)
    (ws : List (Scalar × Place × List Byte)) : p (s.signAll g ws) = p g := by
  unfold State.signAll
  split
  · refine List.foldlRecOn (motive := fun x => p x = p g) ws _ rfl fun x hx w _ => ?_
    split
    · exact (hp ..).trans hx
    · exact hx
  · rfl

@[simp] theorem signAll_ctx (s : State) (g : Group) (ws : List (Scalar × Place × List Byte)) : (s.signAll g ws).ctx = g.ctx :=
  signAll_keeps Group.ctx (fun _ _ _ => rfl) s g ws

@[simp] theorem signAll_core (s : State) (g : Group) (ws : List (Scalar × Place × List Byte)) : (s.signAll g ws).core = g.core :=
  signAll_keeps Group.core (fun _ _ _ => rfl) s g ws

@[simp] theorem signAll_clk (s : State) (g : Group) (ws : List (Scalar × Place × List Byte)) : (s.signAll g ws).clk = g.clk :=
  signAll_keeps Group.clk (fun _ _ _ => rfl) s g ws

/-- The lanes of an atomic as they issue, with their operands. -/
def atomLanes (good : List Located) (v v2 : Nat → Nat) : List (Scalar × AtomLane) :=
  good.map fun e => (e.2.1, { lane := e.1, va := e.2.1.toNat, place := e.2.2, v := v e.1, v2 := v2 e.1 })

/-- The group of an atomic, its accesses signed. -/
def atomGroup (t : State) (g : Group) (size : Nat) (good : List Located) (v : Nat → Nat) : Group :=
  t.signAll g (good.map fun e => (e.2.1, e.2.2, toBytes (v e.1) size))

/-- The atomic that is on its way. -/
def atomSent (seq : Nat) (c : Issue) (g : Group) (op : AtomOp) (size : Nat) (good : List Located) (v v2 : Nat → Nat) (returns : Bool) : Atomic :=
  { seq := seq, gid := c.gid, ctx := g.ctx, core := g.core, op := op, size := size,
    lanes := good.map fun e => { lane := e.1, va := e.2.1.toNat, place := e.2.2, v := v e.1, v2 := v2 e.1 },
    did := [], clk := g.clk, returns := returns, old := [], t := 0 }

section
variable (good : List Located) (v v2 : Nat → Nat)

@[simp] theorem atomLanes_lines : (atomLanes good v v2).map (fun e => e.2.place.line) = (good.map fun e => e.2.2).map Place.line := by
  simp [atomLanes]

@[simp] theorem atomLanes_lanes : (atomLanes good v v2).map (fun e => e.2.lane) = good.map fun e => e.1 := by simp [atomLanes]

@[simp] theorem atomLanes_snd : (atomLanes good v v2).map (fun e => e.2) =
    good.map fun e => { lane := e.1, va := e.2.1.toNat, place := e.2.2, v := v e.1, v2 := v2 e.1 } := by
  rw [atomLanes, List.map_map]
  rfl

@[simp] theorem atomLanes_signed (size : Nat) : (atomLanes good v v2).map (fun e => (e.1, e.2.place, toBytes e.2.v size)) =
    good.map fun e => (e.2.1, e.2.2, toBytes (v e.1) size) := by
  simp [atomLanes]

variable (t : State) (c : Issue) (g : Group) (op : AtomOp) (size : Nat)

/-- A value-returning atomic issues: entries of its lines drain, its accesses are signed, its result is outstanding, and it is on its
way. -/
theorem issueAtomic_some (dest : Dest) : t.issueAtomic c g op size (some dest) (atomLanes good v v2) =
    { (draining t c.gid (good.map fun e => e.2.2)).pushResult c.gid (atomGroup t g size good v)
        { (default : Result) with dest := dest, mask := maskOf (good.map fun e => e.1), ready := false } with
      atoms := t.atoms ++ [atomSent t.nextId c g op size good v v2 true] } := by
  simp only [State.issueAtomic, atomLanes_lines, atomLanes_lanes, atomLanes_snd, atomLanes_signed, signAll_ctx, signAll_core, signAll_clk]
  rfl

/-- A reduction issues: the same, without a result. -/
theorem issueAtomic_none : t.issueAtomic c g op size none (atomLanes good v v2) =
    { (draining t c.gid (good.map fun e => e.2.2)).fresh.setGroup c.gid (atomGroup t g size good v) with
      atoms := t.atoms ++ [atomSent t.nextId c g op size good v v2 false] } := by
  simp only [State.issueAtomic, atomLanes_lines, atomLanes_snd, atomLanes_signed, signAll_ctx, signAll_core, signAll_clk]
  rfl

end

/-- An atomic whose accesses are located has a result outstanding, and is on its way. -/
theorem issueAtomic_issued (t : State) (c : Issue) (g : Group) (op : AtomOp) (size : Nat) (dest : Dest) (good : List Located) (v v2 : Nat → Nat) :
    ∃ u r, Issued (draining t c.gid (good.map (·.2.2))) u c (atomGroup t g size good v) r ∧ r.dest = dest ∧ r.ready = false ∧ r.flags = 0 ∧
      r.mask = maskOf (good.map (·.1)) ∧
      t.issueAtomic c g op size (some dest) (atomLanes good v v2) = { u with atoms := t.atoms ++ [atomSent r.seq c g op size good v v2 true] } := by
  obtain ⟨tag, h⟩ := pushResult_issued (draining t c.gid (good.map (·.2.2))) c (atomGroup t g size good v)
    { (default : Result) with dest := dest, mask := maskOf (good.map (·.1)), ready := false }
  exact ⟨_, _, h, rfl, rfl, rfl, rfl, issueAtomic_some ..⟩

/-! ## Value-returning atomics (R78, R228, R298) -/

section
variable {s t : State} {c : Issue} {g : Group} {scalar : Bool} {op : AtomOp} {size : Nat} {dest : Group → Dest}
  {la : Group → List (Nat × Scalar)} {v v2 : Group → Nat → Nat}

theorem atomic_trap {code : Nat} {a : Scalar} {m : Mask} (hw : g.wait ≠ .fenced)
    (ht : s.addressTrap c g scalar false size (la g) = some (code, a, m)) :
    s.atomic c g scalar op size dest la v v2 = s.trapWord c g code 0 a m := by
  have hne : la g ≠ [] := fun h => by rw [h, addressTrap_nil] at ht; cases ht
  refine (if_neg hne).trans ?_
  unfold State.checkedFence
  split
  · exact absurd ‹_› hw
  · exact overHazard_of_trap ht _

theorem atomic_fenced {good : List Located} (hw : g.wait = .fenced) (hne : la g ≠ []) (hla : la { g with wait := .none } = la g)
    (hreach : Reaches (s.setGroup c.gid { g with wait := .none }) c { g with wait := .none } scalar true false size (la g) t good)
    (hm : g.memHazard c.gid (good.map fun e => (e.1, e.2.2, size)) = none) : s.atomic c g scalar op size dest la v v2 =
      (t.issueAtomic c { g with wait := .none } op size (some (dest { g with wait := .none }))
        (atomLanes good (v { g with wait := .none }) (v2 { g with wait := .none }))).spoilRestart c.gid := by
  obtain ⟨ht, hl⟩ := hreach
  refine (if_neg hne).trans ?_
  simp only [State.checkedFence, State.afterFence, hw, hla]
  exact (overHazard_of_located ht hl hm _).trans (access_of_good hne ht hl _)

end

/-- A word whose effect is an atomic of its accesses, with operands that a wait does not change. -/
theorem atomicWord_of {i : Instr} {scalar : Bool} {op : AtomOp} {size : Nat} {d : Reg} {n : Nat} {la : Issue → Group → List (Nat × Scalar)}
    {v v2 : Group → Nat → Nat} (h : ∀ s, exec i s = word i s fun c g => s.atomic c g scalar op size (fun g => g.dest d n) (la c) v v2)
    (hla : ∀ c g, la c { g with wait := .none } = la c g) (hv : ∀ g, v { g with wait := .none } = v g)
    (hv2 : ∀ g, v2 { g with wait := .none } = v2 g) : AtomicWord i scalar op size d n la v v2 := by
  refine ⟨fun s c g code a m hr hw ht => (h s).trans ((word_ready hr _).trans (congrArg _ (atomic_trap hw ht))),
    fun s c g t good hr hw hne hreach hm => ?_⟩
  have he := (h s).trans ((word_ready hr _).trans (congrArg _ (atomic_fenced hw hne (hla c g) hreach hm)))
  rw [hv, hv2] at he
  obtain ⟨u, r, hu, hdest, hready, hflags, hmask, hi⟩ := issueAtomic_issued t c { g with wait := .none } op size (g.dest d n) good (v g) (v2 g)
  exact ⟨u, r, hu, hdest, hready, hflags, hmask, he.trans (congrArg (fun x : State => Host.Outcome.next (x.spoilRestart c.gid)) hi)⟩

/-! ## Far reductions (R228, R299) -/

section
variable {s t : State} {c : Issue} {g : Group} {op : AtomOp} {d a b : Reg}

theorem reduceFar_nil (h : laneAccesses c g (g.addrV a b) = []) : s.reduceFar c g op d a b = s := by
  rw [State.reduceFar, h]

/-- A reduction that is not one replayed for faulted lanes: skipped while the restart replays it, else sent. -/
theorem reduceFar_counted (hr : g.replay = none) (h : laneAccesses c g (g.addrV a b) ≠ []) : s.reduceFar c g op d a b =
    if g.gredCount + 1 ≤ g.gredSkip then s.setGroup c.gid { g with gredCount := g.gredCount + 1 }
    else s.overHazard c g false false 4 (laneAccesses c g (g.addrV a b)) fun _ =>
      s.access c g false true false 4 (laneAccesses c g (g.addrV a b)) fun s g good =>
        s.issueAtomic c { g with gredCount := g.gredCount + 1 } op 4 none
          (atomLanes good (fun j => (g.srcV .d d j).toNat) fun _ => 0) := by
  unfold State.reduceFar
  split
  · exact absurd ‹_› h
  · simp [hr]
    rfl

end

theorem reductionWord_of {i : Instr} {op : AtomOp} {d a b : Reg} (h : ∀ s, exec i s = word i s fun c g => s.reduceFar c g op d a b) :
    ReductionWord i op d a b := by
  intro s c g hr hrep
  have he := (h s).trans (word_ready hr _)
  refine ⟨fun hn => he.trans (congrArg _ (reduceFar_nil hn)), fun hne hlt => ?_, fun t good hne hle hreach hm => ?_⟩
  · exact he.trans (congrArg _ ((reduceFar_counted hrep hne).trans (if_pos hlt)))
  · obtain ⟨ht, hl⟩ := hreach
    refine he.trans (congrArg _ ((reduceFar_counted hrep hne).trans ((if_neg (by omega)).trans ?_)))
    refine (overHazard_of_located ht hl hm _).trans ((access_of_good hne ht hl _).trans ?_)
    exact issueAtomic_none ..

theorem vatomWord_of {i : Instr} {op : AtomOp} {d a b : Reg} (h : ∀ s, exec i s = word i s fun c g => s.vatom c g op d a b) :
    AtomicWord i false op 4 d 1 (fun c g => eachLane c g (laneBase g a b)) (fun g j => (g.srcV .d d j).toNat) fun _ _ => 0 :=
  atomicWord_of h (fun _ _ => rfl) (fun _ => rfl) fun _ => rfl

/-- Settles O19: one lemma for the value-returning atomics, whose operands a wait does not change, and one for the far reductions. -/
theorem atomics : Obligations.Atomics := by
  refine ⟨fun e he d a b => ?vector, fun d a b => ?vectorCas, fun d a b => ?scalarAdd, fun d a b => ?scalarCas, fun d a b => ?reductions⟩
  case vector =>
    simp only [List.mem_cons, List.not_mem_nil, or_false] at he
    rcases he with rfl | rfl | rfl | rfl | rfl | rfl | rfl | rfl
    all_goals exact vatomWord_of fun _ => rfl
  case vectorCas => exact atomicWord_of (fun _ => rfl) (fun _ _ => rfl) (fun _ => rfl) fun _ => rfl
  case scalarAdd => exact atomicWord_of (fun _ => rfl) (fun _ _ => rfl) (fun _ => rfl) fun _ => rfl
  case scalarCas => exact atomicWord_of (fun _ => rfl) (fun _ _ => rfl) (fun _ => rfl) fun _ => rfl
  case reductions => exact ⟨reductionWord_of fun _ => rfl, reductionWord_of fun _ => rfl, reductionWord_of fun _ => rfl⟩

end Sys2Proof.Machine
end

section
/-! Translation and its faults (R204 to R206, R294, R315 to R319). -/

namespace Sys2Proof.Machine

open Sys2Proof.Safety

/-! ## Device memory (R205) -/

theorem dramOf_shared {first n b pa : Nat} (h : pa < n * b * 2 ^ 30) :
    dramOf first n b pa = .dram (first + pa / 2 ^ 12 % n) (pa / 2 ^ 12 / n * 2 ^ 12 + pa % 2 ^ 12) := if_pos h

theorem dramOf_placed {first n b pa : Nat} (h : n * b * 2 ^ 30 ≤ pa) : dramOf first n b pa =
    .dram (first + (pa - n * b * 2 ^ 30) / ((48 - b) * 2 ^ 30)) (b * 2 ^ 30 + (pa - n * b * 2 ^ 30) % ((48 - b) * 2 ^ 30)) := by
  refine (if_neg (Nat.not_lt.2 h)).trans ?_
  rw [Nat.mod_def, Nat.mul_comm ((48 - b) * 2 ^ 30)]

/-! ## Translation entries (R316) -/

section
variable (e : Scalar)

theorem pteBack_eq : pteBack e = backOf e := rfl

theorem pteAddr_eq : pteAddr e = frameOf e := rfl

theorem pteTgt_eq : pteTgt e = tgtOf e := by
  have := e.isLt
  simp only [pteTgt, bitsOf, tgtOf]
  omega

theorem levelShift_eq {level : Nat} (h : level < 4) : levelShift level = [39, 30, 21, 16].getD level 0 := by
  interval_cases level <;> rfl

theorem levelEntries_eq {level : Nat} (h : level < 4) : levelEntries level = [512, 512, 512, 32].getD level 0 := by
  interval_cases level <;> rfl

theorem pteIllFormed_iff {level : Nat} (h : level < 4) (bytes : Nat) :
    pteIllFormed level bytes e = true ↔ IllFormed level (2 ^ [39, 30, 21, 16].getD level 0) bytes e := by
  unfold pteIllFormed IllFormed
  rw [← levelShift_eq h, pteBack_eq, pteAddr_eq, pteTgt_eq, pteLeaf]
  by_cases hl : e.getLsbD 7 = true
  · simp only [hl, if_true, Bool.or_eq_true, decide_eq_true_eq]
    grind
  · simp only [hl, Bool.false_eq_true, if_false, Bool.or_eq_true, decide_eq_true_eq]
    grind

end

/-! ## The walk (R315) -/

section
variable {s : State} {ctx va level table : Nat} (fuel : Nat)

/-- The entry that the walk reads in a table of a level. -/
def State.walkEntry (s : State) (ctx va level table : Nat) : Scalar :=
  s.pteAt ctx table (va / 2 ^ levelShift level % levelEntries level)

/-- The bytes of device memory in the glade of a context. -/
def State.memoryBytes (s : State) (ctx : Nat) : Nat := gladeBytes (s.gladeAt (s.contextAt ctx).glade).len

theorem walkFrom_invalid (h : (s.walkEntry ctx va level table).getLsbD 0 = false) :
    s.walkFrom ctx va (fuel + 1) level table = .error 0x01 :=
  if_pos (congrArg (! ·) h)

theorem walkFrom_valid (h : (s.walkEntry ctx va level table).getLsbD 0 = true) : s.walkFrom ctx va (fuel + 1) level table =
    if pteIllFormed level (s.memoryBytes ctx) (s.walkEntry ctx va level table) then .error 0x03
    else if pteLeaf (s.walkEntry ctx va level table) then
      .ok { entry := s.walkEntry ctx va level table, base := va / 2 ^ levelShift level * 2 ^ levelShift level, size := 2 ^ levelShift level }
    else s.walkFrom ctx va fuel (level + 1) (pteAddr (s.walkEntry ctx va level table)) :=
  if_neg (by rw [show pteV (s.pteAt ctx table (va / 2 ^ levelShift level % levelEntries level)) = true from h]; decide)

end

/-! ## The judgement of a leaf (R204, R206, R317) -/

section
variable {s : State} {ctx va : Nat} {l : Leaf} {write byGroup : Bool}

theorem severed_iff (e : Scalar) : s.severed ctx e = true ↔
    (backOf e = 1 ∧ (s.contextAt ctx).sevp.getLsbD (tgtOf e) = true) ∨ (e.getLsbD 5 = true ∧ (s.contextAt ctx).sevgb = true) := by
  simp only [State.severed, pteBack_eq, pteTgt_eq, pteGb, Bool.or_eq_true, Bool.and_eq_true, beq_iff_eq]

/-- The frame of a leaf lies where the leaf says that it is placed: among the shared pages, or on a slice of its die. -/
def Placed (s : State) (ctx : Nat) (e : Scalar) : Prop :=
  let x := s.contextAt ctx
  let gl := s.gladeAt x.glade
  if e.getLsbD 59 = true then gl.len * gl.shareB * 2 ^ 30 ≤ frameOf e ∧
      (x.glade + (frameOf e - gl.len * gl.shareB * 2 ^ 30) / ((48 - gl.shareB) * 2 ^ 30)) / 3 = e.toNat / 2 ^ 57 % 4
    else frameOf e < gl.len * gl.shareB * 2 ^ 30

theorem placementOk_iff (e : Scalar) : s.placementOk ctx e = true ↔ Placed s ctx e := by
  by_cases h : e.getLsbD 59 = true
  · simp only [State.placementOk, ptePlaced, Placed, h, if_true, Bool.and_eq_true, decide_eq_true_eq]
    rfl
  · simp only [State.placementOk, ptePlaced, Placed, h, Bool.false_eq_true, if_false, decide_eq_true_eq]
    rfl

/-- Where a leaf leads: device memory, a host's page at its home, or a peer, as BACK says. -/
def leafTarget (s : State) (ctx : Nat) (e : Scalar) (a : Nat) : Target :=
  if backOf e = 0 then .place (s.dramPlace (s.contextAt ctx).glade a)
  else if backOf e = 1 then
    .place (.host (tgtOf e) ((s.contextAt ctx).glade + a / 2 ^ 12 % (s.gladeAt (s.contextAt ctx).glade).len) a)
  else .peer (tgtOf e) a

theorem judge_severed (h : s.severed ctx l.entry = true) : s.judge ctx l va write byGroup = .error (7, 0x05) := if_pos h

variable (hs : ¬ s.severed ctx l.entry = true)
include hs

theorem judge_misplaced (hb : backOf l.entry = 0) (hp : ¬ Placed s ctx l.entry) : s.judge ctx l va write byGroup = .error (7, 0x04) := by
  refine (if_neg hs).trans (if_pos ⟨hb, ?_⟩)
  rw [Bool.not_eq_true', ← Bool.not_eq_true, placementOk_iff]
  exact hp

variable (hp : backOf l.entry = 0 → Placed s ctx l.entry)
include hp

theorem judge_placed : s.judge ctx l va write byGroup =
    if backOf l.entry = 2 ∧ byGroup = true then .error (8, 0)
    else if write = true ∧ l.entry.getLsbD 1 = false then .error (if l.entry.getLsbD 6 then (7, 0x02) else (8, 0))
    else .ok (leafTarget s ctx l.entry (frameOf l.entry + (va - l.base))) := by
  have hok : ¬ (pteBack l.entry = 0 ∧ (!s.placementOk ctx l.entry) = true) := by
    rintro ⟨hb, hn⟩
    rw [(placementOk_iff _).2 (hp hb)] at hn
    cases hn
  refine (if_neg hs).trans ((if_neg hok).trans ?_)
  simp only [pteBack_eq, pteAddr_eq, pteTgt_eq, pteW, pteDt, hostHome, leafTarget, Bool.not_eq_true', Nat.reducePow]
  rfl

end

/-! ## Translations of a core (R318, R319) -/

section
variable {s : State} {core ctx va : Nat} {write : Bool}

/-- A walk of the tables anew: its fault, or the leaf judged, and cached where it is good. -/
def WalksAnew (s : State) (core ctx va : Nat) (write : Bool) : Prop :=
  (∀ d, s.walk ctx va = .error d → s.translate core ctx va write = (s, .error (7, d))) ∧
  ∀ l, s.walk ctx va = .ok l → (∀ e, s.judge ctx l va write true = .error e → s.translate core ctx va write = (s, .error e)) ∧
    ∀ t, s.judge ctx l va write true = .ok t →
      s.translate core ctx va write = (s.setCore core ((s.coreAt core).cacheLeaf ctx l), .ok t)

theorem walksAnew_of (h : s.translate core ctx va write = s.walked core ctx va write (s.walk ctx va)) : WalksAnew s core ctx va write := by
  have walked {r : Except Nat Leaf} (hr : s.walk ctx va = r) : s.translate core ctx va write = s.walked core ctx va write r :=
    h.trans (congrArg _ hr)
  exact ⟨fun d hd => walked hd, fun l hl => ⟨fun e he => (walked hl).trans (congrArg (s.keepGood core ctx l) he),
    fun t ht => (walked hl).trans (congrArg (s.keepGood core ctx l) ht)⟩⟩

theorem translate_uncached (h : (s.coreAt core).cached ctx va = none) : WalksAnew s core ctx va write :=
  walksAnew_of (by simp only [State.translate, h])

variable {l : Leaf} (hl : (s.coreAt core).cached ctx va = some l)
include hl

theorem translate_cached {t : Target} (h : s.judge ctx l va write true = .ok t) : s.translate core ctx va write = (s, .ok t) := by
  simp only [State.translate, hl, h]

theorem translate_refused {e : Nat × Nat} (h : s.judge ctx l va write true = .error e) : WalksAnew s core ctx va write :=
  walksAnew_of (by simp only [State.translate, hl, h])

end

/-! ## Notices (R347) -/

theorem sendNotice_frame (gs : List Guardian) (n : Notice) : ∀ s : State, { s.sendNotice gs n with pages := s.pages } = s := by
  induction gs with
  | nil => exact fun _ => rfl
  | cons x gs ih => exact fun s => congrArg (fun t : State => { t with pages := s.pages }) (ih (s.setPage x.vf x.page _))

theorem notify_frame (s : State) (ctx : Nat) (n : Notice) : { s.notify ctx n with contexts := s.contexts, pages := s.pages } = s := by
  unfold State.notify
  dsimp only
  split
  · rfl
  · exact congrArg (fun t : State => { t with contexts := s.contexts }) (sendNotice_frame _ _ (s.setContext ctx _))

/-- A notice of type 1 or 2 is no event that the queue of an orphan could lose. -/
theorem raise_frame (s : State) (ctx : Nat) {n : Notice} (h : n.type < 3) :
    { s.raise ctx n with contexts := s.contexts, pages := s.pages } = s := by
  have hn : (s.contextAt ctx).overflows n.type = false := by simp [Context.overflows, Nat.not_le.2 h]
  rw [State.raise, hn]
  exact notify_frame s ctx n

/-! ## The trap of the accesses that fault (R294) -/

/-- The fault is one that the guardian services and the word replays. -/
def Replays (f : Faulted) : Bool := decide (f.2.2.1 = 7 ∧ (f.2.2.2 = 1 ∨ f.2.2.2 = 2 ∨ f.2.2.2 = 5))

theorem replayable_eq (f : Faulted) : replayable f.2.2.1 f.2.2.2 = Replays f := by
  rw [Bool.eq_iff_iff]
  simp [replayable, Replays, or_assoc]

/-- The fault that decides the trap of the word: the lowest that is not replayable, else the lowest. -/
def decidingFault (f : Faulted) (bad : List Faulted) : Faulted := (bad.find? fun f => !Replays f).getD f

theorem decidingFault_mem (f : Faulted) (rest : List Faulted) : decidingFault f (f :: rest) ∈ f :: rest := by
  unfold decidingFault
  cases h : (f :: rest).find? fun f => !Replays f with
  | none => exact List.mem_cons_self ..
  | some e => exact List.mem_of_find?_eq_some h

/-- The lanes that TLANE names. -/
def faultLanes (scalar : Bool) (bad : List Faulted) : Mask := if scalar then 0 else maskOf (bad.map fun f => f.1)

/-- The group as its fault is delivered, its word given up. -/
def Group.faulting (g : Group) (c : Issue) : Group := { g with wait := .none, held := none, trapOwn := c.mark }

theorem logIllFormed_other {code detail : Nat} (h : ¬ (code = 7 ∧ detail = 3)) (s : State) (ctx : Nat) (a : Scalar) :
    s.logIllFormed ctx a code detail = s := if_neg h

theorem foldl_logIllFormed (ctx : Nat) (s : State) (bad : List Faulted) (h : ∀ f ∈ bad, ¬ (f.2.2.1 = 7 ∧ f.2.2.2 = 3)) :
    bad.foldl (fun (s : State) f => s.logIllFormed ctx f.2.1 f.2.2.1 f.2.2.2) s = s :=
  List.foldlRecOn (motive := fun t => t = s) bad _ rfl fun t ht f hf => (logIllFormed_other (h f hf) t ctx f.2.1).trans ht

section
variable {s : State} {c : Issue} {g : Group} {scalar : Bool} {f : Faulted} {rest : List Faulted}

theorem accessFault_eq (hg : s.groupAt c.gid = some g) (h : ∀ x ∈ f :: rest, ¬ (x.2.2.1 = 7 ∧ x.2.2.2 = 3)) :
    let e := decidingFault f (f :: rest)
    s.accessFault c scalar (f :: rest) =
      (s.deliverFault c.gid (g.faulting c) e.2.2.1 e.2.2.2 f.2.1 (faultLanes scalar (f :: rest)) c.plane (!scalar)).fate .left := by
  intro e
  have he : e = ((f :: rest).find? fun x => !Replays x).getD f := rfl
  simp only [State.accessFault, hg, foldl_logIllFormed _ s _ h, replayable_eq]
  cases hf : (f :: rest).find? fun x => !Replays x with
  | none => rw [he, hf]; rfl
  | some x => rw [he, hf]; rfl

end

section
variable {s : State} {gid : Nat} {g : Group} (code detail : Nat) (taddr : Scalar) (tlane : Mask) (plane : Nat) (lanes : Bool)

/-- A replayable fault of a group in user mode whose context has a guardian: the group waits for it, and a notice is raised. -/
theorem guardianFault_parks (hu : g.mode = .user) (hs : (s.contextAt g.ctx).state = .guarded ∨ (s.contextAt g.ctx).state = .shared) :
    { s.guardianFault gid g code detail taddr tlane plane lanes with contexts := s.contexts, pages := s.pages } =
      s.setGroup gid { g.record code detail taddr tlane g.off plane with
        laneTrap := lanes, held := none, wait := .guardian (s.contextAt g.ctx).nextNotice } := by
  have h1 : ¬ g.mode = .steward := by rw [hu]; decide
  have h2 : ¬ (s.contextAt g.ctx).state = .orphaned := by rcases hs with h | h <;> rw [h] <;> decide
  have h3 : ¬ (s.contextAt g.ctx).state = .suspended := by rcases hs with h | h <;> rw [h] <;> decide
  have he : s.guardianFault gid g code detail taddr tlane plane lanes = _ := (if_neg h1).trans ((if_neg h2).trans (if_neg h3))
  exact (congrArg (fun t : State => { t with contexts := s.contexts, pages := s.pages }) he).trans (raise_frame _ _ (show 1 < 3 by decide))

/-- The group with the trap registers of a fault recorded, as it enters its handler at `vec`. -/
def Group.recordFault (g : Group) (code detail : Nat) (taddr : Scalar) (tlane : Mask) (plane : Nat) (lanes : Bool) (vec : Nat) : Group :=
  { g.record code detail taddr tlane g.off plane with laneTrap := lanes || !(code == 7 || code == 8), vec := vec }

/-- Any other fault of a group in user mode with a handler: the entry, or the wait for the outstanding results. -/
theorem trap_user (hu : g.mode = .user) (ht : (s.contextAt g.ctx).tvec ≠ 0) : s.trap gid g code detail taddr tlane plane lanes =
    if g.results = [] then s.enter gid (g.recordFault code detail taddr tlane plane lanes (s.contextAt g.ctx).tvec)
    else s.setGroup gid { g.recordFault code detail taddr tlane plane lanes (s.contextAt g.ctx).tvec with wait := .trap } :=
  if_neg (by rw [hu]; exact not_or.2 ⟨by decide, ht⟩)

end

/-- `g'` holds in its trap registers the fault of `g`, and the vector registers of `g`. -/
structure FaultRecorded (g g' : Group) (code detail : Nat) (taddr : Scalar) (tlane : Mask) (plane : Nat) (lanes : Bool) : Prop where
  tcause : g'.tcause = tcauseWord code detail
  taddr : g'.taddr = taddr
  tlane : g'.tlane = tlane
  laneTrap : code = 7 ∨ code = 8 → g'.laneTrap = lanes
  toff : g'.toff = BitVec.ofNat 20 g.off
  tdone : g'.tdone = g.doneP
  tplane : g'.tplane = BitVec.ofNat 2 plane
  vregs : g'.vregs = g.vregs

/-- `g'` is `g` after its fault has been delivered: recorded, the outstanding results kept, and the group waiting for its guardian,
waiting for its results, or in its handler. -/
structure FaultTaken (g g' : Group) (code detail : Nat) (taddr : Scalar) (tlane : Mask) (plane : Nat) (lanes : Bool) (notice : Nat) : Prop extends
    FaultRecorded g g' code detail taddr tlane plane lanes where
  results : g'.results = g.results
  parks : replayable code detail = true → g'.mode = .user ∧ g'.wait = .guardian notice
  waits : replayable code detail = false → g.results ≠ [] → g'.mode = .user ∧ g'.wait = .trap
  enters : replayable code detail = false → g.results = [] → g'.mode = .steward ∧ g'.off = 0 ∧ g'.wait = .none

theorem laneTrap_of_fault (lanes : Bool) {code : Nat} (h : code = 7 ∨ code = 8) : (lanes || !(code == 7 || code == 8)) = lanes := by
  rcases h with rfl | rfl
  · exact Bool.or_false _
  · exact Bool.or_false _

section
variable {s : State} {gid : Nat} {x g : Group} {code detail : Nat} {taddr : Scalar} {tlane : Mask} {plane : Nat} {lanes : Bool}

theorem recordFault_recorded (vec : Nat) :
    FaultRecorded g (g.recordFault code detail taddr tlane plane lanes vec) code detail taddr tlane plane lanes :=
  ⟨rfl, rfl, rfl, laneTrap_of_fault lanes, rfl, rfl, rfl, rfl⟩

/-- The entry into the handler keeps the trap registers. -/
theorem enter_recorded (h : FaultRecorded g x code detail taddr tlane plane lanes) (hr : x.results = []) :
    ∃ g', s.enter gid x = s.setGroup gid g' ∧ FaultRecorded g g' code detail taddr tlane plane lanes ∧ g'.results = [] ∧
      g'.mode = .steward ∧ g'.off = 0 ∧ g'.wait = .none := by
  obtain ⟨h1, h2, h3, h4, h5, h6, h7, h8⟩ := h
  exact ⟨_, rfl, ⟨h1, h2, h3, h4, h5, h6, h7, h8⟩, congrArg (List.map _) hr, rfl, rfl, rfl⟩

/-- A fault delivered in user mode, to a handler or to a guardian, changes the group, and the notices of its context. -/
theorem deliverFault_user (hx : s.groupAt gid = some x) (hu : g.mode = .user) (ht : (s.contextAt g.ctx).tvec ≠ 0)
    (hs : (s.contextAt g.ctx).state = .guarded ∨ (s.contextAt g.ctx).state = .shared) :
    ∃ g', { s.deliverFault gid g code detail taddr tlane plane lanes with contexts := s.contexts, pages := s.pages } = s.setGroup gid g' ∧
      FaultTaken g g' code detail taddr tlane plane lanes (s.contextAt g.ctx).nextNotice := by
  have hd : s.deliverFault gid g code detail taddr tlane plane lanes =
      if replayable code detail then s.guardianFault gid g code detail taddr tlane plane lanes
      else s.trap gid g code detail taddr tlane plane lanes := by simp only [State.deliverFault, hx]
  have keep {t : State} (h : s.deliverFault gid g code detail taddr tlane plane lanes = t) :
      { s.deliverFault gid g code detail taddr tlane plane lanes with contexts := s.contexts, pages := s.pages } =
        { t with contexts := s.contexts, pages := s.pages } := by rw [h]
  by_cases hr : replayable code detail = true
  · have hparks := guardianFault_parks (gid := gid) code detail taddr tlane plane lanes hu hs
    exact ⟨_, (keep (hd.trans (if_pos hr))).trans hparks, ⟨⟨rfl, rfl, rfl, fun _ => rfl, rfl, rfl, rfl, rfl⟩, rfl, fun _ => ⟨hu, rfl⟩,
      fun h => absurd hr (ne_true_of_eq_false h), fun h => absurd hr (ne_true_of_eq_false h)⟩⟩
  · have hrecorded := recordFault_recorded (g := g) (code := code) (detail := detail) (taddr := taddr) (tlane := tlane) (plane := plane)
      (lanes := lanes) (s.contextAt g.ctx).tvec
    have htrap := hd.trans ((if_neg hr).trans (trap_user code detail taddr tlane plane lanes hu ht))
    by_cases hn : g.results = []
    · obtain ⟨g', he, hrec, hres, hin⟩ := enter_recorded (s := s) (gid := gid) hrecorded hn
      exact ⟨g', keep (htrap.trans ((if_pos hn).trans he)),
        ⟨hrec, hres.trans hn.symm, fun h => absurd h hr, fun _ h => absurd hn h, fun _ _ => hin⟩⟩
    · obtain ⟨h1, h2, h3, h4, h5, h6, h7, h8⟩ := hrecorded
      exact ⟨_, keep (htrap.trans (if_neg hn)), ⟨⟨h1, h2, h3, h4, h5, h6, h7, h8⟩, rfl, fun h => absurd h hr, fun _ _ => ⟨hu, rfl⟩,
        fun _ h => absurd h hn⟩⟩

end

theorem tcauseWord_of_lt {code detail : Nat} (hc : code < 32) (hd : detail < 256) :
    tcauseWord code detail = BitVec.ofNat 64 (detail * 256 + code) := by
  rw [tcauseWord, Nat.mod_eq_of_lt hc, Nat.mod_eq_of_lt hd]

/-! ## The obligation -/

/-- Settles O14: the lemmas on device memory, the walk, the judgement of a leaf, cached translations, located accesses and the
delivery of a fault, each against the statement's form of it. -/
theorem accessesLocated : Obligations.AccessesLocated := by
  refine ⟨fun s glade pa => ⟨dramOf_shared, fun h _ => dramOf_placed h⟩, fun _ _ _ => rfl, fun s ctx va fuel level table hlevel => ?walk,
    fun s ctx l va write byGroup => ⟨fun h => judge_severed ((severed_iff _).2 h), fun h => ?judge⟩,
    fun s core ctx va write => ⟨translate_uncached, fun l hl => ⟨fun t => translate_cached hl, fun e => translate_refused hl⟩⟩,
    fun s c g scalar write regs size la t good h => ?located, fun s c g scalar bad i a code d rest hc hg hu ht hs hbad hf => ?faults⟩
  case walk =>
    intro glade bytes span index e
    have he : s.walkEntry ctx va level table = e := by
      simp only [State.walkEntry, State.pteAt, levelShift_eq hlevel, levelEntries_eq hlevel]
      rfl
    have hill : pteIllFormed level (s.memoryBytes ctx) e = true ↔ IllFormed level span bytes e := pteIllFormed_iff e hlevel bytes
    refine ⟨fun h0 => walkFrom_invalid fuel (he ▸ h0), fun h0 h => ?_, fun h0 h => ⟨fun h7 => ?_, fun h7 => ?_⟩⟩
    · rw [walkFrom_valid fuel (he ▸ h0), he, if_pos (hill.2 h)]
    · rw [walkFrom_valid fuel (he ▸ h0), he, if_neg (mt hill.1 h), if_pos (show pteLeaf e = true from h7), levelShift_eq hlevel]
    · rw [walkFrom_valid fuel (he ▸ h0), he, if_neg (mt hill.1 h), if_neg (show ¬ pteLeaf e = true from ne_true_of_eq_false h7)]
      rfl
  case judge =>
    have hs := mt (severed_iff l.entry).1 h
    refine ⟨judge_misplaced hs, fun hp => ⟨fun hb hg => ?_, fun hpeer => ⟨fun hw hro => ?_, fun hperm =>
      ⟨fun hb => ?_, fun hb => ?_, fun hb => ?_⟩⟩⟩⟩
    · rw [judge_placed hs hp, if_pos ⟨hb, hg⟩]
    · rw [judge_placed hs hp, if_neg hpeer, if_pos ⟨hw, hro⟩]
    · rw [judge_placed hs hp, if_neg hpeer, if_neg hperm, leafTarget, if_pos hb]
    · rw [judge_placed hs hp, if_neg hpeer, if_neg hperm, leafTarget, if_neg (by omega), if_pos hb]
    · rw [judge_placed hs hp, if_neg hpeer, if_neg hperm, leafTarget, if_neg (by omega), if_neg (by omega)]
  case located =>
    obtain ⟨hmapped, hlocated⟩ := h
    have hall := located_all hmapped hlocated
    have hframe := locateAll_cachedOnly c g write la s
    have hhere := locateAll_here c g write la s
    rw [hlocated] at hframe hhere
    exact ⟨hall, fun e he => ⟨(addressTrap_eq_none hmapped).1 _ (hhere e he).1, (hhere e he).2⟩, hframe⟩
  case faults =>
    subst hbad
    intro retry e t
    obtain ⟨g', hframe, htaken⟩ := deliverFault_user (g := g.faulting c) (code := e.2.2.1) (detail := e.2.2.2) (taddr := a)
      (tlane := faultLanes scalar ((i, a, code, d) :: rest)) (plane := c.plane) (lanes := !scalar) hg hu ht hs
    have hmem := hf e (decidingFault_mem (i, a, code, d) rest)
    have ht : t = State.fate _ .left := accessFault_eq hg fun f h => (hf f h).2.2
    refine ⟨g', ?_⟩
    rw [ht]
    refine ⟨(congrArg (State.groupAt · c.gid) hframe).trans (groupAt_setGroup_same ..), ?_, fun k hk => ?_, ?_, htaken.taddr, htaken.tlane,
      htaken.laneTrap, htaken.toff, htaken.tdone, htaken.tplane, htaken.vregs, htaken.results, (congrArg State.loads hframe :),
      (congrArg State.entries hframe :), (congrArg State.locals hframe :), ⟨(congrArg State.dram hframe :), (congrArg State.hostMem hframe :),
      (congrArg State.vaultMem hframe :), (congrArg State.keys hframe :)⟩, ?_, ?_, ?_⟩
    · exact congrArg (Option.map fun x => { x with fate := Fate.left }) ((congrArg State.cur hframe).trans hc)
    · exact (congrArg (State.groupAt · k) hframe).trans (groupAt_setGroup_other _ _ hk)
    · exact htaken.tcause.trans (tcauseWord_of_lt hmem.1 hmem.2.1)
    · exact fun h => htaken.parks ((replayable_eq e).trans h)
    · exact fun h => htaken.waits ((replayable_eq e).trans h)
    · exact fun h => htaken.enters ((replayable_eq e).trans h)

end Sys2Proof.Machine
end

section
/-! `nop`, `park`, the window, `tick`, `spin` and `exit`; the barriers of a group that ends (R72 to R76, R184, R187, R221, R257). -/

namespace Sys2Proof.Machine

open Sys2Proof.Safety

theorem at?_drop_same {α : Type} (t : Table α) (k : Nat) : (t.drop k).at? k = none := by
  induction t with
  | nil => rfl
  | cons e t ih =>
    by_cases h : e.1 = k
    · rw [Table.drop, List.filter_cons_of_neg (by simpa using h)]; exact ih
    · rw [Table.drop, List.filter_cons_of_pos (by simpa using h)]
      exact (if_neg h).trans ih

theorem at?_drop_other {α : Type} (t : Table α) {j k : Nat} (hj : j ≠ k) : (t.drop k).at? j = t.at? j := by
  induction t with
  | nil => rfl
  | cons e t ih =>
    by_cases h : e.1 = k
    · rw [Table.drop, List.filter_cons_of_neg (by simpa using h)]
      exact ih.trans (if_neg (by omega)).symm
    · rw [Table.drop, List.filter_cons_of_pos (by simpa using h)]
      simp only [Table.at?]
      rw [← Table.drop, ih]

/-! ## Counts (R184) -/

theorem reached_eq (a b : BitVec 32) : reached a b = notBefore a b := by
  rw [reached, notBefore, ← BitVec.msb_eq_getLsbD_last (a - b), BitVec.msb_eq_decide, ← decide_not]
  exact decide_eq_decide.2 Nat.not_le

/-! ## The barriers of a group's units (R184) -/

/-- What leaving them all may change of the state: the barriers, and the steps of cores that a completion rebalances. -/
def BarriersOnly (s t : State) : Prop := { t with groves := s.groves, launches := s.launches, cores := s.cores, draws := s.draws } = s

theorem BarriersOnly.trans {s t u : State} (h : BarriersOnly s t) (k : BarriersOnly t u) : BarriersOnly s u := by
  unfold BarriersOnly at h k ⊢
  exact (congrArg (fun x : State => { x with groves := s.groves, launches := s.launches, cores := s.cores, draws := s.draws }) k).trans h

/-- The grove and the launch of the group stand as in `s`: the copy, the groups that live and the record are the same. -/
structure SameUnits (g : Group) (s t : State) : Prop where
  grove : (t.groves.at? g.grove).map (fun v => (v.copy, v.alive)) = (s.groves.at? g.grove).map fun v => (v.copy, v.alive)
  launch : (t.launches.at? g.launch).map (fun x => x.rcd) = (s.launches.at? g.launch).map fun x => x.rcd

/-- Barrier b has a place in the state: a grove barrier in the group's grove, any other in its launch. -/
structure Hosted (g : Group) (b : Nat) (s : State) : Prop where
  grove : b < 16 → (s.groves.at? g.grove).isSome = true
  launch : 16 ≤ b → (s.launches.at? g.launch).isSome = true

section
variable {g : Group} {s t u : State}

theorem SameUnits.trans (h : SameUnits g s t) (k : SameUnits g t u) : SameUnits g s u := ⟨k.1.trans h.1, k.2.trans h.2⟩

theorem SameUnits.hosted (h : SameUnits g s t) {b : Nat} (hb : Hosted g b s) : Hosted g b t := by
  refine ⟨fun hlt => ?_, fun hle => ?_⟩
  · have := congrArg Option.isSome h.grove
    rw [Option.isSome_map, Option.isSome_map] at this
    exact this.trans (hb.grove hlt)
  · have := congrArg Option.isSome h.launch
    rw [Option.isSome_map, Option.isSome_map] at this
    exact this.trans (hb.launch hle)

theorem getD_eq_of_map_eq {α β : Type} {f : α → β} {o p : Option α} (h : o.map f = p.map f) (d : α) : f (o.getD d) = f (p.getD d) := by
  rw [← Option.getD_map f d o, h, Option.getD_map]

theorem SameUnits.copyOf (h : SameUnits g s t) : t.copyOf g = s.copyOf g := congrArg Prod.fst (getD_eq_of_map_eq h.grove default)

theorem SameUnits.rcd (h : SameUnits g s t) : (t.launchAt g.launch).rcd = (s.launchAt g.launch).rcd := getD_eq_of_map_eq h.launch default

theorem SameUnits.copseKey (h : SameUnits g s t) (b : Nat) : t.copseKey g b = s.copseKey g b := by
  rw [State.copseKey, State.copseKey, h.copyOf, h.rcd]

theorem SameUnits.launchKey (h : SameUnits g s t) (b : Nat) : t.launchKey g b = s.launchKey g b := by
  rw [State.launchKey, State.launchKey, h.copyOf]

theorem at?_alter_map {α β : Type} (tbl : Table α) (k j : Nat) (f : α → α) (p : α → β) (hp : ∀ x, p (f x) = p x) :
    ((tbl.alter k f).at? j).map p = (tbl.at? j).map p := by
  by_cases h : j = k
  · subst h
    rw [Table.at?_alter_same, Option.map_map]
    exact congrFun (congrArg Option.map (funext hp)) _
  · rw [Table.at?_alter_other _ _ h]

theorem sameUnits_setBarrier (s : State) (g : Group) (b : Nat) (x : Barrier) : SameUnits g s (s.setBarrier g b x) := by
  unfold State.setBarrier
  split
  · exact ⟨at?_alter_map s.groves _ _ (fun v => { v with bars := v.bars.put b x }) _ fun _ => rfl, rfl⟩
  · split
    · exact ⟨rfl, at?_alter_map s.launches _ _ (fun l => { l with copseBars := l.copseBars.put (s.copseKey g b) x }) _ fun _ => rfl⟩
    · exact ⟨rfl, at?_alter_map s.launches _ _ (fun l => { l with launchBars := l.launchBars.put (s.launchKey g b) x }) _ fun _ => rfl⟩

/-! ## A barrier replaced -/

theorem barrierAt_grove (s : State) (g : Group) {b : Nat} (h : b < 16) : s.barrierAt g b = ((s.groveAt g.grove).bars.at? b).getD default :=
  if_pos h

theorem barrierAt_copse (s : State) (g : Group) {b : Nat} (h : 16 ≤ b) (h' : b < 20) :
    s.barrierAt g b = ((s.launchAt g.launch).copseBars.at? (s.copseKey g b)).getD default :=
  (if_neg (Nat.not_lt.2 h)).trans (if_pos h')

theorem barrierAt_launch (s : State) (g : Group) {b : Nat} (h : 20 ≤ b) :
    s.barrierAt g b = ((s.launchAt g.launch).launchBars.at? (s.launchKey g b)).getD default :=
  (if_neg (by omega)).trans (if_neg (by omega))

theorem setBarrier_grove (s : State) (g : Group) {b : Nat} (h : b < 16) (x : Barrier) :
    s.setBarrier g b x = { s with groves := s.groves.alter g.grove fun v => { v with bars := v.bars.put b x } } := if_pos h

theorem setBarrier_copse (s : State) (g : Group) {b : Nat} (h : 16 ≤ b) (h' : b < 20) (x : Barrier) :
    s.setBarrier g b x =
      { s with launches := s.launches.alter g.launch fun l => { l with copseBars := l.copseBars.put (s.copseKey g b) x } } :=
  (if_neg (Nat.not_lt.2 h)).trans (if_pos h')

theorem setBarrier_launch (s : State) (g : Group) {b : Nat} (h : 20 ≤ b) (x : Barrier) :
    s.setBarrier g b x =
      { s with launches := s.launches.alter g.launch fun l => { l with launchBars := l.launchBars.put (s.launchKey g b) x } } :=
  (if_neg (by omega)).trans (if_neg (by omega))

theorem barrierAt_setBarrier_same (s : State) (g : Group) {b : Nat} (x : Barrier) (h : Hosted g b s) :
    (s.setBarrier g b x).barrierAt g b = x := by
  have hu := sameUnits_setBarrier s g b x
  rcases Nat.lt_or_ge b 16 with hb | hb
  · obtain ⟨v, hv⟩ := Option.isSome_iff_exists.1 (h.grove hb)
    rw [barrierAt_grove _ _ hb, setBarrier_grove _ _ hb, State.groveAt, Table.at?_alter_same, hv]
    simp
  · obtain ⟨l, hl⟩ := Option.isSome_iff_exists.1 (h.launch hb)
    rcases Nat.lt_or_ge b 20 with hb' | hb'
    · rw [barrierAt_copse _ _ hb hb', hu.copseKey, setBarrier_copse _ _ hb hb', State.launchAt, Table.at?_alter_same, hl]
      simp
    · rw [barrierAt_launch _ _ hb', hu.launchKey, setBarrier_launch _ _ hb', State.launchAt, Table.at?_alter_same, hl]
      simp

/-- A part of a grove that `f` keeps, once `f` has been applied to it. -/
theorem groveAt_alter {β : Type} (s : State) (k : Nat) (f : Grove → Grove) (p : Grove → β) (hp : ∀ v, p (f v) = p v) :
    p (({ s with groves := s.groves.alter k f } : State).groveAt k) = p (s.groveAt k) :=
  getD_eq_of_map_eq (at?_alter_map s.groves k k f p hp) default

theorem launchAt_alter {β : Type} (s : State) (k : Nat) (f : Launch → Launch) (p : Launch → β) (hp : ∀ l, p (f l) = p l) :
    p (({ s with launches := s.launches.alter k f } : State).launchAt k) = p (s.launchAt k) :=
  getD_eq_of_map_eq (at?_alter_map s.launches k k f p hp) default

section
variable (s : State) (g : Group) {b : Nat} (x : Barrier)

theorem bars_setBarrier_other {j : Nat} (h : j ≠ b) :
    ((s.setBarrier g b x).groveAt g.grove).bars.at? j = (s.groveAt g.grove).bars.at? j := by
  rcases Nat.lt_or_ge b 16 with hb | hb
  · rw [setBarrier_grove _ _ hb]
    exact groveAt_alter s _ _ (fun v => v.bars.at? j) fun v => Table.at?_put_other _ _ h
  · rcases Nat.lt_or_ge b 20 with hb' | hb'
    · rw [setBarrier_copse _ _ hb hb']; rfl
    · rw [setBarrier_launch _ _ hb']; rfl

theorem copseBars_setBarrier_other {k : Nat} (h : 16 ≤ b → b < 20 → k ≠ s.copseKey g b) :
    ((s.setBarrier g b x).launchAt g.launch).copseBars.at? k = (s.launchAt g.launch).copseBars.at? k := by
  rcases Nat.lt_or_ge b 16 with hb | hb
  · rw [setBarrier_grove _ _ hb]; rfl
  · rcases Nat.lt_or_ge b 20 with hb' | hb'
    · rw [setBarrier_copse _ _ hb hb']
      exact launchAt_alter s _ _ (fun l => l.copseBars.at? k) fun l => Table.at?_put_other _ _ (h hb hb')
    · rw [setBarrier_launch _ _ hb']
      exact launchAt_alter s _ _ (fun l => l.copseBars.at? k) fun l => rfl

theorem launchBars_setBarrier_other {k : Nat} (h : 20 ≤ b → k ≠ s.launchKey g b) :
    ((s.setBarrier g b x).launchAt g.launch).launchBars.at? k = (s.launchAt g.launch).launchBars.at? k := by
  rcases Nat.lt_or_ge b 16 with hb | hb
  · rw [setBarrier_grove _ _ hb]; rfl
  · rcases Nat.lt_or_ge b 20 with hb' | hb'
    · rw [setBarrier_copse _ _ hb hb']
      exact launchAt_alter s _ _ (fun l => l.launchBars.at? k) fun l => rfl
    · rw [setBarrier_launch _ _ hb']
      exact launchAt_alter s _ _ (fun l => l.launchBars.at? k) fun l => Table.at?_put_other _ _ (h hb')

theorem barrierAt_setBarrier_other {j : Nat} (h : j ≠ b) : (s.setBarrier g b x).barrierAt g j = s.barrierAt g j := by
  have hu := sameUnits_setBarrier s g b x
  rcases Nat.lt_or_ge j 16 with hj | hj
  · rw [barrierAt_grove _ _ hj, barrierAt_grove _ _ hj, bars_setBarrier_other s g x h]
  · rcases Nat.lt_or_ge j 20 with hj' | hj'
    · rw [barrierAt_copse _ _ hj hj', barrierAt_copse _ _ hj hj', hu.copseKey, copseBars_setBarrier_other]
      intro hb hb'
      simp only [State.copseKey]
      omega
    · rw [barrierAt_launch _ _ hj', barrierAt_launch _ _ hj', hu.launchKey, launchBars_setBarrier_other]
      intro hb
      simp only [State.launchKey]
      omega

theorem barriersOnly_setBarrier : BarriersOnly s (s.setBarrier g b x) := by
  unfold State.setBarrier
  split
  · rfl
  · split
    · rfl
    · rfl

end

/-! ## A barrier left (R165, R187) -/

theorem rebalance_frame (s : State) (order : List Nat) : { s.rebalance order with cores := s.cores, draws := s.draws } = s := by
  unfold State.rebalance
  split
  · split
    · rfl
    · dsimp only
      split
      · rfl
      · rfl
  · rfl

/-- What a barrier reads as rests on the groves and launches alone. -/
theorem barrierAt_of_frame (h : { t with cores := s.cores, draws := s.draws } = s) (b : Nat) : t.barrierAt g b = s.barrierAt g b := by
  rw [← h]
  rfl

/-- A barrier once an arrived or expected group has left it: its arrival in the open phase uncounted, one group fewer expected, and the
phase complete if what is left has arrived. -/
def leftBarrier (g : Group) (b : Nat) (x : Barrier) : Barrier :=
  let k := if notBefore x.ph (g.counted b) then x.c else x.c - 1
  if k ≠ 0 ∧ k = x.expd - 1 then { x with c := 0, ph := x.ph + 1, t := x.open_, open_ := 0, order := [], expd := x.expd - 1 }
  else { x with c := k, expd := x.expd - 1 }

/-- A barrier whose open phase has completed. -/
def completed (x : Barrier) : Barrier := { x with t := x.open_, ph := x.ph + 1, c := 0, open_ := 0, order := [] }

theorem completeBarrier_frame (s : State) (g : Group) (b : Nat) :
    let u := s.setBarrier g b (completed (s.barrierAt g b))
    { s.completeBarrier g b with cores := u.cores, draws := u.draws } = u := by
  unfold State.completeBarrier
  dsimp only
  split
  · exact rebalance_frame _ _
  · rfl

section
variable (s : State) (g : Group) {b : Nat}

theorem barriersOnly_of_frame {s u t : State} (h : BarriersOnly s u) (k : { t with cores := u.cores, draws := u.draws } = u) :
    BarriersOnly s t := by
  unfold BarriersOnly at h ⊢
  exact (congrArg (fun x : State => { x with groves := s.groves, launches := s.launches, cores := s.cores, draws := s.draws }) k).trans h

theorem sameUnits_of_frame {s u t : State} (h : SameUnits g s u) (k : { t with cores := u.cores, draws := u.draws } = u) : SameUnits g s t := by
  have hgroves : t.groves = u.groves := (congrArg State.groves k :)
  have hlaunches : t.launches = u.launches := (congrArg State.launches k :)
  exact ⟨hgroves ▸ h.grove, hlaunches ▸ h.launch⟩

theorem completeBarrier_barriersOnly : BarriersOnly s (s.completeBarrier g b) :=
  barriersOnly_of_frame (barriersOnly_setBarrier ..) (completeBarrier_frame s g b)

theorem completeBarrier_sameUnits : SameUnits g s (s.completeBarrier g b) :=
  sameUnits_of_frame g (sameUnits_setBarrier ..) (completeBarrier_frame s g b)

theorem barrierAt_completeBarrier_same (hb : Hosted g b s) : (s.completeBarrier g b).barrierAt g b = completed (s.barrierAt g b) :=
  (barrierAt_of_frame (completeBarrier_frame s g b) b).trans (barrierAt_setBarrier_same s g _ hb)

theorem barrierAt_completeBarrier_other {j : Nat} (hj : j ≠ b) : (s.completeBarrier g b).barrierAt g j = s.barrierAt g j :=
  (barrierAt_of_frame (completeBarrier_frame s g b) j).trans (barrierAt_setBarrier_other s g _ hj)

/-- The barrier uncounted and expected no more, before its phase is looked at. -/
def uncounted (g : Group) (b : Nat) (x : Barrier) : Barrier :=
  { x with c := if reached x.ph (g.counted b) then x.c else x.c - 1, expd := x.expd - 1 }

theorem leftBarrier_eq (g : Group) (b : Nat) (x : Barrier) : leftBarrier g b x =
    let y := uncounted g b x
    if y.c ≠ 0 ∧ y.c = y.expd then completed y else y := by
  simp only [leftBarrier, uncounted, completed, reached_eq]

/-- A barrier left: replaced, and its phase complete if what is left has arrived. -/
theorem leaveBarrier_cases :
    let x := uncounted g b (s.barrierAt g b)
    (x.c ≠ 0 ∧ x.c = x.expd ∧ s.leaveBarrier g b = (s.setBarrier g b x).completeBarrier g b) ∨
      (¬ (x.c ≠ 0 ∧ x.c = x.expd) ∧ s.leaveBarrier g b = s.setBarrier g b x) := by
  intro x
  by_cases h : x.c ≠ 0 ∧ x.c = x.expd
  · exact .inl ⟨h.1, h.2, if_pos h⟩
  · exact .inr ⟨h, if_neg h⟩

theorem leaveBarrier_barriersOnly : BarriersOnly s (s.leaveBarrier g b) := by
  rcases leaveBarrier_cases s g (b := b) with ⟨_, _, h⟩ | ⟨_, h⟩
  · exact h ▸ (barriersOnly_setBarrier ..).trans (completeBarrier_barriersOnly ..)
  · exact h ▸ barriersOnly_setBarrier ..

theorem leaveBarrier_sameUnits : SameUnits g s (s.leaveBarrier g b) := by
  rcases leaveBarrier_cases s g (b := b) with ⟨_, _, h⟩ | ⟨_, h⟩
  · exact h ▸ (sameUnits_setBarrier ..).trans (completeBarrier_sameUnits ..)
  · exact h ▸ sameUnits_setBarrier ..

theorem barrierAt_leaveBarrier_same (hb : Hosted g b s) : (s.leaveBarrier g b).barrierAt g b = leftBarrier g b (s.barrierAt g b) := by
  have hset := barrierAt_setBarrier_same s g (uncounted g b (s.barrierAt g b)) hb
  have hhost := (sameUnits_setBarrier s g b (uncounted g b (s.barrierAt g b))).hosted hb
  rw [leftBarrier_eq]
  rcases leaveBarrier_cases s g (b := b) with ⟨h0, h1, h⟩ | ⟨hn, h⟩
  · rw [h, barrierAt_completeBarrier_same _ _ hhost, hset, if_pos ⟨h0, h1⟩]
  · rw [h, hset, if_neg hn]

theorem barrierAt_leaveBarrier_other {j : Nat} (hj : j ≠ b) : (s.leaveBarrier g b).barrierAt g j = s.barrierAt g j := by
  rcases leaveBarrier_cases s g (b := b) with ⟨_, _, h⟩ | ⟨_, h⟩
  · rw [h, barrierAt_completeBarrier_other _ _ hj, barrierAt_setBarrier_other _ _ _ hj]
  · rw [h, barrierAt_setBarrier_other _ _ _ hj]

end

/-! ## All barriers of a group left (R187) -/

/-- The barriers of a list left, one after another. -/
def State.leaveBarriers (s : State) (g : Group) (bs : List Nat) : State := bs.foldl (fun (s : State) b => s.leaveBarrier g b) s

theorem leaveBarriers_barriersOnly (g : Group) (bs : List Nat) : ∀ s : State, BarriersOnly s (s.leaveBarriers g bs) := by
  induction bs with
  | nil => exact fun _ => rfl
  | cons b bs ih => exact fun s => (leaveBarrier_barriersOnly s g).trans (ih _)

theorem leaveBarriers_sameUnits (g : Group) (bs : List Nat) : ∀ s : State, SameUnits g s (s.leaveBarriers g bs) := by
  induction bs with
  | nil => exact fun _ => ⟨rfl, rfl⟩
  | cons b bs ih => exact fun s => (leaveBarrier_sameUnits s g).trans (ih _)

theorem barrierAt_leaveBarriers_other (g : Group) {j : Nat} (bs : List Nat) (hj : j ∉ bs) : ∀ s : State,
    (s.leaveBarriers g bs).barrierAt g j = s.barrierAt g j := by
  induction bs with
  | nil => exact fun _ => rfl
  | cons b bs ih =>
    obtain ⟨hb, hbs⟩ := not_or.1 (mt List.mem_cons.2 hj)
    exact fun s => (ih hbs _).trans (barrierAt_leaveBarrier_other s g hb)

/-- Each barrier of the list is left once. -/
theorem barrierAt_leaveBarriers (g : Group) {b : Nat} (bs : List Nat) (hn : bs.Nodup) (hb : b ∈ bs) : ∀ s : State, Hosted g b s →
    (s.leaveBarriers g bs).barrierAt g b = leftBarrier g b (s.barrierAt g b) := by
  induction bs with
  | nil => cases hb
  | cons a bs ih =>
    intro s hs
    obtain ⟨ha, hbs⟩ := List.nodup_cons.1 hn
    by_cases hab : b = a
    · subst hab
      exact (barrierAt_leaveBarriers_other g bs ha _).trans (barrierAt_leaveBarrier_same s g hs)
    · refine (ih hbs (List.mem_of_ne_of_mem hab hb) _ ((leaveBarrier_sameUnits s g).hosted hs)).trans ?_
      rw [barrierAt_leaveBarrier_other s g hab]

end

/-! ## A group ends (R74, R187, R197) -/

/-- A grove that a group has left. -/
def Group.leftGrove (g : Group) (v : Grove) : Grove := { v with alive := v.alive - 1, ends := v.ends.put g.gix (g.sigCount, g.sig) }

/-- The state without the group, whose grove counts one group fewer; its barriers are dealt with apart. -/
def State.withoutGroup (s : State) (gid : Nat) (g : Group) : State :=
  { s with
    groups := s.groups.drop gid, loads := s.loads.filter (fun x => decide (x.gid ≠ gid)),
    locals := s.locals.filter (fun x => match x.place with
      | .regs k _ => decide (k ≠ gid)
      | .dram _ _ | .host _ _ _ | .scratch _ _ | .vault _ _ _ => true),
    groves := s.groves.alter g.grove g.leftGrove }

section
variable {s : State} {gid : Nat} {g : Group}

theorem endGroup_kernel (hg : s.groupAt gid = some g) (hr : g.role = .kernel) :
    let w := (s.leaveBarriers g (List.range 22)).withoutGroup gid g
    s.endGroup gid = if (w.groveAt g.grove).alive = 0 then w.endGrove g.grove else w := by
  simp only [State.endGroup, hg, hr]
  rfl

theorem endGrove_frame (s : State) (k : Nat) : { s.endGrove k with groves := s.groves, launches := s.launches, locals := s.locals } = s := by
  unfold State.endGrove
  dsimp only
  split
  · rfl
  · rfl

/-- The parts of the state that the end of a kernel's group may change beside the groups: the units it leaves, the clocks' steps, and what
was on its way for it. -/
def UnitsOnly (s t : State) : Prop :=
  { t with groups := s.groups, loads := s.loads, locals := s.locals, groves := s.groves, launches := s.launches, cores := s.cores,
           draws := s.draws } = s

theorem UnitsOnly.trans {s t u : State} (h : UnitsOnly s t) (k : UnitsOnly t u) : UnitsOnly s u := by
  unfold UnitsOnly at h k ⊢
  exact (congrArg (fun x : State => { x with groups := s.groups, loads := s.loads, locals := s.locals, groves := s.groves,
                                             launches := s.launches, cores := s.cores, draws := s.draws }) k).trans h

theorem unitsOnly_endGroup (hg : s.groupAt gid = some g) (hr : g.role = .kernel) : UnitsOnly s (s.endGroup gid) := by
  have hleave : UnitsOnly s (s.leaveBarriers g (List.range 22)) := by
    have h := leaveBarriers_barriersOnly g (List.range 22) s
    generalize s.leaveBarriers g (List.range 22) = u at h ⊢
    unfold BarriersOnly at h
    exact congrArg (fun x : State => { x with groups := s.groups, loads := s.loads, locals := s.locals }) h
  refine hleave.trans ?_
  rw [endGroup_kernel hg hr]
  generalize s.leaveBarriers g (List.range 22) = u
  have hw : UnitsOnly u (u.withoutGroup gid g) := rfl
  refine hw.trans ?_
  generalize u.withoutGroup gid g = w
  split
  · exact congrArg (fun x : State => { x with groups := w.groups, loads := w.loads, cores := w.cores, draws := w.draws }) (endGrove_frame w g.grove)
  · rfl

theorem endGroup_groups (hg : s.groupAt gid = some g) (hr : g.role = .kernel) : (s.endGroup gid).groups = s.groups.drop gid := by
  have h := leaveBarriers_barriersOnly g (List.range 22) s
  rw [endGroup_kernel hg hr]
  generalize s.leaveBarriers g (List.range 22) = u at h ⊢
  have hu : u.groups = s.groups := (congrArg State.groups h :)
  have hw : (u.withoutGroup gid g).groups = s.groups.drop gid := congrArg (Table.drop · gid) hu
  split
  · exact (congrArg State.groups (endGrove_frame (u.withoutGroup gid g) g.grove) :).trans hw
  · exact hw

theorem barrierAt_withoutGroup (s : State) (gid : Nat) (g : Group) (b : Nat) : (s.withoutGroup gid g).barrierAt g b = s.barrierAt g b := by
  have hb : ((s.withoutGroup gid g).groveAt g.grove).bars = (s.groveAt g.grove).bars := groveAt_alter s g.grove g.leftGrove Grove.bars fun _ => rfl
  have hc : (s.withoutGroup gid g).copyOf g = s.copyOf g := groveAt_alter s g.grove g.leftGrove Grove.copy fun _ => rfl
  simp only [State.barrierAt, State.copseKey, State.launchKey, hb, hc]
  rfl

/-- A grove with another group stays. -/
theorem alive_withoutGroup {v : Grove} (hv : s.groves.at? g.grove = some v) : ((s.withoutGroup gid g).groveAt g.grove).alive = v.alive - 1 := by
  have h : (s.withoutGroup gid g).groves.at? g.grove = (s.groves.at? g.grove).map g.leftGrove := Table.at?_alter_same ..
  rw [State.groveAt, h, hv]
  rfl

/-- The barriers of the units of a group that ends while its grove has another. -/
theorem barrierAt_endGroup (hg : s.groupAt gid = some g) (hr : g.role = .kernel) {v : Grove} (hv : s.groves.at? g.grove = some v)
    (ha : 2 ≤ v.alive) {b : Nat} (hb : b < 22) (hl : 16 ≤ b → (s.launches.at? g.launch).isSome = true) :
    (s.endGroup gid).barrierAt g b = leftBarrier g b (s.barrierAt g b) := by
  have hu := (leaveBarriers_sameUnits g (List.range 22) s).grove
  rw [hv] at hu
  obtain ⟨v', hv', hsame⟩ := Option.map_eq_some_iff.1 hu
  have halive : v'.alive = v.alive := congrArg Prod.snd hsame
  rw [endGroup_kernel hg hr, if_neg (by rw [alive_withoutGroup hv', halive]; omega), barrierAt_withoutGroup]
  exact barrierAt_leaveBarriers g _ List.nodup_range (List.mem_range.2 hb) s ⟨fun _ => by rw [hv]; rfl, hl⟩

end

/-! ## `exit` (R74, R257) -/

theorem matrixDone_iff (g : Group) : g.matrixDone = true ↔ g.batches = [] ∧ ∀ o ∈ g.openOps, o.result ≠ none := by
  simp only [Group.matrixDone, Bool.and_eq_true, decide_eq_true_eq, List.all_eq_true, Option.isSome_iff_ne_none]

section
variable {s : State} {c : Issue} {g : Group}

theorem whenQuiet_waits (hc : s.cur = some c) (h : g.results ≠ [] ∨ ¬ g.matrixDone = true) (k : State → State) :
    s.whenQuiet c g k = waits s c g .quiet := by
  have h' : g.results ≠ [] ∨ (!g.matrixDone) = true := h.imp_right fun h => by rw [Bool.not_eq_true', ← Bool.not_eq_true]; exact h
  exact (if_pos h').trans (hold_waits hc g .quiet)

theorem whenQuiet_done (hres : g.results = []) (hm : g.matrixDone = true) (hred : s.redundant g = false) (k : State → State) :
    s.whenQuiet c g k = k s := by
  have h1 : ¬ (g.results ≠ [] ∨ (!g.matrixDone) = true) := by simp [hres, hm]
  have h2 : ¬ (s.redundant g = true ∧ g.wait ≠ .compared) := by simp [hred]
  exact (if_neg h1).trans (if_neg h2)

theorem exec_exit (h : Ready .exit s c g) (hr : g.role = .kernel) :
    exec .exit s = .next (s.whenQuiet c g fun s => (s.endGroup c.gid).fate .left) :=
  (word_ready h _).trans (by simp only [hr])

end

/-! ## The obligation -/

/-- Settles O24: the words of one line by their meanings; `exit` by what its wait comes to and what the end of a group leaves. -/
theorem windowClockAndExitWords : Obligations.WindowClockAndExitWords := by
  refine ⟨⟨fun s c g h => word_ready h _, fun s c g h => ?park, fun l => ?wbase, fun d => scalarWord_of fun _ => rfl, fun a => ?tick,
    groupWord_of fun _ => rfl⟩, fun s c g h hr hred => ⟨fun hwait => ?waiting, fun hres hbat hops => ?ends⟩⟩
  case park =>
    refine (word_ready h _).trans (congrArg _ ?_)
    simp only [State.endRun, endsRun, h.atIssue, Option.map_some]
  case wbase => exact fun s c g h => (word_ready h _).trans (by rw [Nat.mul_comm])
  case tick =>
    refine groupWord_of fun s => congrArg (word (.tick a) s) (funext fun c => funext fun g => ?_)
    rw [Nat.min_def]
  case waiting =>
    refine (exec_exit h hr).trans (congrArg _ (whenQuiet_waits h.atIssue ?_ _))
    rw [matrixDone_iff, not_and_or]
    rcases hwait with hres | hbat | ⟨o, ho, hnone⟩
    · exact .inl hres
    · exact .inr (.inl hbat)
    · exact .inr (.inr fun hall => hall o ho hnone)
  case ends =>
    have hgroups := endGroup_groups h.group hr
    have hframe := unitsOnly_endGroup h.group hr
    unfold UnitsOnly at hframe
    refine ⟨_, (exec_exit h hr).trans (congrArg _ (whenQuiet_done hres ((matrixDone_iff g).2 ⟨hbat, hops⟩) hred _)), ?_, fun k hk => ?_, ?_,
      (congrArg State.dram hframe :), (congrArg State.hostMem hframe :), (congrArg State.vaultMem hframe :), (congrArg State.lines hframe :),
      (congrArg State.entries hframe :), fun v b hv ha hb hl => barrierAt_endGroup h.group hr hv ha hb hl⟩
    · exact (congrArg (Table.at? · c.gid) hgroups).trans (at?_drop_same ..)
    · exact (congrArg (Table.at? · k) hgroups).trans (at?_drop_other _ hk)
    · exact congrArg (Option.map fun x => { x with fate := Fate.left }) ((congrArg State.cur hframe :).trans h.atIssue)

end Sys2Proof.Machine
end

section
/-! Rounding (R89, R93): a number lies between a code's magnitude and the next one, and each rounding gives one of the two. -/

namespace Sys2Proof.Machine
open Sys2Proof.Safety

/-! ## Numbers -/

@[simp] theorem ratio_false (m : Nat) (e : Int) : ratio false m e = m * 2 ^ e := by simp [ratio]

theorem ratio_true (m : Nat) (e : Int) : ratio true m e = -(m * 2 ^ e) := by simp [ratio]

theorem two_zpow_pos (e : Int) : (0 : ℚ) < 2 ^ e := by positivity

/-- Two multiples of powers of two compare as the numbers of units of a lower power that they are. -/
theorem scaled_units (m : Nat) {e q : Int} (h : q ≤ e) : (m : ℚ) * 2 ^ e = (m * 2 ^ (e - q).toNat : Nat) * 2 ^ q := by
  push_cast
  rw [← zpow_natCast, Int.toNat_of_nonneg (by omega), mul_assoc, ← zpow_add₀ two_ne_zero, sub_add_cancel]

/-- The leading bit of a nonzero number. -/
theorem lead_le {m : Nat} (e : Int) (h : m ≠ 0) : (2 : ℚ) ^ ((Nat.log2 m : Int) + e) ≤ m * 2 ^ e := by
  rw [zpow_add₀ two_ne_zero, zpow_natCast]
  gcongr
  exact_mod_cast Nat.log2_self_le h

theorem lt_lead_succ (m : Nat) (e : Int) : (m : ℚ) * 2 ^ e < 2 ^ ((Nat.log2 m : Int) + e + 1) := by
  rw [add_right_comm, zpow_add₀ two_ne_zero, ← Nat.cast_succ, zpow_natCast]
  gcongr
  exact_mod_cast Nat.lt_log2_self

/-! ## Rounding to a multiple of a power of two (R93) -/

/-- A mode that rounds a magnitude away from zero (R42). -/
def awayFromZero (rm : BitVec 2) (neg : Bool) : Prop := (rm = 2 ∧ neg = false) ∨ (rm = 3 ∧ neg = true)

/-- A mode gives the greater of the two multiples that a number lies between: `k` is the lesser, `r` is how far above it the
number lies, of the distance `d` of the two. -/
def RoundsUp (rm : BitVec 2) (neg : Bool) (k : Nat) (r d : ℚ) : Prop :=
  (rm = 0 ∧ (d < 2 * r ∨ (2 * r = d ∧ k % 2 = 1))) ∨ (awayFromZero rm neg ∧ 0 < r)

theorem roundsUp_scale {rm : BitVec 2} {neg : Bool} {k : Nat} {r d c : ℚ} (hc : 0 < c) :
    RoundsUp rm neg k (r * c) (d * c) ↔ RoundsUp rm neg k r d := by
  have h1 : d * c < 2 * (r * c) ↔ d < 2 * r := by rw [← mul_assoc, mul_lt_mul_iff_left₀ hc]
  have h2 : 2 * (r * c) = d * c ↔ 2 * r = d := by rw [← mul_assoc, mul_left_inj' hc.ne']
  have h3 : 0 < r * c ↔ 0 < r := mul_pos_iff_of_pos_right hc
  simp only [RoundsUp, h1, h2, h3]

theorem RoundsUp.pos {rm : BitVec 2} {neg : Bool} {k : Nat} {r d : ℚ} (h : RoundsUp rm neg k r d) (hd : 0 < d) : 0 < r := by
  rcases h with ⟨-, h | ⟨h, -⟩⟩ | ⟨-, h⟩ <;> linarith

theorem roundsUp_parity {rm : BitVec 2} {neg : Bool} {k l : Nat} (h : k % 2 = l % 2) (r d : ℚ) :
    RoundsUp rm neg k r d ↔ RoundsUp rm neg l r d := by rw [RoundsUp, RoundsUp, h]

theorem roundsUp_nearest {neg : Bool} {k : Nat} {r d : ℚ} : RoundsUp 0 neg k r d ↔ d < 2 * r ∨ (2 * r = d ∧ k % 2 = 1) := by
  simp [RoundsUp, awayFromZero]

/-- To nearest: the number above is nearer, or as near and the one below is odd. -/
theorem roundsUp_between {neg : Bool} {k : Nat} {a b x : ℚ} :
    RoundsUp 0 neg k (x - a) (b - a) ↔ b - x < x - a ∨ (x - a = b - x ∧ k % 2 = 1) := by
  rw [roundsUp_nearest, ← sub_add_sub_cancel b x a, two_mul, add_lt_add_iff_right, add_left_inj]

theorem roundsUp_away {rm : BitVec 2} {neg : Bool} (h : awayFromZero rm neg) {k : Nat} {r d : ℚ} : RoundsUp rm neg k r d ↔ 0 < r := by
  have h0 : rm ≠ 0 := by rcases h with ⟨rfl, -⟩ | ⟨rfl, -⟩ <;> decide
  exact ⟨fun hu => hu.elim (fun hn => absurd hn.1 h0) And.right, fun hr => .inr ⟨h, hr⟩⟩

/-- A mode that rounds a magnitude toward zero (R42). -/
def towardZero (rm : BitVec 2) (neg : Bool) : Prop := rm = 1 ∨ (rm = 2 ∧ neg = true) ∨ (rm = 3 ∧ neg = false)

theorem not_roundsUp_toward {rm : BitVec 2} {neg : Bool} (h : towardZero rm neg) {k : Nat} {r d : ℚ} : ¬ RoundsUp rm neg k r d := by
  rcases h with rfl | ⟨rfl, rfl⟩ | ⟨rfl, rfl⟩ <;> simp [RoundsUp, awayFromZero]

/-- Of the rising numbers `val`, the mode rounds x to number `n`, and `lost` says whether that is not x: number `k` is the greatest that
is not above x. -/
structure RoundsAmong (val : Nat → ℚ) (rm : BitVec 2) (neg : Bool) (x : ℚ) (k n : Nat) (lost : Bool) : Prop where
  le : val k ≤ x
  lt : x < val (k + 1)
  up : RoundsUp rm neg k (x - val k) (val (k + 1) - val k) → n = k + 1
  down : ¬ RoundsUp rm neg k (x - val k) (val (k + 1) - val k) → n = k
  lost : lost = true ↔ val k < x

section
variable {val : Nat → ℚ} {rm : BitVec 2} {neg : Bool} {x : ℚ} {k n : Nat} {lost : Bool}

theorem RoundsAmong.eq_or (h : RoundsAmong val rm neg x k n lost) : n = k ∨ n = k + 1 := by
  by_cases hu : RoundsUp rm neg k (x - val k) (val (k + 1) - val k)
  · exact .inr (h.up hu)
  · exact .inl (h.down hu)

theorem RoundsAmong.ge (h : RoundsAmong val rm neg x k n lost) : k ≤ n := h.eq_or.elim Eq.ge fun hn => hn ▸ Nat.le_succ k

theorem RoundsAmong.le_succ (h : RoundsAmong val rm neg x k n lost) : n ≤ k + 1 := h.eq_or.elim (fun hn => hn ▸ Nat.le_succ n) Eq.le

theorem RoundsAmong.succ_iff (h : RoundsAmong val rm neg x k n lost) : n = k + 1 ↔ RoundsUp rm neg k (x - val k) (val (k + 1) - val k) :=
  ⟨fun hn => not_not.1 fun hu => by have := h.down hu; omega, h.up⟩

theorem RoundsAmong.lost_iff (h : RoundsAmong val rm neg x k n lost) : lost = true ↔ val n ≠ x := by
  have hstep : 0 < val (k + 1) - val k := sub_pos.2 (h.le.trans_lt h.lt)
  rw [h.lost]
  rcases h.eq_or with rfl | hn
  · exact ⟨ne_of_lt, h.le.lt_of_ne⟩
  · have hpos := (h.succ_iff.1 hn).pos hstep
    rw [hn]
    exact ⟨fun _ => h.lt.ne', fun _ => sub_pos.1 hpos⟩

/-- Rounding in units of another size. -/
theorem RoundsAmong.scale (h : RoundsAmong val rm neg x k n lost) {c : ℚ} (hc : 0 < c) :
    RoundsAmong (fun i => val i * c) rm neg (x * c) k n lost := by
  have hu : RoundsUp rm neg k (x * c - val k * c) (val (k + 1) * c - val k * c) ↔ RoundsUp rm neg k (x - val k) (val (k + 1) - val k) := by
    rw [← sub_mul, ← sub_mul, roundsUp_scale hc]
  refine ⟨mul_le_mul_of_nonneg_right h.le hc.le, mul_lt_mul_of_pos_right h.lt hc, fun hh => h.up (hu.1 hh), fun hh => h.down (mt hu.2 hh), ?_⟩
  rw [h.lost, mul_lt_mul_iff_left₀ hc]

/-- The same two numbers, counted from another even place. -/
theorem RoundsAmong.shift (h : RoundsAmong val rm neg x k n lost) {val' : Nat → ℚ} {j : Nat} (hj : j % 2 = 0) (h0 : val' (j + k) = val k)
    (h1 : val' (j + k + 1) = val (k + 1)) : RoundsAmong val' rm neg x (j + k) (j + n) lost := by
  have hpar : (j + k) % 2 = k % 2 := by omega
  refine ⟨h0 ▸ h.le, h1 ▸ h.lt, fun hu => ?_, fun hu => ?_, h0 ▸ h.lost⟩
  · rw [roundsUp_parity hpar, h0, h1] at hu; rw [h.up hu]; rfl
  · rw [roundsUp_parity hpar, h0, h1] at hu; rw [h.down hu]

/-- To nearest: the number on the nearer side, and the even one of two that are as near. -/
theorem RoundsAmong.nearer_side (h : RoundsAmong val 0 neg x k n lost) :
    (n = k ∧ x - val k ≤ val (k + 1) - x ∧ (x - val k = val (k + 1) - x → n % 2 = 0)) ∨
    (n = k + 1 ∧ val (k + 1) - x ≤ x - val k ∧ (x - val k = val (k + 1) - x → n % 2 = 0)) := by
  have hu := h.succ_iff
  rw [roundsUp_between] at hu
  rcases h.eq_or with rfl | rfl
  · obtain ⟨hle, hodd⟩ := not_or.1 (mt hu.2 (Nat.succ_ne_self n).symm)
    exact .inl ⟨rfl, not_lt.1 hle, fun heq => Nat.mod_two_ne_one.1 fun h1 => hodd ⟨heq, h1⟩⟩
  · refine .inr ⟨rfl, ?_⟩
    rcases hu.1 rfl with hlt | ⟨heq, hodd⟩
    · exact ⟨hlt.le, fun heq => absurd heq hlt.ne'⟩
    · exact ⟨heq.ge, fun _ => Nat.succ_mod_two_eq_zero_iff.2 hodd⟩

section
variable (hval : StrictMono val)
include hval

theorem RoundsAmong.le_below (h : RoundsAmong val rm neg x k n lost) {i : Nat} (hi : val i ≤ x) : val i ≤ val k :=
  hval.le_iff_le.2 (Nat.lt_succ_iff.1 (hval.lt_iff_lt.1 (hi.trans_lt h.lt)))

theorem RoundsAmong.above_le (h : RoundsAmong val rm neg x k n lost) {i : Nat} (hi : x < val i) : val (k + 1) ≤ val i :=
  hval.le_iff_le.2 (hval.lt_iff_lt.1 (h.le.trans_lt hi))

/-- To nearest: none is nearer, and of two as near the even one is taken. -/
theorem RoundsAmong.nearest (h : RoundsAmong val 0 neg x k n lost) (i : Nat) :
    |val n - x| ≤ |val i - x| ∧ (|val n - x| = |val i - x| → i = n ∨ n % 2 = 0) := by
  have hk : |val k - x| = x - val k := by rw [abs_sub_comm, abs_of_nonneg (sub_nonneg.2 h.le)]
  have hk' : |val (k + 1) - x| = val (k + 1) - x := abs_of_pos (sub_pos.2 h.lt)
  rcases le_or_gt (val i) x with hi | hi
  · have hfar : x - val k ≤ x - val i := sub_le_sub_left (h.le_below hval hi) x
    rw [abs_sub_comm (val i), abs_of_nonneg (sub_nonneg.2 hi)]
    rcases h.nearer_side with ⟨rfl, -, -⟩ | ⟨rfl, hle, heven⟩
    · rw [hk]
      exact ⟨hfar, fun heq => .inl (hval.injective (sub_right_injective heq.symm))⟩
    · rw [hk']
      exact ⟨hle.trans hfar, fun heq => .inr (heven (le_antisymm (hfar.trans heq.ge) hle))⟩
  · have hfar : val (k + 1) - x ≤ val i - x := sub_le_sub_right (h.above_le hval hi) x
    rw [abs_of_pos (sub_pos.2 hi)]
    rcases h.nearer_side with ⟨rfl, hle, heven⟩ | ⟨rfl, -, -⟩
    · rw [hk]
      exact ⟨hle.trans hfar, fun heq => .inr (heven (le_antisymm hle (hfar.trans heq.ge)))⟩
    · rw [hk']
      exact ⟨hfar, fun heq => .inl (hval.injective (sub_left_injective heq.symm))⟩

/-- A number among them is rounded to itself. -/
theorem RoundsAmong.exact (h : RoundsAmong val rm neg x k n lost) {i : Nat} (hi : val i = x) : n = i ∧ lost = false := by
  have hik : i = k := by
    have h1 := hval.le_iff_le.1 (h.le_below hval hi.le)
    have h2 := hval.le_iff_le.1 (h.le.trans hi.ge)
    omega
  subst hik
  have hlost : lost = false := by rw [Bool.eq_false_iff, Ne, h.lost, hi]; exact lt_irrefl x
  refine ⟨h.eq_or.resolve_right fun hn => ?_, hlost⟩
  have hpos := (h.succ_iff.1 hn).pos (sub_pos.2 (hval (Nat.lt_succ_self i)))
  rw [hi, sub_self] at hpos
  exact lt_irrefl 0 hpos

end

end

/-! ## `roundAt` -/

/-- The multiples of a unit. -/
def multiples (u : ℚ) (i : Nat) : ℚ := i * u

theorem multiples_step (u : ℚ) (k : Nat) : multiples u (k + 1) - multiples u k = u := by simp only [multiples, Nat.cast_succ]; ring

theorem multiples_strictMono {u : ℚ} (hu : 0 < u) : StrictMono (multiples u) :=
  strictMono_nat_of_lt_succ fun k => by rw [← sub_pos, multiples_step]; exact hu

theorem multiples_mul (u c : ℚ) : multiples (u * c) = fun i => multiples u i * c := funext fun i => (mul_assoc (i : ℚ) u c).symm

/-- The choice that `roundAt` makes between `k` and the next multiple, for a remainder of `r` of `d`. -/
def roundsUpBit (rm : BitVec 2) (neg : Bool) (k r d : Nat) : Bool :=
  if rm = 0 then decide (d < 2 * r) || (decide (2 * r = d) && decide (k % 2 = 1))
  else if rm = 1 then false else decide (r ≠ 0) && (if rm = 2 then !neg else neg)

theorem roundsUpBit_iff (rm : BitVec 2) (neg : Bool) (k r d : Nat) : roundsUpBit rm neg k r d = true ↔ RoundsUp rm neg k r d := by
  have hmode : ∀ x : BitVec 2, x = 0 ∨ x = 1 ∨ x = 2 ∨ x = 3 := by decide
  have hcast : RoundsUp rm neg k (r : ℚ) (d : ℚ) ↔
      (rm = 0 ∧ (d < 2 * r ∨ (2 * r = d ∧ k % 2 = 1))) ∨ (awayFromZero rm neg ∧ 0 < r) := by
    rw [RoundsUp]; norm_cast
  rw [hcast]
  rcases hmode rm with rfl | rfl | rfl | rfl
  · simp [roundsUpBit, awayFromZero]
  · simp [roundsUpBit, awayFromZero]
  · simp [roundsUpBit, awayFromZero, Nat.pos_iff_ne_zero, and_comm]
  · simp [roundsUpBit, awayFromZero, Nat.pos_iff_ne_zero, and_comm]

theorem roundAt_exact (rm : BitVec 2) (neg : Bool) (m : Nat) {e q : Int} (h : q ≤ e) :
    roundAt rm neg m e q = (m * 2 ^ (e - q).toNat, false) := if_pos h

theorem roundAt_shifted (rm : BitVec 2) (neg : Bool) (m : Nat) {e q : Int} (h : ¬ q ≤ e) :
    let d := 2 ^ (q - e).toNat
    roundAt rm neg m e q = (if roundsUpBit rm neg (m / d) (m % d) d then m / d + 1 else m / d, decide (m % d ≠ 0)) := if_neg h

theorem roundsAmong_shifted (rm : BitVec 2) (neg : Bool) (m d : Nat) (hd : 0 < d) :
    RoundsAmong (multiples d) rm neg m (m / d) (if roundsUpBit rm neg (m / d) (m % d) d then m / d + 1 else m / d) (decide (m % d ≠ 0)) := by
  have hdiv : m / d * d + m % d = m := Nat.div_add_mod' ..
  have hmod : m % d < d := Nat.mod_lt _ hd
  have hr : (m : ℚ) - multiples d (m / d) = (m % d : Nat) := by
    rw [multiples, sub_eq_iff_eq_add']; exact_mod_cast hdiv.symm
  refine ⟨?_, ?_, fun hu => if_pos ?_, fun hu => if_neg fun hb => hu ?_, ?_⟩
  · rw [multiples]; exact_mod_cast (by omega : m / d * d ≤ m)
  · rw [multiples]; exact_mod_cast (by rw [add_mul]; omega : m < (m / d + 1) * d)
  · rw [hr, multiples_step] at hu; exact (roundsUpBit_iff ..).2 hu
  · rw [hr, multiples_step]; exact (roundsUpBit_iff ..).1 hb
  · rw [← sub_pos, hr, decide_eq_true_eq, Nat.cast_pos, Nat.pos_iff_ne_zero]

/-- A multiple is rounded to itself. -/
theorem roundsAmong_self {u : ℚ} (hu : 0 < u) (rm : BitVec 2) (neg : Bool) (k : Nat) : RoundsAmong (multiples u) rm neg (multiples u k) k k false := by
  refine ⟨le_rfl, multiples_strictMono hu (Nat.lt_succ_self k), fun hup => ?_, fun _ => rfl, by simp⟩
  rw [sub_self, multiples_step] at hup
  exact absurd (hup.pos hu) (lt_irrefl 0)

/-- `roundAt` rounds to a multiple of 2^q as its mode says. -/
theorem roundAt_roundsAmong (rm : BitVec 2) (neg : Bool) (m : Nat) (e q : Int) :
    ∃ k, RoundsAmong (multiples (2 ^ q)) rm neg (m * 2 ^ e) k (roundAt rm neg m e q).1 (roundAt rm neg m e q).2 := by
  by_cases h : q ≤ e
  · refine ⟨m * 2 ^ (e - q).toNat, ?_⟩
    rw [roundAt_exact rm neg m h, scaled_units m h]
    exact roundsAmong_self (two_zpow_pos q) rm neg _
  · have hs := (roundsAmong_shifted rm neg m _ (Nat.two_pow_pos (q - e).toNat)).scale (two_zpow_pos e)
    have hu : ((2 ^ (q - e).toNat : Nat) : ℚ) * 2 ^ e = 2 ^ q := by simpa using (scaled_units 1 (Int.le_of_not_le h)).symm
    rw [roundAt_shifted rm neg m h, ← hu, multiples_mul]
    exact ⟨_, hs⟩

/-! ## Magnitudes of codes (R89) -/

section
variable (f : Fmt)

theorem magnitude_subnormal {c : Nat} (h : c < 2 ^ f.fb) : magnitude f c = c * 2 ^ f.low := by
  rw [magnitude, if_pos (Nat.div_eq_of_lt h), ratio_false]
  rfl

theorem magnitude_normal (j : Nat) {n : Nat} (h : n < 2 ^ f.fb) :
    magnitude f ((j + 1) * 2 ^ f.fb + n) = (2 ^ f.fb + n : Nat) * 2 ^ (f.low + j) := by
  have hpos : 0 < 2 ^ f.fb := Nat.two_pow_pos _
  have hdiv : ((j + 1) * 2 ^ f.fb + n) / 2 ^ f.fb = j + 1 := by
    rw [mul_comm, Nat.mul_add_div hpos, Nat.div_eq_of_lt h, add_zero]
  have hmod : ((j + 1) * 2 ^ f.fb + n) % 2 ^ f.fb = n := by rw [mul_comm, Nat.mul_add_mod, Nat.mod_eq_of_lt h]
  rw [magnitude, hdiv, hmod, if_neg (Nat.succ_ne_zero j), ratio_false]
  congr 2
  simp only [Fmt.low, Nat.cast_succ]
  ring

/-- `n` units of the binade `j`: a subnormal number, one of the binade, or the least of the next one. -/
theorem magnitude_place {j n : Nat} (hj : j = 0 ∨ 2 ^ f.fb ≤ n) (hn : n ≤ 2 ^ (f.fb + 1)) :
    magnitude f (j * 2 ^ f.fb + n) = n * 2 ^ (f.low + j) := by
  rw [pow_succ] at hn
  rcases lt_or_ge n (2 ^ f.fb) with hlt | hge
  · obtain rfl : j = 0 := hj.resolve_right hlt.not_ge
    simpa using magnitude_subnormal f hlt
  · rcases hn.lt_or_eq with hlt | rfl
    · have h := magnitude_normal f j (n := n - 2 ^ f.fb) (by omega)
      rw [show j * 2 ^ f.fb + n = (j + 1) * 2 ^ f.fb + (n - 2 ^ f.fb) by rw [add_mul]; omega, h, Nat.add_sub_cancel' hge]
    · have h := magnitude_normal f (j + 1) (n := 0) (Nat.two_pow_pos _)
      rw [show j * 2 ^ f.fb + 2 ^ f.fb * 2 = (j + 1 + 1) * 2 ^ f.fb + 0 by ring, h, Nat.cast_succ, ← add_assoc, zpow_add_one₀ two_ne_zero]
      push_cast
      ring

/-- Every code has its place in a binade. -/
theorem exists_place (c : Nat) : ∃ j n, c = j * 2 ^ f.fb + n ∧ (j = 0 ∨ 2 ^ f.fb ≤ n) ∧ n < 2 ^ (f.fb + 1) := by
  rw [pow_succ]
  have hdiv := Nat.div_add_mod' c (2 ^ f.fb)
  have hmod : c % 2 ^ f.fb < 2 ^ f.fb := Nat.mod_lt _ (Nat.two_pow_pos _)
  rcases Nat.eq_zero_or_eq_succ_pred (c / 2 ^ f.fb) with h0 | h
  · exact ⟨0, c, by omega, .inl rfl, by rw [h0] at hdiv; omega⟩
  · refine ⟨c / 2 ^ f.fb - 1, 2 ^ f.fb + c % 2 ^ f.fb, ?_, .inr (by omega), by omega⟩
    rw [Nat.sub_one_mul, ← add_assoc, Nat.sub_add_cancel (by rw [h]; exact Nat.le_mul_of_pos_left _ (Nat.succ_pos _)), hdiv]

theorem magnitude_strictMono : StrictMono (magnitude f) := by
  refine strictMono_nat_of_lt_succ fun c => ?_
  obtain ⟨j, n, rfl, hj, hn⟩ := exists_place f c
  rw [add_assoc, magnitude_place f hj hn.le, magnitude_place f (hj.imp_right fun h => h.trans (Nat.le_succ n)) hn]
  exact mul_lt_mul_of_pos_right (by exact_mod_cast Nat.lt_succ_self n) (two_zpow_pos _)

@[simp] theorem magnitude_zero : magnitude f 0 = 0 := by simpa using magnitude_subnormal f (Nat.two_pow_pos f.fb)

/-! ## Rounding to a code (R93) -/

/-- The exponent of the unit in which a format holds a nonzero number (R89). -/
def Fmt.unitExp (m : Nat) (e : Int) : Int := max ((Nat.log2 m : Int) + e - f.fb) f.low

/-- The code of a nonzero magnitude rounded without a bound, and whether it is not exact. -/
def Fmt.codeOf (rm : BitVec 2) (neg : Bool) (m : Nat) (e : Int) : Nat × Bool :=
  let (n, lost) := roundAt rm neg m e (f.unitExp m e)
  ((f.unitExp m e - f.low).toNat * 2 ^ f.fb + n, lost)

/-- The number of units has at most one bit more than the fraction, and in a binade above the lowest no fewer. -/
theorem roundAt_place (rm : BitVec 2) (neg : Bool) {m : Nat} (e : Int) (hm : m ≠ 0) :
    let r := roundAt rm neg m e (f.unitExp m e)
    ∃ k, RoundsAmong (multiples (2 ^ f.unitExp m e)) rm neg (m * 2 ^ e) k r.1 r.2 ∧ k < 2 ^ (f.fb + 1) ∧
      ((f.unitExp m e - f.low).toNat = 0 ∨ 2 ^ f.fb ≤ k) := by
  obtain ⟨k, h⟩ := roundAt_roundsAmong rm neg m e (f.unitExp m e)
  have hle := lead_le e hm
  have hlt := lt_lead_succ m e
  refine ⟨k, h, ?_, ?_⟩
  · have : (k : ℚ) * 2 ^ f.unitExp m e < (2 ^ (f.fb + 1) : Nat) * 2 ^ f.unitExp m e := by
      calc (k : ℚ) * 2 ^ f.unitExp m e ≤ m * 2 ^ e := h.le
        _ < 2 ^ ((Nat.log2 m : Int) + e + 1) := hlt
        _ ≤ 2 ^ ((f.fb + 1 : Nat) + f.unitExp m e) := zpow_le_zpow_right₀ one_le_two (by rw [Fmt.unitExp]; omega)
        _ = (2 ^ (f.fb + 1) : Nat) * 2 ^ f.unitExp m e := by rw [zpow_add₀ two_ne_zero, zpow_natCast]; norm_cast
    exact_mod_cast lt_of_mul_lt_mul_right this (two_zpow_pos _).le
  · refine (Nat.eq_zero_or_pos _).imp_right fun hpos => ?_
    have : ((2 ^ f.fb : Nat) : ℚ) * 2 ^ f.unitExp m e < (k + 1 : Nat) * 2 ^ f.unitExp m e := by
      calc ((2 ^ f.fb : Nat) : ℚ) * 2 ^ f.unitExp m e = 2 ^ (f.fb + f.unitExp m e) := by
            rw [zpow_add₀ two_ne_zero, zpow_natCast]; norm_cast
        _ = 2 ^ ((Nat.log2 m : Int) + e) := by congr 1; rw [Fmt.unitExp] at hpos ⊢; omega
        _ ≤ m * 2 ^ e := hle
        _ < (k + 1 : Nat) * 2 ^ f.unitExp m e := h.lt
    exact Nat.lt_succ_iff.1 (by exact_mod_cast lt_of_mul_lt_mul_right this (two_zpow_pos _).le)

theorem magnitude_units {m : Nat} {e : Int} {n : Nat} (hj : (f.unitExp m e - f.low).toNat = 0 ∨ 2 ^ f.fb ≤ n) (hn : n ≤ 2 ^ (f.fb + 1)) :
    magnitude f ((f.unitExp m e - f.low).toNat * 2 ^ f.fb + n) = n * 2 ^ f.unitExp m e := by
  rw [magnitude_place f hj hn]
  congr 2
  rw [Fmt.unitExp]
  omega

/-- The code's magnitude is the number of units that `roundAt` gives. -/
theorem magnitude_codeOf (rm : BitVec 2) (neg : Bool) {m : Nat} (e : Int) (hm : m ≠ 0) :
    magnitude f (f.codeOf rm neg m e).1 = (roundAt rm neg m e (f.unitExp m e)).1 * 2 ^ f.unitExp m e := by
  obtain ⟨k, h, hlt, hge⟩ := roundAt_place f rm neg e hm
  have hn := h.eq_or
  have hcode : (f.codeOf rm neg m e).1 = (f.unitExp m e - f.low).toNat * 2 ^ f.fb + (roundAt rm neg m e (f.unitExp m e)).1 := rfl
  rw [hcode]
  exact magnitude_units f (hge.imp_right fun hk => by omega) (by omega)

theorem codeOf_roundsAmong (hf : 0 < f.fb) (rm : BitVec 2) (neg : Bool) {m : Nat} (e : Int) (hm : m ≠ 0) :
    ∃ k, RoundsAmong (magnitude f) rm neg (m * 2 ^ e) k (f.codeOf rm neg m e).1 (f.codeOf rm neg m e).2 := by
  obtain ⟨k, h, hlt, hge⟩ := roundAt_place f rm neg e hm
  have heven : (f.unitExp m e - f.low).toNat * 2 ^ f.fb % 2 = 0 := by
    rw [← Nat.succ_pred_eq_of_pos hf, pow_succ, ← mul_assoc, Nat.mul_mod_left]
  exact ⟨_, h.shift heven (magnitude_units f hge hlt.le) (magnitude_units f (hge.imp_right fun h => h.trans (Nat.le_succ k)) hlt)⟩

end

end Sys2Proof.Machine
end

section
/-! What a number rounds to in a format (R93, R94, R96, R97). -/

namespace Sys2Proof.Machine
open Sys2Proof.Safety

/-! ## Infinity's code and the least normal one (R89) -/

section
variable (f : Fmt)

theorem infCode_add (f : Fmt) : f.infCode + 2 ^ f.fb = f.signBit := by
  have h : 1 ≤ 2 ^ f.eb := Nat.one_le_two_pow
  rw [Fmt.infCode, Fmt.signBit, pow_add, Nat.sub_mul, one_mul, Nat.sub_add_cancel (Nat.le_mul_of_pos_left _ h)]

theorem infCode_lt_signBit : f.infCode < f.signBit := by
  have := infCode_add f
  have : 0 < 2 ^ f.fb := Nat.two_pow_pos _
  omega

theorem fb_lt_infCode (he : 1 < f.eb) : 2 ^ f.fb < f.infCode := by
  have h : 2 ^ 2 ≤ 2 ^ f.eb := Nat.pow_le_pow_right two_pos he
  exact lt_mul_of_one_lt_left (Nat.two_pow_pos _) (by omega)

theorem infCode_even (hf : 0 < f.fb) : f.infCode % 2 = 0 := by
  rw [Fmt.infCode, ← Nat.succ_pred_eq_of_pos hf, pow_succ, ← mul_assoc, Nat.mul_mod_left]

theorem pred_odd {n : Nat} (hpos : 0 < n) (heven : n % 2 = 0) : (n - 1) % 2 = 1 := by omega

theorem magnitude_normal_least : magnitude f (2 ^ f.fb) = 2 ^ f.emin := by
  have h := magnitude_normal f 0 (Nat.two_pow_pos f.fb)
  simp only [zero_add, one_mul, add_zero, Nat.cast_zero, Nat.cast_pow, Nat.cast_ofNat] at h
  rw [h, ← zpow_natCast, ← zpow_add₀ two_ne_zero]
  congr 1
  simp only [Fmt.low, Fmt.emin]
  ring

/-! ## Tiny results (R97) -/

/-- A number is tiny: rounded to the precision of the format alone it is below the least normal magnitude. -/
def Fmt.tiny (rm : BitVec 2) (neg : Bool) (m : Nat) (e : Int) : Bool :=
  let x : Int := (Nat.log2 m : Nat) + e
  decide ((if (roundAt rm neg m e (x - f.fb)).1 = 2 ^ (f.fb + 1) then x + 1 else x) < f.emin)

/-- The distance of the numbers of the format's precision that lie below the least normal magnitude. -/
def Fmt.tinyUlp : ℚ := 2 ^ (f.emin - (f.fb + 1 : Nat))

theorem tinyUlp_pos : 0 < f.tinyUlp := two_zpow_pos _

theorem tinyUlp_eq : f.tinyUlp = magnitude f (2 ^ f.fb) / 2 ^ (f.fb + 1) := by
  rw [magnitude_normal_least, Fmt.tinyUlp, zpow_sub₀ two_ne_zero, zpow_natCast]

theorem normal_eq_ulps : magnitude f (2 ^ f.fb) = (2 ^ (f.fb + 1) : Nat) * f.tinyUlp := by
  rw [tinyUlp_eq]; push_cast; field_simp

/-- The greatest number of units below the least normal magnitude is the one that may round up to it. -/
theorem tiny_iff (rm : BitVec 2) (neg : Bool) {m : Nat} (e : Int) (hm : m ≠ 0) : f.tiny rm neg m e = true ↔
    m * 2 ^ e < magnitude f (2 ^ f.fb) ∧ ¬ RoundsUp rm neg (2 ^ (f.fb + 1) - 1) (m * 2 ^ e - (magnitude f (2 ^ f.fb) - f.tinyUlp)) f.tinyUlp := by
  have hu := tinyUlp_pos f
  have hN := normal_eq_ulps f
  have hle := lead_le e hm
  have hlt := lt_lead_succ m e
  have h2 : 2 ≤ 2 ^ (f.fb + 1) := Nat.le_self_pow (Nat.succ_ne_zero _) 2
  have hmono : ∀ {a b : Int}, a ≤ b → (2 : ℚ) ^ a ≤ 2 ^ b := fun h => zpow_le_zpow_right₀ one_le_two h
  simp only [Fmt.tiny, decide_eq_true_eq]
  obtain ⟨k, h⟩ := roundAt_roundsAmong rm neg m e ((Nat.log2 m : Int) + e - f.fb)
  generalize (roundAt rm neg m e ((Nat.log2 m : Int) + e - f.fb)).1 = n at h ⊢
  generalize (Nat.log2 m : Int) + e = X at h hle hlt ⊢
  generalize (m : ℚ) * 2 ^ e = x at h hle hlt ⊢
  have hexp : X ≤ (if n = 2 ^ (f.fb + 1) then X + 1 else X) ∧ (if n = 2 ^ (f.fb + 1) then X + 1 else X) ≤ X + 1 := by
    split_ifs
    · exact ⟨Int.le_add_one le_rfl, le_rfl⟩
    · exact ⟨le_rfl, Int.le_add_one le_rfl⟩
  rcases lt_trichotomy (X + 1) f.emin with hX | hX | hX
  · -- far below
    have hx : x < magnitude f (2 ^ f.fb) - f.tinyUlp := by
      have h1 : x < 2 ^ (f.emin - 1) := hlt.trans_le (hmono (Int.le_sub_one_of_lt hX))
      have h3 : (2 : ℚ) ^ (f.emin - 1) * 2 = magnitude f (2 ^ f.fb) := by
        rw [magnitude_normal_least, ← zpow_add_one₀ two_ne_zero, sub_add_cancel]
      have h4 : (2 : ℚ) * f.tinyUlp ≤ magnitude f (2 ^ f.fb) := by rw [hN]; gcongr; exact_mod_cast h2
      linarith
    exact iff_of_true (hexp.2.trans_lt hX) ⟨hx.trans (sub_lt_self _ hu), fun hup => (sub_pos.1 (hup.pos hu)).not_gt hx⟩
  · -- the binade below the least normal magnitude
    have hunit : f.tinyUlp = 2 ^ (X - f.fb) := by rw [Fmt.tinyUlp]; congr 1; push_cast; omega
    have hx : x < magnitude f (2 ^ f.fb) := by rw [magnitude_normal_least, ← hX]; exact hlt
    rw [← hunit] at h
    have hmono := multiples_strictMono hu
    have hk : k < 2 ^ (f.fb + 1) := hmono.lt_iff_lt.1 (h.le.trans_lt (hx.trans_eq hN))
    have hval : magnitude f (2 ^ f.fb) - f.tinyUlp = multiples f.tinyUlp (2 ^ (f.fb + 1) - 1) := by
      rw [hN, multiples, Nat.cast_sub (by omega)]; ring
    have hup := h.succ_iff
    rw [multiples_step] at hup
    have hsucc : 2 ^ (f.fb + 1) - 1 + 1 = 2 ^ (f.fb + 1) := Nat.sub_add_cancel (Nat.two_pow_pos _)
    have htop : n = 2 ^ (f.fb + 1) ↔ RoundsUp rm neg (2 ^ (f.fb + 1) - 1) (x - (magnitude f (2 ^ f.fb) - f.tinyUlp)) f.tinyUlp := by
      rw [hval]
      constructor
      · intro hn
        obtain rfl : k = 2 ^ (f.fb + 1) - 1 := by have := h.le_succ; omega
        exact hup.1 (hn.trans hsucc.symm)
      · intro hround
        have : 2 ^ (f.fb + 1) - 1 < k + 1 := hmono.lt_iff_lt.1 ((sub_pos.1 (hround.pos hu)).trans h.lt)
        obtain rfl : k = 2 ^ (f.fb + 1) - 1 := by omega
        exact (hup.2 hround).trans hsucc
    rw [← htop]
    constructor
    · intro ht
      exact ⟨hx, fun hn => by rw [if_pos hn] at ht; exact ht.ne hX⟩
    · rintro ⟨-, hn⟩
      rw [if_neg hn, ← hX]
      exact Int.lt_succ X
  · -- normal
    have hXmin : f.emin ≤ X := Int.lt_add_one_iff.1 hX
    have hx : magnitude f (2 ^ f.fb) ≤ x := by rw [magnitude_normal_least]; exact (hmono hXmin).trans hle
    exact iff_of_false (hXmin.trans hexp.1).not_gt fun hh => absurd hh.1 hx.not_gt

end

/-! ## Rounding in each mode (R93, R94, R97) -/

section
variable {f : Fmt} {rm : BitVec 2} {neg : Bool} {m : Nat} {e : Int}

theorem round_eq (f : Fmt) (rm : BitVec 2) (ftz neg : Bool) (m : Nat) (e : Int) : f.round rm ftz neg m e =
    if f.infCode ≤ (f.codeOf rm neg m e).1 then (f.overflow rm neg, 0b10100)
    else if ftz = true ∧ (f.codeOf rm neg m e).1 < 2 ^ f.fb then (0, 0b11000)
    else ((f.codeOf rm neg m e).1, flagIf (f.codeOf rm neg m e).2 flagNX ||| flagIf (f.tiny rm neg m e && (f.codeOf rm neg m e).2) flagUF) := rfl

theorem flags_exact_tiny (lost tiny : Bool) : flagIf lost flagNX ||| flagIf (tiny && lost) flagUF =
    if lost = false then 0 else if tiny = true then 0b11000 else 0b10000 := by
  cases lost <;> cases tiny <;> rfl

theorem round_overflow (h : f.infCode ≤ (f.codeOf rm neg m e).1) (ftz : Bool) : f.round rm ftz neg m e = (f.overflow rm neg, 0b10100) := by
  rw [round_eq, if_pos h]

theorem round_within {k : Nat} (h : RoundsAmong (magnitude f) rm neg (m * 2 ^ e) k (f.codeOf rm neg m e).1 (f.codeOf rm neg m e).2)
    (hlt : (f.codeOf rm neg m e).1 < f.infCode) {p : Prop} [Decidable p] (ht : f.tiny rm neg m e = true ↔ p) :
    f.round rm false neg m e = ((f.codeOf rm neg m e).1,
      if magnitude f (f.codeOf rm neg m e).1 = m * 2 ^ e then 0 else if p then 0b11000 else 0b10000) := by
  rw [round_eq, if_neg hlt.not_ge, if_neg (fun hh => absurd hh.1 Bool.false_ne_true), flags_exact_tiny]
  have hl : (f.codeOf rm neg m e).2 = false ↔ magnitude f (f.codeOf rm neg m e).1 = m * 2 ^ e := by
    rw [← Bool.not_eq_true, h.lost_iff, not_not]
  simp only [hl, ht]

/-- R96: with FTZ a result below the least normal magnitude is zero. -/
theorem round_flush (he : 1 < f.eb) : f.round rm true neg m e =
    if (f.round rm false neg m e).1 < 2 ^ f.fb then (0, 0b11000) else f.round rm false neg m e := by
  rw [round_eq, round_eq f rm false]
  by_cases hover : f.infCode ≤ (f.codeOf rm neg m e).1
  · have hlarge : 2 ^ f.fb ≤ f.overflow rm neg := by
      have := fb_lt_infCode f he
      rw [Fmt.overflow]
      split_ifs <;> omega
    rw [if_pos hover, if_pos hover, if_neg hlarge.not_gt]
  · rw [if_neg hover, if_neg hover, if_neg (fun hh : false = true ∧ _ => absurd hh.1 Bool.false_ne_true)]
    simp only [true_and]

/-- R94: the rounded code is infinity's or greater from infinity's magnitude on, and where the greatest finite magnitude is rounded up. -/
theorem overflow_iff {k : Nat} (h : RoundsAmong (magnitude f) rm neg (m * 2 ^ e) k (f.codeOf rm neg m e).1 (f.codeOf rm neg m e).2)
    (hpos : 0 < f.infCode) :
    f.infCode ≤ (f.codeOf rm neg m e).1 ↔ magnitude f f.infCode ≤ m * 2 ^ e ∨ RoundsUp rm neg (f.infCode - 1)
      (m * 2 ^ e - magnitude f (f.infCode - 1)) (magnitude f f.infCode - magnitude f (f.infCode - 1)) := by
  set top := magnitude f (f.infCode - 1)
  set limit := magnitude f f.infCode
  have hmono := magnitude_strictMono f
  have hstep : 0 < limit - top := sub_pos.2 (hmono (Nat.sub_one_lt hpos.ne'))
  rcases lt_trichotomy (k + 1) f.infCode with hk | hk | hk
  · have := h.lt.trans_le (hmono.monotone (Nat.le_sub_one_of_lt hk))
    refine iff_of_false (h.le_succ.trans_lt hk).not_ge (not_or.2 ⟨?_, fun hu => ?_⟩)
    · exact (this.trans (sub_pos.1 hstep)).not_ge
    · exact (sub_pos.1 (hu.pos hstep)).not_gt this
  · obtain rfl : k = f.infCode - 1 := Nat.eq_sub_of_add_eq hk
    have hu := h.succ_iff
    have hlt := h.lt
    rw [hk] at hu hlt
    rw [or_iff_right hlt.not_ge, ← hu]
    exact ⟨le_antisymm (h.le_succ.trans_eq hk), Eq.ge⟩
  · have hle : f.infCode ≤ k := Nat.lt_succ_iff.1 hk
    exact iff_of_true (hle.trans h.ge) (.inl ((hmono.monotone hle).trans h.le))

/-- A result by the two conditions that its mode turns on: `p`, that it overflows, and `q`, that it is tiny. -/
theorem round_by_mode {k c : Nat} {fl : BitVec 5} (h : RoundsAmong (magnitude f) rm neg (m * 2 ^ e) k (f.codeOf rm neg m e).1 (f.codeOf rm neg m e).2)
    (hr : f.round rm false neg m e = (c, fl)) {p q : Prop} [Decidable q] (hp : f.infCode ≤ (f.codeOf rm neg m e).1 ↔ p)
    (hq : f.tiny rm neg m e = true ↔ q) :
    (p → c = f.overflow rm neg ∧ fl = 0b10100) ∧
    (¬ p → c < f.infCode ∧ fl = (if magnitude f c = m * 2 ^ e then 0 else if q then 0b11000 else 0b10000) ∧ (f.codeOf rm neg m e).1 = c) := by
  constructor
  · intro hover
    rw [round_overflow (hp.2 hover)] at hr
    exact ⟨(congrArg Prod.fst hr).symm, (congrArg Prod.snd hr).symm⟩
  · intro hover
    have hlt := not_le.1 (mt hp.1 hover)
    rw [round_within h hlt hq] at hr
    obtain rfl := congrArg Prod.fst hr
    exact ⟨hlt, (congrArg Prod.snd hr).symm, rfl⟩

section
variable (hf : 0 < f.fb) (he : 1 < f.eb) (hm : m ≠ 0)
include hf he hm

theorem round_to_nearest {c : Nat} {fl : BitVec 5} (hr : f.round 0 false neg m e = (c, fl)) :
    let x : ℚ := m * 2 ^ e
    let mid := (magnitude f (f.infCode - 1) + magnitude f f.infCode) / 2
    let normal := magnitude f (2 ^ f.fb)
    (mid ≤ x → c = f.infCode ∧ fl = 0b10100) ∧
    (x < mid → c < f.infCode ∧
      fl = (if magnitude f c = x then 0 else if x < normal - normal / 2 ^ (f.fb + 1) / 2 then 0b11000 else 0b10000) ∧
      ∀ k < f.infCode, |magnitude f c - x| ≤ |magnitude f k - x| ∧ (|magnitude f c - x| = |magnitude f k - x| → k = c ∨ c % 2 = 0)) := by
  intro x mid normal
  obtain ⟨k, h⟩ := codeOf_roundsAmong f hf 0 neg e hm
  have hpos : 0 < f.infCode := (Nat.two_pow_pos _).trans (fb_lt_infCode f he)
  have hover := overflow_iff h hpos
  have htiny := tiny_iff f 0 neg e hm
  have hodd : (f.infCode - 1) % 2 = 1 := pred_odd hpos (infCode_even f hf)
  have hodd' : (2 ^ (f.fb + 1) - 1) % 2 = 1 := pred_odd (Nat.two_pow_pos _) (pow_succ 2 f.fb ▸ Nat.mul_mod_left _ _)
  have hstep : magnitude f (f.infCode - 1) < magnitude f f.infCode := magnitude_strictMono f (Nat.sub_one_lt hpos.ne')
  have hulp := tinyUlp_pos f
  simp only [roundsUp_nearest, hodd, hodd', and_true, ← le_iff_lt_or_eq'] at hover htiny
  have hp : f.infCode ≤ (f.codeOf 0 neg m e).1 ↔ mid ≤ x := by
    rw [hover]
    constructor
    · rintro (hh | hh) <;> simp only [mid, x] <;> linarith
    · exact fun hh => .inr (by simp only [mid, x] at hh; linarith)
  have hq : f.tiny 0 neg m e = true ↔ x < normal - normal / 2 ^ (f.fb + 1) / 2 := by
    rw [htiny, ← tinyUlp_eq, not_le]
    constructor
    · rintro ⟨-, hh⟩; simp only [x, normal]; linarith
    · intro hh; simp only [x, normal] at hh; constructor <;> linarith
  obtain ⟨habove, hbelow⟩ := round_by_mode h hr hp hq
  refine ⟨habove, fun hx => ?_⟩
  obtain ⟨hlt, hfl, rfl⟩ := hbelow hx.not_ge
  exact ⟨hlt, hfl, fun i _ => h.nearest (magnitude_strictMono f) i⟩

theorem round_toward_zero (hmode : towardZero rm neg) {c : Nat} {fl : BitVec 5} (hr : f.round rm false neg m e = (c, fl)) :
    let x : ℚ := m * 2 ^ e
    (magnitude f f.infCode ≤ x → c = f.infCode - 1 ∧ fl = 0b10100) ∧
    (x < magnitude f f.infCode → c < f.infCode ∧
      fl = (if magnitude f c = x then 0 else if x < magnitude f (2 ^ f.fb) then 0b11000 else 0b10000) ∧
      magnitude f c ≤ x ∧ ∀ k < f.infCode, magnitude f k ≤ x → magnitude f k ≤ magnitude f c) := by
  intro x
  obtain ⟨k, h⟩ := codeOf_roundsAmong f hf rm neg e hm
  have hpos : 0 < f.infCode := (Nat.two_pow_pos _).trans (fb_lt_infCode f he)
  have hcode : f.overflow rm neg = f.infCode - 1 := by
    rcases hmode with rfl | ⟨rfl, rfl⟩ | ⟨rfl, rfl⟩ <;> rfl
  have hp := overflow_iff h hpos
  have hq := tiny_iff f rm neg e hm
  simp only [not_roundsUp_toward hmode, or_false, not_false_eq_true, and_true] at hp hq
  obtain ⟨habove, hbelow⟩ := round_by_mode h hr hp hq
  refine ⟨fun hx => hcode ▸ habove hx, fun hx => ?_⟩
  obtain ⟨hlt, hfl, rfl⟩ := hbelow hx.not_ge
  have hk := h.down (not_roundsUp_toward hmode)
  exact ⟨hlt, hfl, hk ▸ h.le, fun i _ hi => hk ▸ h.le_below (magnitude_strictMono f) hi⟩

theorem round_away_from_zero (hmode : awayFromZero rm neg) {c : Nat} {fl : BitVec 5} (hr : f.round rm false neg m e = (c, fl)) :
    let x : ℚ := m * 2 ^ e
    let normal := magnitude f (2 ^ f.fb)
    (magnitude f (f.infCode - 1) < x → c = f.infCode ∧ fl = 0b10100) ∧
    (x ≤ magnitude f (f.infCode - 1) → c < f.infCode ∧
      fl = (if magnitude f c = x then 0 else if x ≤ normal - normal / 2 ^ (f.fb + 1) then 0b11000 else 0b10000) ∧
      x ≤ magnitude f c ∧ ∀ k < f.infCode, x ≤ magnitude f k → magnitude f c ≤ magnitude f k) := by
  intro x normal
  obtain ⟨k, h⟩ := codeOf_roundsAmong f hf rm neg e hm
  have hpos : 0 < f.infCode := (Nat.two_pow_pos _).trans (fb_lt_infCode f he)
  have hcode : f.overflow rm neg = f.infCode := by
    rcases hmode with ⟨rfl, rfl⟩ | ⟨rfl, rfl⟩ <;> rfl
  have hstep : magnitude f (f.infCode - 1) < magnitude f f.infCode := magnitude_strictMono f (by omega)
  have hulp := tinyUlp_pos f
  have hp : f.infCode ≤ (f.codeOf rm neg m e).1 ↔ magnitude f (f.infCode - 1) < x := by
    rw [overflow_iff h hpos, roundsUp_away hmode, sub_pos]
    exact or_iff_right_of_imp hstep.trans_le
  have hq : f.tiny rm neg m e = true ↔ x ≤ normal - normal / 2 ^ (f.fb + 1) := by
    rw [tiny_iff f rm neg e hm, roundsUp_away hmode, ← tinyUlp_eq, not_lt, sub_nonpos]
    exact and_iff_right_of_imp fun hh => hh.trans_lt (sub_lt_self _ hulp)
  obtain ⟨habove, hbelow⟩ := round_by_mode h hr hp hq
  refine ⟨fun hx => hcode ▸ habove hx, fun hx => ?_⟩
  obtain ⟨hlt, hfl, rfl⟩ := hbelow hx.not_gt
  have hu := h.succ_iff
  rw [roundsUp_away hmode, sub_pos] at hu
  rcases h.le.eq_or_lt with heq | hlt'
  · have hc := (h.exact (magnitude_strictMono f) heq).1
    exact ⟨hlt, hfl, by rw [hc]; exact heq.ge, fun i _ hi => by rw [hc]; exact heq.trans_le hi⟩
  · have hc := hu.2 hlt'
    refine ⟨hlt, hfl, by rw [hc]; exact h.lt.le, fun i _ hi => ?_⟩
    rw [hc]
    exact (magnitude_strictMono f).monotone ((magnitude_strictMono f).lt_iff_lt.1 (hlt'.trans_le hi))

omit he in
/-- A number that a finite code holds is written as that code, with no flag. -/
theorem round_exact {c : Nat} (hc : c < f.infCode) (hx : magnitude f c = m * 2 ^ e) : f.round rm false neg m e = (c, 0) := by
  obtain ⟨k, h⟩ := codeOf_roundsAmong f hf rm neg e hm
  obtain ⟨hcode, -⟩ := h.exact (magnitude_strictMono f) hx
  rw [round_within h (hcode ▸ hc) Iff.rfl, hcode, if_pos hx]

end

end

end Sys2Proof.Machine
end

section
/-! What codes read as, and what values are written as (R89 to R91, R96). -/

namespace Sys2Proof.Machine
open Sys2Proof.Safety

/-- The sign of a code, apart. -/
def Fmt.signOf (f : Fmt) (s : Bool) : Nat := if s then f.signBit else 0

section
variable {f : Fmt}

theorem signed_split {c : Nat} (h : c < 2 * f.signBit) : c = f.signOf (decide (f.signBit ≤ c)) + c % f.signBit := by
  by_cases hs : f.signBit ≤ c
  · rw [Fmt.signOf, decide_eq_true hs, if_pos rfl, Nat.mod_eq_sub_mod hs, Nat.mod_eq_of_lt (by omega)]
    omega
  · rw [Fmt.signOf, decide_eq_false hs, if_neg Bool.false_ne_true, Nat.mod_eq_of_lt (by omega), zero_add]

theorem signBit_eq (f : Fmt) : f.signBit = 2 ^ f.fb * 2 ^ f.eb := by rw [Fmt.signBit, pow_add, mul_comm]

theorem signOf_add_mod (s : Bool) (c : Nat) : (f.signOf s + c) % 2 ^ f.fb = c % 2 ^ f.fb := by
  cases s
  · rw [Fmt.signOf, if_neg Bool.false_ne_true, zero_add]
  · rw [Fmt.signOf, if_pos rfl, signBit_eq, Nat.mul_add_mod]

theorem signOf_add_div (s : Bool) {c : Nat} (h : c < f.signBit) : (f.signOf s + c) / 2 ^ f.fb % 2 ^ f.eb = c / 2 ^ f.fb := by
  have hlt : c / 2 ^ f.fb < 2 ^ f.eb := Nat.div_lt_of_lt_mul (signBit_eq f ▸ h)
  cases s
  · rw [Fmt.signOf, if_neg Bool.false_ne_true, zero_add, Nat.mod_eq_of_lt hlt]
  · rw [Fmt.signOf, if_pos rfl, signBit_eq, Nat.mul_add_div (Nat.two_pow_pos _), Nat.add_mod_left, Nat.mod_eq_of_lt hlt]

theorem signOf_sign (s : Bool) {c : Nat} (h : c < f.signBit) : decide (f.signBit ≤ f.signOf s + c) = s := by
  cases s
  · simpa [Fmt.signOf] using h
  · simp [Fmt.signOf]

/-- A code read by the fields of its magnitude. -/
theorem read_signed (ftz s : Bool) {c : Nat} (h : c < f.signBit) : f.read ftz (f.signOf s + c) =
    if c / 2 ^ f.fb = 2 ^ f.eb - 1 then (if c % 2 ^ f.fb = 0 then .inf s else .nan (decide (c % 2 ^ f.fb < 2 ^ (f.fb - 1))))
    else if c / 2 ^ f.fb = 0 then .fin s (if ftz then 0 else c % 2 ^ f.fb) f.low
    else .fin s (2 ^ f.fb + c % 2 ^ f.fb) (f.low + (c / 2 ^ f.fb - 1 : Nat)) := by
  simp only [Fmt.read, signOf_add_mod, signOf_add_div s h, signOf_sign s h]

theorem top_exponent_iff {c : Nat} (h : c < f.signBit) : c / 2 ^ f.fb = 2 ^ f.eb - 1 ↔ f.infCode ≤ c := by
  have hlt : c / 2 ^ f.fb < 2 ^ f.eb := Nat.div_lt_of_lt_mul (signBit_eq f ▸ h)
  have hle : 2 ^ f.eb - 1 ≤ c / 2 ^ f.fb ↔ f.infCode ≤ c := Nat.le_div_iff_mul_le (Nat.two_pow_pos _)
  rw [← hle]
  omega

theorem infCode_fraction {c : Nat} (h : c < f.signBit) (hc : f.infCode ≤ c) : c = f.infCode + c % 2 ^ f.fb := by
  have := Nat.div_add_mod' c (2 ^ f.fb)
  rw [(top_exponent_iff h).2 hc] at this
  exact this.symm

theorem read_nan (ftz s : Bool) {c : Nat} (h : c < f.signBit) (hc : f.infCode < c) :
    f.read ftz (f.signOf s + c) = .nan (decide (c % 2 ^ f.fb < 2 ^ (f.fb - 1))) := by
  have := infCode_fraction h hc.le
  rw [read_signed ftz s h, if_pos ((top_exponent_iff h).2 hc.le), if_neg (by omega)]

theorem read_inf (ftz s : Bool) : f.read ftz (f.signOf s + f.infCode) = .inf s := by
  have h := infCode_lt_signBit f
  have := infCode_fraction h le_rfl
  rw [read_signed ftz s h, if_pos ((top_exponent_iff h).2 le_rfl), if_pos (by omega)]

theorem read_subnormal (he : 1 < f.eb) (ftz s : Bool) {c : Nat} (hc : c < 2 ^ f.fb) :
    f.read ftz (f.signOf s + c) = .fin s (if ftz then 0 else c) f.low := by
  have hi := fb_lt_infCode f he
  have h : c < f.signBit := (hc.trans hi).trans (infCode_lt_signBit f)
  rw [read_signed ftz s h, if_neg (mt (top_exponent_iff h).1 (hc.trans hi).not_ge), if_pos (Nat.div_eq_of_lt hc), Nat.mod_eq_of_lt hc]

theorem read_normal (ftz s : Bool) {c : Nat} (hn : 2 ^ f.fb ≤ c) (hc : c < f.infCode) :
    f.read ftz (f.signOf s + c) = .fin s (2 ^ f.fb + c % 2 ^ f.fb) (f.low + (c / 2 ^ f.fb - 1 : Nat)) := by
  have h : c < f.signBit := hc.trans (infCode_lt_signBit f)
  rw [read_signed ftz s h, if_neg (mt (top_exponent_iff h).1 hc.not_ge), if_neg (Nat.div_pos hn (Nat.two_pow_pos _)).ne']

/-- The number that a finite code reads as, apart from its sign. -/
def Fmt.digits (f : Fmt) (c : Nat) : Nat × Int :=
  if c < 2 ^ f.fb then (c, f.low) else (2 ^ f.fb + c % 2 ^ f.fb, f.low + (c / 2 ^ f.fb - 1 : Nat))

theorem read_finite (he : 1 < f.eb) (s : Bool) {c : Nat} (hc : c < f.infCode) :
    f.read false (f.signOf s + c) = .fin s (f.digits c).1 (f.digits c).2 := by
  rcases lt_or_ge c (2 ^ f.fb) with h | h
  · rw [read_subnormal he false s h, Fmt.digits, if_pos h]; rfl
  · rw [read_normal false s h hc, Fmt.digits, if_neg h.not_gt]

theorem ratio_digits (c : Nat) : ratio false (f.digits c).1 (f.digits c).2 = magnitude f c := by
  rw [ratio_false]
  rcases lt_or_ge c (2 ^ f.fb) with h | h
  · rw [Fmt.digits, if_pos h, magnitude_subnormal f h]
  · have hdiv := Nat.div_pos h (Nat.two_pow_pos _)
    have hc : c = (c / 2 ^ f.fb - 1 + 1) * 2 ^ f.fb + c % 2 ^ f.fb := by rw [Nat.sub_add_cancel hdiv, Nat.div_add_mod']
    rw [Fmt.digits, if_neg h.not_gt]
    conv_rhs => rw [hc, magnitude_normal f _ (Nat.mod_lt _ (Nat.two_pow_pos _))]

/-- A value that a format holds is written as its own code, in every mode and with no flag. -/
theorem write_finite (hf : 0 < f.fb) (rm : BitVec 2) (s : Bool) {c : Nat} (hc : c < f.infCode) {m : Nat} {e : Int}
    (hx : magnitude f c = m * 2 ^ e) : f.write rm false (.fin s m e) = (f.signOf s + c, 0) := by
  by_cases hm : m = 0
  · have h0 : c = 0 := (magnitude_strictMono f).injective (by rw [hx, hm, magnitude_zero]; simp)
    rw [hm, h0]
    rfl
  · have := round_exact hf hm (rm := rm) (neg := s) hc hx
    simp only [Fmt.write, if_neg hm, this]
    rfl

theorem write_read (hf : 0 < f.fb) (he : 1 < f.eb) (rm : BitVec 2) (s : Bool) {c : Nat} (hc : c ≤ f.infCode) :
    f.write rm false (f.read false (f.signOf s + c)) = (f.signOf s + c, 0) := by
  rcases hc.lt_or_eq with hlt | rfl
  · rw [read_finite he s hlt]
    exact write_finite hf rm s hlt (by rw [← ratio_digits, ratio_false])
  · rw [read_inf]; rfl

end

end Sys2Proof.Machine
end

section
/-! Sums, products and fused forms of values (R93, R95, R121), and the statement on rounding. -/

namespace Sys2Proof.Machine
open Sys2Proof.Safety

/-! ## Exact sums and products (R93, R95) -/

/-- A signed number in units of 2^q. -/
def unitsOf (q : Int) (neg : Bool) (m : Nat) (e : Int) : Int :=
  let v : Int := (m * 2 ^ (e - q).toNat : Nat)
  if neg then -v else v

theorem ratio_unitsOf {q e : Int} (h : q ≤ e) (neg : Bool) (m : Nat) : ratio neg m e = unitsOf q neg m e * 2 ^ q := by
  cases neg
  · rw [ratio_false, scaled_units m h]; rfl
  · rw [ratio_true, scaled_units m h, unitsOf, if_pos rfl, Int.cast_neg, neg_mul, Int.cast_natCast]

theorem ratio_natAbs (t q : Int) : ratio (decide (t < 0)) t.natAbs q = t * 2 ^ q := by
  rcases lt_or_ge t 0 with h | h
  · rw [decide_eq_true h, ratio_true, Nat.cast_natAbs, abs_of_neg h, Int.cast_neg, neg_mul, neg_neg]
  · rw [decide_eq_false h.not_gt, ratio_false, Nat.cast_natAbs, abs_of_nonneg h]

theorem add_fin (rm : BitVec 2) (a : Bool) (m : Nat) (e : Int) (b : Bool) (n : Nat) (f : Int) :
    Val.add rm (.fin a m e) (.fin b n f) =
      let q := min e f
      let t := unitsOf q a m e + unitsOf q b n f
      if t = 0 then (.fin (if a = b then a else rm == 3) 0 q, 0) else (.fin (decide (t < 0)) t.natAbs q, 0) := rfl

theorem add_exact (rm : BitVec 2) (a : Bool) (m : Nat) (e : Int) (b : Bool) (n : Nat) (f : Int) :
    ∃ c k q, Val.add rm (.fin a m e) (.fin b n f) = (.fin c k q, 0) ∧ ratio c k q = ratio a m e + ratio b n f ∧
      (ratio a m e + ratio b n f = 0 → c = if a = b then a else decide (rm = 3)) := by
  have hsum : ratio a m e + ratio b n f = (unitsOf (min e f) a m e + unitsOf (min e f) b n f : Int) * 2 ^ min e f := by
    rw [ratio_unitsOf (min_le_left e f), ratio_unitsOf (min_le_right e f)]; push_cast; ring
  rw [hsum, add_fin]
  dsimp only
  generalize unitsOf (min e f) a m e + unitsOf (min e f) b n f = t
  by_cases ht : t = 0
  · exact ⟨_, _, _, if_pos ht, by simp [ht, ratio], fun _ => rfl⟩
  · refine ⟨_, _, _, if_neg ht, ratio_natAbs t _, fun h => absurd h ?_⟩
    exact mul_ne_zero (Int.cast_ne_zero.2 ht) (two_zpow_pos _).ne'

theorem mul_exact (a : Bool) (m : Nat) (e : Int) (b : Bool) (n : Nat) (f : Int) :
    ratio (a != b) (m * n) (e + f) = ratio a m e * ratio b n f := by
  have h : ((m * n : Nat) : ℚ) * 2 ^ (e + f) = m * 2 ^ e * (n * 2 ^ f) := by rw [zpow_add₀ two_ne_zero]; push_cast; ring
  cases a <;> cases b <;> simp only [ratio_false, ratio_true, h, Bool.bne_true, Bool.bne_false, Bool.not_true, Bool.not_false] <;> ring

theorem ratio_not (a : Bool) (m : Nat) (e : Int) : ratio (!a) m e = -ratio a m e := by
  cases a <;> simp only [Bool.not_true, Bool.not_false, ratio_false, ratio_true, neg_neg]

/-! ## NaNs, infinities and zeros (R90, R91, R95, R121) -/

/-- A value that is a NaN. -/
def IsNan (v : Val) : Prop := ∃ q, v = .nan q

theorem isNan_iff (v : Val) : v.isNan = true ↔ IsNan v := by cases v <;> simp [Val.isNan, IsNan]

theorem signals_eq (x : Val) : x.signals = if x = .nan true then 1 else 0 := by
  rcases x with (_ | _) | _ | _ <;> rfl

theorem signals_or (p q : Prop) [Decidable p] [Decidable q] :
    ((if p then 1 else 0) ||| if q then 1 else 0 : BitVec 5) = if p ∨ q then 1 else 0 := by
  by_cases hp : p <;> by_cases hq : q <;> simp [hp, hq]

section
variable {x y z : Val} (rm : BitVec 2)

theorem add_nan (h : IsNan x ∨ IsNan y) : x.add rm y = (.nan false, x.signals ||| y.signals) := by
  rcases h with ⟨q, rfl⟩ | ⟨q, rfl⟩
  · rfl
  · cases x <;> rfl

theorem mul_nan (h : IsNan x ∨ IsNan y) : x.mul y = (.nan false, x.signals ||| y.signals) := by
  rcases h with ⟨q, rfl⟩ | ⟨q, rfl⟩
  · rfl
  · cases x <;> rfl

theorem isNan_neg : IsNan y.neg ↔ IsNan y := by cases y <;> simp [IsNan, Val.neg]

@[simp] theorem signals_neg : y.neg.signals = y.signals := by rcases y with (_ | _) | _ | _ <;> rfl

end

section
variable (f : Fmt) (r : Rounding)

theorem op_eq (v : Val) (fl : BitVec 5) : f.op r (v, fl) = ((f.write r.rm r.ftz v).1, fl ||| (f.write r.rm r.ftz v).2) := rfl

@[simp] theorem op_nan (q : Bool) (fl : BitVec 5) : f.op r (.nan q, fl) = (f.nanCode, fl) := by
  rw [op_eq]; exact congrArg _ (BitVec.or_zero ..)

@[simp] theorem op_inf (s : Bool) (fl : BitVec 5) : f.op r (.inf s, fl) = (f.signOf s + f.infCode, fl) := by
  rw [op_eq]; exact congrArg _ (BitVec.or_zero ..)

theorem op_exact (v : Val) : f.op r (v, 0) = f.write r.rm r.ftz v := by
  rw [op_eq]; exact congrArg _ (BitVec.zero_or ..)

end

/-! ## Operations on codes (R90, R93, R95, R121) -/

/-- NV for a signalling NaN among the operands. -/
def nvIf (p : Prop) [Decidable p] : BitVec 5 := if p then 1 else 0

section
variable {f : Fmt} {r : Rounding} {a b d : Nat} {x y z : Val} (hx : f.read r.ftz a = x) (hy : f.read r.ftz b = y) (hz : f.read r.ftz d = z)
include hx hy

theorem addc_eq : f.addc r a b = f.op r (x.add r.rm y) := by rw [Fmt.addc, hx, hy]
theorem subc_eq : f.subc r a b = f.op r (x.add r.rm y.neg) := by rw [Fmt.subc, hx, hy]
theorem mulc_eq : f.mulc r a b = f.op r (x.mul y) := by rw [Fmt.mulc, hx, hy]

theorem codes_nan (h : IsNan x ∨ IsNan y) : let result := (f.nanCode, nvIf (x = .nan true ∨ y = .nan true))
    f.addc r a b = result ∧ f.subc r a b = result ∧ f.mulc r a b = result := by
  have hs : x.signals ||| y.signals = nvIf (x = .nan true ∨ y = .nan true) := by rw [signals_eq, signals_eq, signals_or, nvIf]
  refine ⟨?_, ?_, ?_⟩
  · rw [addc_eq hx hy, add_nan r.rm h, op_nan, hs]
  · rw [subc_eq hx hy, add_nan r.rm (h.imp_right isNan_neg.2), op_nan, signals_neg, hs]
  · rw [mulc_eq hx hy, mul_nan h, op_nan, hs]

include hz

theorem fmac_eq : f.fmac r a b d = f.op r (((x.mul y).1.add r.rm z).1, (x.mul y).2 ||| ((x.mul y).1.add r.rm z).2) := by
  rw [Fmt.fmac, hx, hy, hz]; rfl

/-- A fused form whose product raises nothing. -/
theorem fmac_of_mul {p : Val} (h : x.mul y = (p, 0)) : f.fmac r a b d = f.op r (p.add r.rm z) := by
  rw [fmac_eq hx hy hz, h]; exact congrArg (fun fl => f.op r ((p.add r.rm z).1, fl)) (BitVec.zero_or ..)

end

section
variable {x y : Val}

/-- A zero times an infinity. -/
def ZeroTimesInf (x y : Val) : Prop := ∃ s t e, (x = .inf s ∧ y = .fin t 0 e) ∨ (y = .inf s ∧ x = .fin t 0 e)

/-- An infinite product of sign `s`. -/
def InfProduct (x y : Val) (s : Bool) : Prop := ∃ u v, s = (u != v) ∧ ((x = .inf u ∧ y = .inf v) ∨
  ∃ n e, n ≠ 0 ∧ ((x = .inf u ∧ y = .fin v n e) ∨ (y = .inf u ∧ x = .fin v n e)))

theorem mul_zeroTimesInf (h : ZeroTimesInf x y) : x.mul y = (.nan false, 1) := by
  obtain ⟨s, t, e, ⟨rfl, rfl⟩ | ⟨rfl, rfl⟩⟩ := h <;> rfl

theorem mul_inf_fin (a b : Bool) {n : Nat} (e : Int) (h : n ≠ 0) :
    Val.mul (.inf a) (.fin b n e) = (.inf (a != b), 0) ∧ Val.mul (.fin b n e) (.inf a) = (.inf (a != b), 0) :=
  ⟨if_neg h, if_neg h⟩

theorem mul_infProduct {s : Bool} (h : InfProduct x y s) : x.mul y = (.inf s, 0) := by
  obtain ⟨u, v, rfl, ⟨rfl, rfl⟩ | ⟨n, e, hn, ⟨rfl, rfl⟩ | ⟨rfl, rfl⟩⟩⟩ := h
  · rfl
  · exact (mul_inf_fin u v e hn).1
  · exact (mul_inf_fin u v e hn).2

/-- A product of operands that are no NaN, but for a zero times an infinity, is a number and raises nothing. -/
theorem mul_number (hx : ¬ IsNan x) (hy : ¬ IsNan y) (h : ¬ ZeroTimesInf x y) : ∃ p, x.mul y = (p, 0) ∧ ¬ IsNan p := by
  have hinf : ∀ s, ¬ IsNan (.inf s) := fun s => by simp [IsNan]
  have hfin : ∀ s m e, ¬ IsNan (.fin s m e) := fun s m e => by simp [IsNan]
  rcases x with q | a | ⟨a, m, e⟩ <;> rcases y with q' | b | ⟨b, n, g⟩
  case nan.nan | nan.inf | nan.fin => exact absurd ⟨q, rfl⟩ hx
  case inf.nan | fin.nan => exact absurd ⟨q', rfl⟩ hy
  case inf.inf => exact ⟨_, rfl, hinf _⟩
  case inf.fin =>
    have hn : n ≠ 0 := fun hn => h ⟨a, b, g, .inl ⟨rfl, by rw [hn]⟩⟩
    exact ⟨_, (mul_inf_fin a b g hn).1, hinf _⟩
  case fin.inf =>
    have hm : m ≠ 0 := fun hm => h ⟨b, a, e, .inr ⟨rfl, by rw [hm]⟩⟩
    exact ⟨_, (mul_inf_fin b a e hm).2, hinf _⟩
  case fin.fin => exact ⟨_, rfl, hfin _ _ _⟩

end

section
variable {f : Fmt} {r : Rounding} {a b d : Nat} {x y z : Val} (hx : f.read r.ftz a = x) (hy : f.read r.ftz b = y) (hz : f.read r.ftz d = z)
include hx hy hz

theorem fmac_zeroTimesInf (h : ZeroTimesInf x y) : f.fmac r a b d = (f.nanCode, 1) := by
  have hfl : ∀ v : Val, (1 : BitVec 5) ||| (0 ||| v.signals) = 1 := fun v => by rw [signals_eq]; split_ifs <;> rfl
  rw [fmac_eq hx hy hz, mul_zeroTimesInf h, add_nan r.rm (.inl ⟨false, rfl⟩), op_nan]
  exact congrArg _ (hfl z)

theorem fmac_nan (h : ¬ ZeroTimesInf x y) (hn : IsNan x ∨ IsNan y ∨ IsNan z) :
    f.fmac r a b d = (f.nanCode, nvIf (x = .nan true ∨ y = .nan true ∨ z = .nan true)) := by
  have hs : x.signals ||| y.signals ||| z.signals = nvIf (x = .nan true ∨ y = .nan true ∨ z = .nan true) := by
    rw [signals_eq, signals_eq, signals_eq, signals_or, signals_or, nvIf]; simp only [or_assoc]
  by_cases hxy : IsNan x ∨ IsNan y
  · rw [fmac_eq hx hy hz, mul_nan hxy, add_nan r.rm (.inl ⟨false, rfl⟩), op_nan, ← hs]
    exact congrArg (fun fl => (f.nanCode, x.signals ||| y.signals ||| fl)) (BitVec.zero_or ..)
  · obtain ⟨hnx, hny⟩ := not_or.1 hxy
    obtain ⟨p, hp, hnp⟩ := mul_number hnx hny h
    have hz' : IsNan z := (hn.resolve_left hnx).resolve_left hny
    have hquiet : ∀ {v : Val}, ¬ IsNan v → v.signals = 0 := fun {v} hv => by
      rw [signals_eq, if_neg fun h => hv ⟨true, h⟩]
    rw [fmac_of_mul hx hy hz hp, add_nan r.rm (.inr hz'), op_nan, ← hs, hquiet hnp, hquiet hnx, hquiet hny]
    rfl

theorem fmac_infProduct {s : Bool} (h : InfProduct x y s) :
    (∀ t, z = .inf t → f.fmac r a b d = if s = t then (f.signOf s + f.infCode, 0) else (f.nanCode, 1)) ∧
    ∀ t n e, z = .fin t n e → f.fmac r a b d = (f.signOf s + f.infCode, 0) := by
  rw [fmac_of_mul hx hy hz (mul_infProduct h)]
  constructor
  · rintro t rfl
    by_cases hst : s = t <;> simp [Val.add, hst, flagNV]
  · rintro t n e rfl
    exact op_inf f r s 0

end

section
variable {f : Fmt} {r : Rounding} {a b d : Nat}

theorem codes_inf_inf {s t : Bool} (hx : f.read r.ftz a = .inf s) (hy : f.read r.ftz b = .inf t) :
    f.addc r a b = (if s = t then (f.signOf s + f.infCode, 0) else (f.nanCode, 1)) ∧
    f.subc r a b = (if s = t then (f.nanCode, 1) else (f.signOf s + f.infCode, 0)) ∧ f.mulc r a b = (f.signOf (s != t) + f.infCode, 0) := by
  rw [addc_eq hx hy, subc_eq hx hy, mulc_eq hx hy]
  cases s <;> cases t <;> simp [Val.add, Val.mul, Val.neg, flagNV]

theorem codes_inf_fin {s t : Bool} {n : Nat} {e : Int} (hx : f.read r.ftz a = .inf s) (hy : f.read r.ftz b = .fin t n e) :
    f.addc r a b = (f.signOf s + f.infCode, 0) ∧ f.addc r b a = (f.signOf s + f.infCode, 0) ∧ f.subc r a b = (f.signOf s + f.infCode, 0) ∧
    f.subc r b a = (f.signOf (!s) + f.infCode, 0) ∧
    ∀ p ∈ [f.mulc r a b, f.mulc r b a], p = if n = 0 then (f.nanCode, 1) else (f.signOf (s != t) + f.infCode, 0) := by
  rw [addc_eq hx hy, addc_eq hy hx, subc_eq hx hy, subc_eq hy hx, mulc_eq hx hy, mulc_eq hy hx]
  refine ⟨op_inf .., op_inf .., op_inf .., op_inf .., fun p hp => ?_⟩
  by_cases hn : n = 0
  · have hzero : ∀ v w : Val, ZeroTimesInf v w → f.op r (v.mul w) = (f.nanCode, 1) := fun v w h => by rw [mul_zeroTimesInf h, op_nan]
    subst hn
    rw [if_pos rfl]
    rcases List.mem_pair.1 hp with rfl | rfl
    · exact hzero _ _ ⟨s, t, e, .inl ⟨rfl, rfl⟩⟩
    · exact hzero _ _ ⟨s, t, e, .inr ⟨rfl, rfl⟩⟩
  · rw [if_neg hn]
    rcases List.mem_pair.1 hp with rfl | rfl
    · rw [(mul_inf_fin s t e hn).1, op_inf]
    · rw [(mul_inf_fin s t e hn).2, op_inf]

/-- An exact sum of two numbers, rounded once. -/
theorem op_add_fin (f : Fmt) (r : Rounding) (s : Bool) (m : Nat) (e : Int) (t : Bool) (n : Nat) (q : Int) :
    ∃ c k p, ratio c k p = ratio s m e + ratio t n q ∧ (ratio c k p = 0 → c = if s = t then s else decide (r.rm = 3)) ∧
      f.op r (Val.add r.rm (.fin s m e) (.fin t n q)) = f.write r.rm r.ftz (.fin c k p) := by
  obtain ⟨c, k, p, hadd, hsum, hzero⟩ := add_exact r.rm s m e t n q
  exact ⟨c, k, p, hsum, fun h => hzero (hsum ▸ h), by rw [hadd, op_exact]⟩

theorem codes_fin_fin {s t : Bool} {m n : Nat} {e q : Int} (hx : f.read r.ftz a = .fin s m e) (hy : f.read r.ftz b = .fin t n q) :
    (∃ c k p, ratio c k p = ratio s m e + ratio t n q ∧ (ratio c k p = 0 → c = if s = t then s else decide (r.rm = 3)) ∧
      f.addc r a b = f.write r.rm r.ftz (.fin c k p)) ∧
    (∃ c k p, ratio c k p = ratio s m e - ratio t n q ∧ (ratio c k p = 0 → c = if s = !t then s else decide (r.rm = 3)) ∧
      f.subc r a b = f.write r.rm r.ftz (.fin c k p)) ∧
    ∃ k p, ratio (s != t) k p = ratio s m e * ratio t n q ∧ f.mulc r a b = f.write r.rm r.ftz (.fin (s != t) k p) := by
  rw [addc_eq hx hy, subc_eq hx hy, mulc_eq hx hy, sub_eq_add_neg, ← ratio_not]
  exact ⟨op_add_fin .., op_add_fin .., _, _, mul_exact .., op_exact ..⟩

theorem fmac_fin_fin {s t : Bool} {m n : Nat} {e q : Int} {z : Val} (hx : f.read r.ftz a = .fin s m e) (hy : f.read r.ftz b = .fin t n q)
    (hz : f.read r.ftz d = z) :
    (∀ u, z = .inf u → f.fmac r a b d = (f.signOf u + f.infCode, 0)) ∧
    ∀ u l w, z = .fin u l w → ∃ c k p, ratio c k p = ratio s m e * ratio t n q + ratio u l w ∧
      (ratio c k p = 0 → c = if (s != t) = u then u else decide (r.rm = 3)) ∧ f.fmac r a b d = f.write r.rm r.ftz (.fin c k p) := by
  rw [fmac_of_mul hx hy hz (p := .fin (s != t) (m * n) (e + q)) rfl, ← mul_exact]
  constructor
  · rintro u rfl
    exact op_inf f r u 0
  · rintro u l w rfl
    obtain ⟨c, k, p, hsum, hzero, hop⟩ := op_add_fin f r (s != t) (m * n) (e + q) u l w
    refine ⟨c, k, p, hsum, fun h => (hzero h).trans ?_, hop⟩
    by_cases hu : (s != t) = u
    · rw [if_pos hu, if_pos hu, hu]
    · rw [if_neg hu, if_neg hu]

end

/-! ## The obligation -/

theorem wide_formats {f : Fmt} (h : f ∈ [fp32, fp16, bf16]) : 0 < f.fb ∧ 1 < f.eb := by
  simp only [List.mem_cons, List.not_mem_nil, or_false] at h
  rcases h with rfl | rfl | rfl <;> decide

/-- What a code reads as, by where its magnitude lies. -/
theorem read_code {f : Fmt} (he : 1 < f.eb) (ftz : Bool) {c : Nat} (hc : c < 2 * f.signBit) :
    (f.infCode < c % f.signBit → f.read ftz c = .nan (decide (c % 2 ^ f.fb < 2 ^ (f.fb - 1)))) ∧
    (c % f.signBit = f.infCode → f.read ftz c = .inf (decide (f.signBit ≤ c))) ∧
    (c % f.signBit < 2 ^ f.fb → ∃ e, f.read true c = .fin (decide (f.signBit ≤ c)) 0 e) ∧
    (2 ^ f.fb ≤ c % f.signBit → f.read true c = f.read false c) := by
  have hs := signed_split hc
  have hlt : c % f.signBit < f.signBit := Nat.mod_lt c (Nat.two_pow_pos (f.eb + f.fb))
  generalize decide (f.signBit ≤ c) = s at hs ⊢
  generalize c % f.signBit = k at hs hlt ⊢
  subst hs
  refine ⟨fun h => ?_, fun h => h ▸ read_inf ftz s, fun h => ⟨_, read_subnormal he true s h⟩, fun h => ?_⟩
  · rw [read_nan ftz s hlt h, signOf_add_mod]
  · have hnormal : k / 2 ^ f.fb ≠ 0 := (Nat.div_pos h (Nat.two_pow_pos _)).ne'
    rw [read_signed true s hlt, read_signed false s hlt, if_neg hnormal, if_neg hnormal]

/-- Settles O7: a rounded number lies at one of two neighbouring codes, and the mode says which (`RoundsAmong`); what codes read as, by
their fields; operations, by the exact value that they round. -/
theorem floatRounding : Obligations.FloatRounding := by
  refine ⟨by decide, fun f hf => ?operations, fun f hf rm neg m e c fl hm hr => ?rounding, fun f hf => ?exact⟩ <;>
    obtain ⟨hfb, heb⟩ := wide_formats hf
  case operations =>
    refine ⟨fun ftz c => read_code heb ftz, fun rm neg m e _ => round_flush heb, fun rm ftz => ⟨fun _ => rfl, fun _ => rfl, fun _ _ _ => rfl⟩,
      fun r v fl => ⟨rfl, ?convert⟩, fun r a b d => ?codes⟩
    case convert => rw [← signals_eq]; rfl
    case codes =>
      exact ⟨codes_nan rfl rfl, fun s t => codes_inf_inf, fun s t n e => codes_inf_fin, fun s m e t n q => codes_fin_fin,
        fmac_zeroTimesInf rfl rfl rfl, fmac_nan rfl rfl rfl, fun s => fmac_infProduct rfl rfl rfl,
        fun s m e t n q hx hy => fmac_fin_fin hx hy rfl⟩
  case rounding =>
    simp only [ratio_false]
    exact ⟨fun h => by subst h; exact round_to_nearest hfb heb hm hr, fun h => round_toward_zero hfb heb hm h hr,
      fun h => round_away_from_zero hfb heb hm h hr⟩
  case exact =>
    refine ⟨fun c hc => ⟨_, _, ?_, read_finite heb true hc, ratio_digits c⟩, fun rm c hc hle => ?_⟩
    · simpa [Fmt.signOf] using read_finite heb false hc
    · rw [signed_split hc]
      exact write_read hfb heb rm _ hle

end Sys2Proof.Machine
end

section
/-! Conversions to integers, to and from one-byte formats, and the words that convert (R103, R104). -/

namespace Sys2Proof.Machine
open Sys2Proof.Safety

/-! ## To an INT32 (R103) -/

section
variable {rm : BitVec 2} {neg : Bool} {x : ℚ} {k n : Nat} {lost : Bool}

theorem multiples_one : multiples 1 = fun i : Nat => (i : ℚ) := funext fun i => mul_one (i : ℚ)

/-- To an integer: no further than a half from it, and from half-way to an even one. -/
theorem RoundsAmong.nearest_integer (h : RoundsAmong (fun i => i) 0 neg x k n lost) :
    |(n : ℚ) - x| ≤ 1 / 2 ∧ (|(n : ℚ) - x| = 1 / 2 → n % 2 = 0) := by
  have hsum : ((k + 1 : Nat) : ℚ) - x = 1 - (x - k) := by push_cast; ring
  have hside := h.nearer_side
  simp only [hsum] at hside
  rcases hside with ⟨rfl, hle, heven⟩ | ⟨rfl, hle, heven⟩
  · rw [abs_sub_comm, abs_of_nonneg (sub_nonneg.2 h.le)]
    exact ⟨by linarith, fun heq => heven (by linarith)⟩
  · rw [abs_of_pos (sub_pos.2 h.lt), hsum]
    exact ⟨by linarith, fun heq => heven (by linarith)⟩

theorem RoundsAmong.floor (h : RoundsAmong (fun i => i) rm neg x k n lost) : (k : Int) = ⌊x⌋ :=
  (Int.floor_eq_iff.2 ⟨by exact_mod_cast h.le, by exact_mod_cast h.lt⟩).symm

theorem RoundsAmong.toward (h : RoundsAmong (fun i => i) rm neg x k n lost) (hmode : towardZero rm neg) : (n : Int) = ⌊x⌋ := by
  rw [h.down (not_roundsUp_toward hmode), h.floor]

theorem RoundsAmong.away (h : RoundsAmong (fun i => i) rm neg x k n lost) (hmode : awayFromZero rm neg) : (n : Int) = ⌈x⌉ := by
  have hle := h.le
  have hlt := h.lt
  have hu := h.succ_iff
  rw [roundsUp_away hmode, sub_pos] at hu
  push_cast at hlt
  refine (Int.ceil_eq_iff.2 ?_).symm
  rcases h.eq_or with rfl | hn
  · have hxk : x ≤ n := not_lt.1 (mt hu.2 (Nat.succ_ne_self n).symm)
    push_cast
    exact ⟨by linarith, hxk⟩
  · rw [hn]
    push_cast
    exact ⟨by linarith [hu.1 hn], hlt.le⟩

end

/-- A number with a sign. -/
def signedInt (a : Bool) (n : Nat) : Int := if a then -(n : Int) else n

theorem toInt32_fin (rm : BitVec 2) (a : Bool) (m : Nat) (e : Int) : Val.toInt32 rm (.fin a m e) =
    let n := roundAt rm a m e 0
    let v := signedInt a n.1
    if 2 ^ 31 - 1 < v then (0x7FFFFFFF, flagNV) else if v < -(2 ^ 31) then (0x80000000, flagNV)
    else (BitVec.ofInt 32 v, flagIf n.2 flagNX) := rfl

theorem signedInt_roundsTo {rm : BitVec 2} {a : Bool} {m : Nat} {e : Int} {k n : Nat} {lost : Bool}
    (h : RoundsAmong (fun i => i) rm a (m * 2 ^ e) k n lost) : RoundsTo rm (ratio a m e) (signedInt a n) := by
  have hx : (0 : ℚ) ≤ m * 2 ^ e := by positivity
  cases a
  · rw [ratio_false]
    refine ⟨?_, ?_, ?_, ?_⟩ <;> rintro rfl <;> simp only [signedInt, Bool.false_eq_true, if_false]
    · exact ⟨h.nearest_integer.1, fun heq => by have := h.nearest_integer.2 heq; omega⟩
    · rw [if_pos hx]; exact h.toward (.inl rfl)
    · exact h.away (.inl ⟨rfl, rfl⟩)
    · exact h.toward (.inr (.inr ⟨rfl, rfl⟩))
  · rw [ratio_true]
    refine ⟨?_, ?_, ?_, ?_⟩ <;> rintro rfl <;> simp only [signedInt, if_true]
    · have hn := h.nearest_integer
      rw [Int.cast_neg, Int.cast_natCast, neg_sub_neg, abs_sub_comm]
      exact ⟨hn.1, fun heq => by have := hn.2 heq; omega⟩
    · rw [Int.ceil_neg, h.toward (.inl rfl)]
      rcases hx.eq_or_lt with h0 | hpos
      · simp [← h0]
      · rw [if_neg (by linarith)]
    · rw [Int.ceil_neg, h.toward (.inr (.inl ⟨rfl, rfl⟩))]
    · rw [Int.floor_neg, h.away (.inr ⟨rfl, rfl⟩)]

theorem signedInt_exact {rm : BitVec 2} {a : Bool} {m : Nat} {e : Int} {k n : Nat} {lost : Bool}
    (h : RoundsAmong (fun i => i) rm a (m * 2 ^ e) k n lost) : lost = false ↔ (signedInt a n : ℚ) = ratio a m e := by
  rw [← Bool.not_eq_true, h.lost_iff, not_not]
  cases a
  · simp [signedInt]
  · simp [signedInt, ratio_true]

theorem toInt32_rounds (rm : BitVec 2) (a : Bool) (m : Nat) (e : Int) : ∃ r : Int, RoundsTo rm (ratio a m e) r ∧ Val.toInt32 rm (.fin a m e) =
    if 2 ^ 31 ≤ r then (0x7FFFFFFF, 1) else if r < -(2 ^ 31) then (0x80000000, 1)
    else (BitVec.ofInt 32 r, if (r : Rat) = ratio a m e then 0 else 0b10000) := by
  obtain ⟨k, h⟩ := roundAt_roundsAmong rm a m e 0
  rw [zpow_zero, multiples_one] at h
  refine ⟨signedInt a (roundAt rm a m e 0).1, signedInt_roundsTo h, ?_⟩
  have hflag : flagIf (roundAt rm a m e 0).2 flagNX = if (signedInt a (roundAt rm a m e 0).1 : ℚ) = ratio a m e then 0 else 0b10000 := by
    simp only [← signedInt_exact h]
    cases (roundAt rm a m e 0).2 <;> rfl
  rw [toInt32_fin, ← hflag]
  simp only [Int.sub_one_lt_iff]
  rfl

/-! ## To a one-byte format (R103) -/

theorem lead_lt_iff {m : Nat} (e E : Int) (h : m ≠ 0) : (Nat.log2 m : Int) + e < E ↔ (m : ℚ) * 2 ^ e < 2 ^ E := by
  constructor
  · exact fun hlt => (lt_lead_succ m e).trans_le (zpow_le_zpow_right₀ one_le_two (by omega))
  · exact fun hlt => (zpow_lt_zpow_iff_right₀ one_lt_two).1 ((lead_le e h).trans_lt hlt)

/-- Numbers of units of two powers of two compare in units of the lesser one. -/
theorem units_lt_iff (n : Nat) (q : Int) (m : Nat) (e : Int) :
    (n : Int) * 2 ^ (q - min q e).toNat < (m : Int) * 2 ^ (e - min q e).toNat ↔ (n : ℚ) * 2 ^ q < m * 2 ^ e := by
  rw [scaled_units n (min_le_left q e), scaled_units m (min_le_right q e), mul_lt_mul_iff_left₀ (two_zpow_pos _)]
  norm_cast

theorem flags_exact_small (lost small : Bool) : flagIf lost flagNX ||| flagIf (lost && small) flagUF =
    if lost = false then 0 else if small = true then 0b11000 else 0b10000 := by
  cases lost <;> cases small <;> rfl

theorem saturate_fin (f : Fmt) (top inf nan : Nat) (a : Bool) {m : Nat} (e : Int) (hm : m ≠ 0) : f.saturate top inf nan (.fin a m e) =
    let c := f.codeOf 0 a m e
    let s := if a then 128 else 0
    if top < c.1 ∨ (top = c.1 ∧ c.2 = true ∧ magnitude f c.1 < m * 2 ^ e) then (s + top, 0b10100)
    else (s + c.1, if c.2 = false then 0 else if (m : ℚ) * 2 ^ e < 2 ^ f.emin then 0b11000 else 0b10000) := by
  have hmag := magnitude_codeOf f 0 a e hm
  have hmodel : f.saturate top inf nan (.fin a m e) =
      let q := f.unitExp m e
      let n := (roundAt 0 a m e q).1
      let c := f.codeOf 0 a m e
      let s := if a then 128 else 0
      let above := decide (top < c.1) || (decide (top = c.1) && c.2 && decide ((n : Int) * 2 ^ (q - min q e).toNat < (m : Int) * 2 ^ (e - min q e).toNat))
      if above then (s + top, 0b10100)
      else (s + c.1, flagIf c.2 flagNX ||| flagIf (c.2 && decide ((Nat.log2 m : Int) + e < f.emin)) flagUF) := by
    simp only [Fmt.saturate, if_neg hm]
    rfl
  rw [hmodel]
  simp only [flags_exact_small, Bool.or_eq_true, Bool.and_eq_true, decide_eq_true_eq, units_lt_iff, lead_lt_iff e _ hm, ← hmag, and_assoc]

/-- Packing by `saturate` rounds to nearest and saturates at the greatest code. -/
theorem packsTo_saturate {f : Fmt} (hf : 0 < f.fb) (top inf nan : Nat) : PacksTo f top (2 ^ f.emin) (f.saturate top inf nan) := by
  intro a m e x sign
  refine ⟨fun hm => by rw [hm]; rfl, fun habove => ?_, fun hm hle => ?_⟩
  · have hm : m ≠ 0 := by
      rintro rfl
      have h0 := (magnitude_strictMono f).monotone (Nat.zero_le top)
      simp only [x, magnitude_zero, ratio_false, Nat.cast_zero, zero_mul] at habove h0
      exact absurd habove h0.not_gt
    obtain ⟨k, h⟩ := codeOf_roundsAmong f hf 0 a e hm
    simp only [x, ratio_false] at habove
    have hk : top ≤ k := (magnitude_strictMono f).le_iff_le.1 (h.le_below (magnitude_strictMono f) habove.le)
    rw [saturate_fin f top inf nan a e hm]
    refine if_pos ?_
    rcases (hk.trans (by have := h.eq_or; omega : k ≤ (f.codeOf 0 a m e).1)).lt_or_eq with hlt | heq
    · exact .inl hlt
    · refine .inr ⟨heq, h.lost_iff.2 ?_, ?_⟩
      · rw [← heq]; exact habove.ne
      · rw [← heq]; exact habove
  · obtain ⟨k, h⟩ := codeOf_roundsAmong f hf 0 a e hm
    simp only [x, ratio_false] at hle ⊢
    have hc : (f.codeOf 0 a m e).1 ≤ top := by
      rcases hle.lt_or_eq with hlt | heq
      · have : k < top := (magnitude_strictMono f).lt_iff_lt.1 (h.le.trans_lt hlt)
        have := h.eq_or
        omega
      · exact (h.exact (magnitude_strictMono f) heq.symm).1.le
    have hmag : magnitude f (f.codeOf 0 a m e).1 ≤ magnitude f top := (magnitude_strictMono f).monotone hc
    refine ⟨_, hc, ?_, fun i _ => h.nearest (magnitude_strictMono f) i⟩
    have hlost : (f.codeOf 0 a m e).2 = false ↔ magnitude f (f.codeOf 0 a m e).1 = m * 2 ^ e := by
      rw [← Bool.not_eq_true, h.lost_iff, not_not]
    rw [saturate_fin f top inf nan a e hm]
    simp only [hlost]
    refine if_neg (not_or.2 ⟨hc.not_gt, fun hh => ?_⟩)
    rw [← hh.1] at hh
    exact absurd hh.2.2 hle.not_gt

/-! ## One-byte codes read (R89, R91) -/

theorem signOf_byte (s : Bool) : e4m3.signOf s = (if s then 128 else 0) ∧ e5m2.signOf s = (if s then 128 else 0) := ⟨rfl, rfl⟩

theorem signOf_byte_mod (s : Bool) {c : Nat} (h : c < 128) : (e4m3.signOf s + c) % 128 = c := by
  rw [(signOf_byte s).1]; cases s
  · rw [if_neg Bool.false_ne_true, zero_add, Nat.mod_eq_of_lt h]
  · rw [if_pos rfl, Nat.add_mod_left, Nat.mod_eq_of_lt h]

/-- E4M3 has no infinity: the codes of its highest exponent but the last are numbers. -/
theorem e4m3Read_finite (s : Bool) {c : Nat} (h : c < 0x7F) : e4m3Read (e4m3.signOf s + c) = .fin s (e4m3.digits c).1 (e4m3.digits c).2 := by
  have hsign : decide (128 ≤ e4m3.signOf s + c) = s := signOf_sign (f := e4m3) s (by change c < 128; omega)
  have hdiv : (e4m3.signOf s + c) / 8 % 16 = c / 8 := signOf_add_div (f := e4m3) s (by change c < 128; omega)
  have hmod : (e4m3.signOf s + c) % 8 = c % 8 := signOf_add_mod (f := e4m3) s c
  rw [e4m3Read, signOf_byte_mod s (by omega), if_neg h.ne, hdiv, hsign, hmod]
  by_cases htop : c / 8 = 15
  · have hn : ¬ c < 8 := by omega
    have hdig : e4m3.digits c = ((8 + c % 8, (-9 : Int) + (c / 8 - 1 : Nat)) : Nat × Int) := if_neg hn
    rw [if_pos htop, hdig, htop]
    rfl
  · rw [if_neg htop]
    exact read_finite (f := e4m3) (by decide) s (by change c < 120; omega)

theorem e5m2Read_finite (s : Bool) {c : Nat} (h : c < 0x7C) : e5m2Read (e5m2.signOf s + c) = .fin s (e5m2.digits c).1 (e5m2.digits c).2 := by
  rw [e5m2Read, read_finite (f := e5m2) (by decide) s h]

/-! ## Words (R103, R104) -/

theorem laneByte_toNat (a : Lane) (k : Nat) : (laneByte a k).toNat = a.toNat / 2 ^ (8 * k) % 256 := by
  rw [laneByte, BitVec.toNat_setWidth, BitVec.toNat_ushiftRight, Nat.shiftRight_eq_div_pow]

theorem quadOf_eq (f : Nat → Nat × BitVec 5) : quadOf f =
    ((f 0).1 + 2 ^ 8 * (f 1).1 + 2 ^ 16 * (f 2).1 + 2 ^ 24 * (f 3).1, (f 0).2 ||| (f 1).2 ||| (f 2).2 ||| (f 3).2) := by
  simp [quadOf, joinFlags, List.range_succ]

theorem quadWord_of {i : Instr} {d : Reg} {f : Group → Nat → Nat → Nat × BitVec 5}
    (h : ∀ s, exec i s = word i s fun c g => s.floatResult c g d 1 fun _ j => quadOf (f g j)) : QuadWord i d f :=
  floatWord_of fun s => by simp only [h, quadOf_eq]

/-- The unpacking words write what a byte reads as. -/
theorem unpackWord_of {i : Instr} {d a : Reg} {read : Nat → Val}
    (h : ∀ s, exec i s = word i s fun c g => s.floatResult c g d 4 fun k j => exactFp32 (read (laneByte (g.srcV .a a j) k).toNat)) :
    FloatWord i d 4 fun g k j => ((fp32.write 0 false (read ((g.srcV .a a j).toNat / 2 ^ (8 * k) % 256))).1, 0) :=
  floatWord_of fun s => by simp only [h, laneByte_toNat]; rfl

theorem vcvtFI_word (d a : Reg) : FloatWord (.vcvtFI d a) d 1 fun g _ j =>
    fp32.write g.rmode g.ftz (.fin (decide ((g.srcV .a a j).toInt < 0)) (g.srcV .a a j).toInt.natAbs 0) :=
  floatWord_of fun s => by
    change execVcvtFI d a s = _
    simp only [execVcvtFI, op_exact]
    rfl

/-- What the codes of the one-byte formats read as, code by code. -/
theorem byteCodes (s : Bool) {c : Nat} (hc : c < 128) :
    (c = 0x7F → e4m3Read (e4m3.signOf s + c) = .nan false) ∧ (0x7C < c → e5m2Read (e5m2.signOf s + c) = .nan false) ∧
    (c = 0x7C → e5m2Read (e5m2.signOf s + c) = .inf s) ∧
    (c < 0x7F → ∃ m e, e4m3Read (e4m3.signOf s + c) = .fin s m e ∧ ratio false m e = magnitude e4m3 c) ∧
    (c < 0x7C → ∃ m e, e5m2Read (e5m2.signOf s + c) = .fin s m e ∧ ratio false m e = magnitude e5m2 c) := by
  refine ⟨fun h => ?_, fun h => ?_, fun h => ?_, fun h => ⟨_, _, e4m3Read_finite s h, ratio_digits c⟩,
    fun h => ⟨_, _, e5m2Read_finite s h, ratio_digits c⟩⟩
  · rw [e4m3Read, signOf_byte_mod s hc, if_pos h]
  · rw [e5m2Read, read_nan (f := e5m2) false s hc h]
  · subst h
    have hinf : e5m2.read false (e5m2.signOf s + 0x7C) = .inf s := read_inf (f := e5m2) false s
    rw [e5m2Read, hinf]

/-- Settles O8: a conversion to an integer by `roundAt` at exponent 0, to a one-byte format by `saturate`; the codes of these by their fields. -/
theorem conversions : Obligations.Conversions := by
  refine ⟨vcvtFI_word, fun d a => floatWord_of fun _ => rfl, fun d a => floatWord_of fun _ => rfl,
    fun d a => floatWord_of fun _ => rfl, fun d a => floatWord_of fun _ => rfl, fun d a => floatWord_of fun _ => rfl,
    fun d a => quadWord_of fun _ => rfl, fun d a => quadWord_of fun _ => rfl, fun d a => quadWord_of fun _ => rfl,
    fun d a => unpackWord_of fun _ => rfl, fun d a => unpackWord_of fun _ => rfl, fun d a => unpackWord_of fun _ => rfl,
    fun rm q a => ⟨rfl, rfl⟩, toInt32_rounds, ?e4, ?e5, ?nans, ?infs, fun c hc => ?codes⟩
  case e4 =>
    rw [ratio_false, Nat.cast_one, one_mul]
    exact packsTo_saturate (f := e4m3) (by decide) 0x7E 0x7E 0x7F
  case e5 =>
    rw [ratio_false, Nat.cast_one, one_mul]
    exact packsTo_saturate (f := e5m2) (by decide) 0x7B 0x7C 0x7E
  case nans => exact fun q => by cases q <;> exact ⟨rfl, rfl⟩
  case infs => exact fun a => ⟨rfl, rfl⟩
  case codes =>
    have hsplit : c = e4m3.signOf (decide (128 ≤ c)) + c % 128 := signed_split (f := e4m3) hc
    have h := byteCodes (decide (128 ≤ c)) (Nat.mod_lt c (by decide : 0 < 128))
    rw [(signOf_byte _).2.trans (signOf_byte _).1.symm, ← hsplit] at h
    exact h

end Sys2Proof.Machine
end

section
/-! The reciprocal and the roots stand for what they are told from (R125, R126). -/

namespace Sys2Proof.Machine
open Sys2Proof.Safety

/-! ## A quotient or root with a last bit that says whether it is exact -/

/-- What a truncated result with its last bit stands for, by the side that `f` gives the result and the next multiple. -/
theorem standsFor_withRest (a : Bool) {n : Nat} (e : Int) {p : Prop} [Decidable p] {f : Rat → Rat} {c : Rat} (hn : 2 ^ 31 ≤ n)
    (hexact : p → f (n * 2 ^ e) = c) (hbelow : ¬ p → f (n * 2 ^ e) < c) (habove : ¬ p → c < f ((n + 1 : Nat) * 2 ^ e)) :
    ∃ k q, withRest a n e (decide p) = .fin a k q ∧ StandsFor k q f c := by
  have hhalf : ∀ n : Nat, ratio false (2 * n) (e - 1) = n * 2 ^ e := fun n => by
    rw [ratio_false, zpow_sub_one₀ two_ne_zero]; push_cast; ring
  by_cases hp : p
  · refine ⟨2 * n, e - 1, by rw [withRest, decide_eq_true hp]; rfl, by omega, fun _ => ?_, fun h => by omega⟩
    rw [hhalf]
    exact hexact hp
  · refine ⟨2 * n + 1, e - 1, by rw [withRest, decide_eq_false hp]; rfl, by omega, fun h => by omega, fun _ => ?_⟩
    rw [Nat.add_sub_cancel, show 2 * n + 1 + 1 = 2 * (n + 1) by ring, hhalf, hhalf]
    exact ⟨hbelow hp, habove hp⟩

theorem isqrt_spec (v : Nat) : ∀ n r, r * r ≤ v → v < (r + 2 ^ n) * (r + 2 ^ n) →
    isqrt v n r * isqrt v n r ≤ v ∧ v < (isqrt v n r + 1) * (isqrt v n r + 1)
  | 0, r, hle, hlt => ⟨hle, hlt⟩
  | n + 1, r, hle, hlt => by
    have hpow : r + 2 ^ (n + 1) = r + 2 ^ n + 2 ^ n := by rw [pow_succ]; ring
    by_cases h : (r + 2 ^ n) * (r + 2 ^ n) ≤ v
    · rw [isqrt, if_pos h]
      exact isqrt_spec v n _ h (hpow ▸ hlt)
    · rw [isqrt, if_neg h]
      exact isqrt_spec v n r hle (not_le.1 h)

/-- The square root of a number of at most 2 n bits. -/
theorem isqrt_zero {v n : Nat} (h : v < 2 ^ n * 2 ^ n) : isqrt v n 0 * isqrt v n 0 ≤ v ∧ v < (isqrt v n 0 + 1) * (isqrt v n 0 + 1) :=
  isqrt_spec v n 0 (Nat.zero_le v) (by rwa [zero_add])

theorem le_isqrt {v r b : Nat} (h : v < (r + 1) * (r + 1)) (hb : b * b ≤ v) : b ≤ r := by
  by_contra hlt
  exact absurd (Nat.mul_le_mul (by omega : r + 1 ≤ b) (by omega : r + 1 ≤ b)) (by omega)

/-- `evenExp` gives the same number with an even exponent. -/
theorem evenExp_spec (m : Nat) (e : Int) : ∃ m' k, evenExp m e = (m', 2 * k) ∧ (m' : ℚ) * 2 ^ (2 * k) = m * 2 ^ e ∧ m ≤ m' ∧ m' ≤ 2 * m := by
  by_cases h : e % 2 = 0
  · have hk : 2 * (e / 2) = e := by omega
    exact ⟨m, e / 2, by rw [evenExp, if_pos h, hk], by rw [hk], le_rfl, by omega⟩
  · have hk : 2 * (e / 2) = e - 1 := by omega
    refine ⟨2 * m, e / 2, by rw [evenExp, if_neg h, hk], ?_, by omega, le_rfl⟩
    rw [hk, zpow_sub_one₀ two_ne_zero]
    push_cast
    ring

/-! ## Reciprocal and roots (R125) -/

section
variable {m : Nat} (e : Int) (h0 : 0 < m) (hm : m < 2 ^ 24)
include h0 hm

theorem recip_standsFor (a : Bool) : ∃ k q, Val.recip (.fin a m e) = (.fin a k q, 0) ∧ StandsFor k q (fun y => y * ratio false m e) 1 := by
  have hdiv := Nat.div_add_mod' (2 ^ 64) m
  have hmod := Nat.mod_lt (2 ^ 64) h0
  have hscale : ∀ n : Nat, (n : ℚ) * 2 ^ (-64 - e) * ratio false m e = (n * m : Nat) / (2 ^ 64 : Nat) := fun n => by
    rw [ratio_false, zpow_sub₀ two_ne_zero, zpow_neg]; push_cast; field_simp
  have hpos : (0 : ℚ) < (2 ^ 64 : Nat) := by positivity
  have hstands : ∃ k q, withRest a (2 ^ 64 / m) (-64 - e) (decide (2 ^ 64 % m = 0)) = .fin a k q ∧ StandsFor k q (fun y => y * ratio false m e) 1 := by
    refine standsFor_withRest a (-64 - e) ((Nat.le_div_iff_mul_le h0).2 (by omega)) (fun h => ?_) (fun h => ?_) (fun h => ?_)
    · rw [hscale, div_eq_one_iff_eq hpos.ne']; exact_mod_cast (by omega : 2 ^ 64 / m * m = 2 ^ 64)
    · rw [hscale, div_lt_one hpos]; exact_mod_cast (by omega : 2 ^ 64 / m * m < 2 ^ 64)
    · rw [hscale, one_lt_div hpos]; exact_mod_cast (by rw [add_mul]; omega : 2 ^ 64 < (2 ^ 64 / m + 1) * m)
  obtain ⟨k, q, hk, hstands⟩ := hstands
  exact ⟨k, q, by rw [Val.recip, if_neg h0.ne', hk], hstands⟩

theorem sqrt_standsFor : ∃ k q, Val.sqrt (.fin false m e) = (.fin false k q, 0) ∧ StandsFor k q (fun y => y * y) (ratio false m e) := by
  obtain ⟨m', i, heven, hval, hlo, hhi⟩ := evenExp_spec m e
  set r := isqrt (m' * 2 ^ 64) 48 0 with hr
  obtain ⟨hle, hlt⟩ := isqrt_zero (v := m' * 2 ^ 64) (n := 48) (by omega)
  rw [← hr] at hle hlt
  have hscale : ∀ n : Nat, (n : ℚ) * 2 ^ (i - 32) * (n * 2 ^ (i - 32)) = (n * n : Nat) * 2 ^ (2 * i - 64) := fun n => by
    rw [mul_mul_mul_comm, ← zpow_add₀ two_ne_zero]; push_cast; congr 2; ring
  have hc : ratio false m e = (m' * 2 ^ 64 : Nat) * 2 ^ (2 * i - 64) := by
    rw [ratio_false, ← hval, zpow_sub₀ two_ne_zero]; push_cast; field_simp
  have hstands : ∃ k q, withRest false r (i - 32) (decide (r * r = m' * 2 ^ 64)) = .fin false k q ∧ StandsFor k q (fun y => y * y) (ratio false m e) := by
    refine standsFor_withRest false (i - 32) (le_isqrt hlt (by omega)) (fun h => ?_) (fun h => ?_) (fun h => ?_)
    · rw [hscale, hc, h]
    · rw [hscale, hc]; exact mul_lt_mul_of_pos_right (by exact_mod_cast hle.lt_of_ne h) (two_zpow_pos _)
    · rw [hscale, hc]; exact mul_lt_mul_of_pos_right (by exact_mod_cast hlt) (two_zpow_pos _)
  obtain ⟨k, q, hk, hstands⟩ := hstands
  refine ⟨k, q, ?_, hstands⟩
  rw [Val.sqrt, if_neg h0.ne', if_neg Bool.false_ne_true, heven, ← hk]
  simp only [← hr, Int.mul_ediv_cancel_left i two_ne_zero]

theorem rsqrt_standsFor : ∃ k q, Val.rsqrt (.fin false m e) = (.fin false k q, 0) ∧ StandsFor k q (fun y => y * y * ratio false m e) 1 := by
  obtain ⟨m', i, heven, hval, hlo, hhi⟩ := evenExp_spec m e
  have hm' : 0 < m' := by omega
  have hv : 2 ^ 166 ≤ 2 ^ 192 / m' := (Nat.le_div_iff_mul_le hm').2 (by omega)
  have hdiv := Nat.div_add_mod' (2 ^ 192) m'
  have hmod := Nat.mod_lt (2 ^ 192) hm'
  set r := isqrt (2 ^ 192 / m') 97 0 with hr
  obtain ⟨hle, hlt⟩ := isqrt_zero (v := 2 ^ 192 / m') (n := 97) ((Nat.div_le_self _ _).trans_lt (by norm_num))
  rw [← hr] at hle hlt
  -- the square of the root, times the number
  have hlow : r * r * m' ≤ 2 ^ 192 := (Nat.mul_le_mul_right m' hle).trans (by omega)
  have hhigh : 2 ^ 192 < (r + 1) * (r + 1) * m' := by
    have := Nat.mul_le_mul_right m' (Nat.succ_le_of_lt hlt)
    rw [Nat.succ_mul] at this
    omega
  have hscale : ∀ n : Nat, (n : ℚ) * 2 ^ (-96 - i) * (n * 2 ^ (-96 - i)) * ratio false m e = (n * n * m' : Nat) / (2 ^ 192 : Nat) := fun n => by
    have hexp : (2 : ℚ) ^ (-96 - i) * 2 ^ (-96 - i) * 2 ^ (2 * i) = 1 / (2 ^ 192 : Nat) := by
      rw [← zpow_add₀ two_ne_zero, ← zpow_add₀ two_ne_zero, show -96 - i + (-96 - i) + 2 * i = -(192 : Nat) by push_cast; ring, zpow_neg,
        zpow_natCast, one_div, Nat.cast_pow, Nat.cast_ofNat]
    rw [ratio_false, ← hval, div_eq_mul_one_div, ← hexp]
    push_cast
    ring
  have hpos : (0 : ℚ) < (2 ^ 192 : Nat) := by positivity
  have hstands : ∃ k q, withRest false r (-96 - i) (decide (r * r * m' = 2 ^ 192)) = .fin false k q ∧
      StandsFor k q (fun y => y * y * ratio false m e) 1 := by
    refine standsFor_withRest false (-96 - i) (le_isqrt hlt (by omega)) (fun h => ?_) (fun h => ?_) (fun h => ?_)
    · rw [hscale, h, div_self hpos.ne']
    · rw [hscale, div_lt_one hpos]; exact_mod_cast hlow.lt_of_ne h
    · rw [hscale, one_lt_div hpos]; exact_mod_cast hhigh
  obtain ⟨k, q, hk, hstands⟩ := hstands
  refine ⟨k, q, ?_, hstands⟩
  rw [Val.rsqrt, if_neg h0.ne', if_neg Bool.false_ne_true, heven, ← hk]
  simp only [← hr, Int.mul_ediv_cancel_left i two_ne_zero]

end

end Sys2Proof.Machine
end

section
/-! Exponential, logarithm and hyperbolic tangent in fixed point: where their values lie, and that they rise (R126). -/

namespace Sys2Proof.Machine
open Sys2Proof.Safety

/-! ## Fixed point -/

theorem fixOne_pos : 0 < fixOne := Nat.two_pow_pos _

theorem fixOne_cast : (fixOne : ℚ) = 2 ^ (224 : Int) := by rw [fixOne]; push_cast; norm_cast

/-- `toFix` truncates a magnitude to a multiple of 2^−224. -/
theorem toFix_floor (m : Nat) (e : Int) : toFix false m e = ⌊ratio false m e * fixOne⌋ := by
  have hquot : ratio false m e * fixOne = (m * 2 ^ (e + 224).toNat : Nat) / (2 ^ (-(e + 224)).toNat : Nat) := by
    have hexp : (2 : ℚ) ^ (e + 224) = 2 ^ (e + 224).toNat / 2 ^ (-(e + 224)).toNat := by
      rw [← zpow_natCast, ← zpow_natCast, ← zpow_sub₀ two_ne_zero]; congr 1; omega
    rw [ratio_false, fixOne_cast, mul_assoc, ← zpow_add₀ two_ne_zero, hexp]
    push_cast
    ring
  rw [hquot, Rat.floor_natCast_div_natCast]
  rfl

theorem toFix_units (a : Bool) (m : Nat) {e : Int} (h : -224 ≤ e) : toFix a m e = unitsOf (-224) a m e := by
  simp only [toFix, unitsOf, sub_neg_eq_add, show (-(e + 224)).toNat = 0 by omega, pow_zero, Nat.div_one]

/-- A number of units of 2^−224 is held exactly. -/
theorem toFix_exact (a : Bool) (m : Nat) {e : Int} (h : -224 ≤ e) : (toFix a m e : ℚ) = ratio a m e * fixOne := by
  rw [toFix_units a m h, ratio_unitsOf h a m, fixOne_cast, mul_assoc, ← zpow_add₀ two_ne_zero]
  simp

/-! ## The series -/

section
variable {next next' : Nat → Nat → Nat}

theorem series_mono (hstep : ∀ k t t', t ≤ t' → next k t ≤ next' k t') :
    ∀ n k t t' acc acc', t ≤ t' → acc ≤ acc' → series next n k t acc ≤ series next' n k t' acc'
  | 0, _, _, _, _, _, _, hacc => hacc
  | n + 1, k, _, _, _, _, ht, hacc => series_mono hstep n (k + 1) _ _ _ _ (hstep k _ _ ht) (Nat.add_le_add hacc ht)

theorem le_series : ∀ n k t acc, acc ≤ series next n k t acc
  | 0, _, _, acc => le_refl acc
  | n + 1, k, t, acc => (Nat.le_add_right acc t).trans (le_series n (k + 1) _ _)

/-- A sum of at least one term is at least that term. -/
theorem le_series_first (next : Nat → Nat → Nat) (n k t acc : Nat) : acc + t ≤ series next (n + 1) k t acc := le_series n (k + 1) _ _

end

theorem fixExp_mono {y y' : Nat} (h : y ≤ y') : fixExp y ≤ fixExp y' :=
  series_mono (next := fun k t => t * y / (fixOne * (k + 1))) (next' := fun k t => t * y' / (fixOne * (k + 1)))
    (fun _ _ _ ht => Nat.div_le_div_right (Nat.mul_le_mul ht h)) 160 0 _ _ _ _ le_rfl le_rfl

/-- The first term. -/
theorem fixOne_le_fixExp (y : Nat) : fixOne ≤ fixExp y := by
  have h := le_series_first (fun k t => t * y / (fixOne * (k + 1))) 159 0 fixOne 0
  rwa [zero_add] at h

/-- One term of the series of artanh added. -/
def atanhStep (z : Nat) (p : Nat × Nat) (k : Nat) : Nat × Nat := (p.1 + p.2 / (2 * k + 1), p.2 * z / fixOne * z / fixOne)

theorem fixAtanh_eq (z : Nat) : fixAtanh z = ((List.range 80).foldl (atanhStep z) (0, z)).1 := rfl

theorem foldl_atanhStep_mono {z z' : Nat} (hz : z ≤ z') : ∀ (l : List Nat) (p p' : Nat × Nat), p.1 ≤ p'.1 → p.2 ≤ p'.2 →
    (l.foldl (atanhStep z) p).1 ≤ (l.foldl (atanhStep z') p').1
  | [], _, _, h1, _ => h1
  | _ :: l, _, _, h1, h2 => foldl_atanhStep_mono hz l _ _ (Nat.add_le_add h1 (Nat.div_le_div_right h2))
      (Nat.div_le_div_right (Nat.mul_le_mul (Nat.div_le_div_right (Nat.mul_le_mul h2 hz)) hz))

theorem le_foldl_atanhStep (z : Nat) : ∀ (l : List Nat) (p : Nat × Nat), p.1 ≤ (l.foldl (atanhStep z) p).1
  | [], p => le_refl p.1
  | k :: l, p => (Nat.le_add_right p.1 _).trans (le_foldl_atanhStep z l (atanhStep z p k))

theorem fixAtanh_mono {z z' : Nat} (h : z ≤ z') : fixAtanh z ≤ fixAtanh z' := foldl_atanhStep_mono h _ _ _ le_rfl h

theorem le_fixAtanh (z : Nat) : z ≤ fixAtanh z := by
  have hrange : List.range 80 = 0 :: (List.range 79).map Nat.succ := List.range_succ_eq_map
  have hfirst : (atanhStep z (0, z) 0).1 = z := by simp [atanhStep]
  rw [fixAtanh_eq, hrange, List.foldl_cons]
  exact hfirst.symm.le.trans (le_foldl_atanhStep z _ _)

theorem fixLn2_lt : fixLn2 < fixOne := by decide +kernel

theorem fixLn2_pos : 0 < fixLn2 := by decide +kernel

/-- 2^x for the greatest fraction x of an FP32 number lies below 2. -/
theorem fixExp_lt_two : fixExp ((fixOne - 2 ^ 75) * fixLn2 / fixOne) < 2 * fixOne := by decide +kernel

/-! ## A value that is never exact -/

/-- The midpoint of a truncated value and the next one, as a magnitude. -/
theorem ratio_withRest_inexact (n : Nat) (q : Int) : ratio false (2 * n + 1) (q - 1) = (n + 1 / 2 : ℚ) * 2 ^ q := by
  rw [ratio_false, zpow_sub_one₀ two_ne_zero]
  push_cast
  ring

/-- Truncated quotients compare by cross products. -/
theorem div_le_div_cross {a b c d : Nat} (hb : 0 < b) (hd : 0 < d) (h : a * d ≤ c * b) : a / b ≤ c / d := by
  refine (Nat.le_div_iff_mul_le hd).2 (Nat.le_of_mul_le_mul_right ?_ hb)
  calc a / b * d * b = a / b * b * d := by ring
    _ ≤ a * d := Nat.mul_le_mul_right d (Nat.div_mul_le_self a b)
    _ ≤ c * b := h

/-- (n − s) ÷ (n + s), in units of 1 ÷ F, rises with n. -/
theorem sub_mul_div_add_mono (F : Nat) {s n n' : Nat} (hs : 0 < s) (hn : s ≤ n) (h : n ≤ n') :
    (n - s) * F / (n + s) ≤ (n' - s) * F / (n' + s) := by
  refine div_le_div_cross (Nat.add_pos_right n hs) (Nat.add_pos_right n' hs) ?_
  obtain ⟨d, rfl⟩ := Nat.exists_eq_add_of_le hn
  obtain ⟨d', rfl⟩ := Nat.exists_eq_add_of_le (hn.trans h)
  rw [Nat.add_sub_cancel_left, Nat.add_sub_cancel_left]
  calc d * F * (s + d' + s) = d * F * d' + d * (F * (2 * s)) := by ring
    _ ≤ d * F * d' + d' * (F * (2 * s)) := Nat.add_le_add_left (Nat.mul_le_mul_right _ (Nat.le_of_add_le_add_left h)) _
    _ = d' * F * (s + d + s) := by ring

/-! ## tanh -/

/-- tanh of y, a magnitude in fixed point. -/
def fixTanh (y : Nat) : Nat := (fixExp (2 * y) - fixOne) * fixOne / (fixExp (2 * y) + fixOne)

theorem fixTanh_lt (y : Nat) : fixTanh y < fixOne := by
  have := fixOne_pos
  refine Nat.div_lt_of_lt_mul ?_
  exact Nat.mul_lt_mul_of_pos_right (by omega) fixOne_pos

theorem fixTanh_mono {y y' : Nat} (h : y ≤ y') : fixTanh y ≤ fixTanh y' :=
  sub_mul_div_add_mono fixOne fixOne_pos (fixOne_le_fixExp (2 * y)) (fixExp_mono (Nat.mul_le_mul_left 2 h))

theorem ratio_fixTanh (y : Nat) : ratio false (2 * fixTanh y + 1) (-224 - 1) = (fixTanh y + 1 / 2) / fixOne := by
  rw [ratio_withRest_inexact, fixOne_cast, zpow_neg, ← div_eq_mul_inv]

theorem flags_inexact_small (small : Bool) : flagNX ||| flagIf small flagUF = if small = true then 0b11000 else 0b10000 := by
  cases small <;> rfl

/-- What `Val.tanh` gives of a nonzero number, by its magnitude. -/
theorem tanh_eq (a : Bool) {m : Nat} (e : Int) (hm : m ≠ 0) : Val.tanh (.fin a m e) =
    let x := ratio false m e
    if 9 ≤ x then (.fin a 1 0, 0b10000)
    else if x < 2 ^ (-12 : Int) then (.fin a m e, if x < 2 ^ (-126 : Int) then 0b11000 else 0b10000)
    else (.fin a (2 * fixTanh (toFix false m e).toNat + 1) (-224 - 1), 0) := by
  have hF : (0 : ℚ) < fixOne := Nat.cast_pos.2 fixOne_pos
  have h9 : 9 * (fixOne : Int) ≤ toFix false m e ↔ 9 ≤ ratio false m e := by
    rw [toFix_floor, Int.le_floor]; push_cast; exact mul_le_mul_iff_left₀ hF
  have h12 : toFix false m e < 2 ^ 212 ↔ ratio false m e < 2 ^ (-12 : Int) := by
    have hcut : (((2 : Int) ^ 212 : Int) : ℚ) = 2 ^ (-12 : Int) * fixOne := by
      rw [fixOne_cast, ← zpow_add₀ two_ne_zero]; push_cast; norm_cast
    rw [toFix_floor, Int.floor_lt, hcut, mul_lt_mul_iff_left₀ hF]
  have hlead : (Nat.log2 m : Int) + e < -126 ↔ ratio false m e < 2 ^ (-126 : Int) := by
    rw [ratio_false]; exact lead_lt_iff e _ hm
  have hflags : flagNX ||| flagIf (decide ((Nat.log2 m : Int) + e < -126)) flagUF =
      if ratio false m e < 2 ^ (-126 : Int) then 0b11000 else 0b10000 := by
    rw [flags_inexact_small]
    simp only [decide_eq_true_eq, hlead]
  rw [Val.tanh, if_neg hm, hflags]
  simp only [h9, h12]
  rfl

theorem tanh_spec {m : Nat} (e : Int) (hm : m ≠ 0) : let x := ratio false m e
    (9 ≤ x → ∀ a, Val.tanh (.fin a m e) = (.fin a 1 0, 0b10000)) ∧
    (x < ratio false 1 (-12) → ∀ a, Val.tanh (.fin a m e) = (.fin a m e, if x < ratio false 1 (-126) then 0b11000 else 0b10000)) ∧
    (ratio false 1 (-12) ≤ x → x < 9 → ∃ k q, (∀ a, Val.tanh (.fin a m e) = (.fin a k q, 0)) ∧ 0 < ratio false k q ∧ ratio false k q < 1 ∧
      ∀ n f k' q', x ≤ ratio false n f → ratio false n f < 9 → Val.tanh (.fin false n f) = (.fin false k' q', 0) →
        ratio false k q ≤ ratio false k' q') := by
  intro x
  have hF : (0 : ℚ) < fixOne := Nat.cast_pos.2 fixOne_pos
  have hone : ∀ q : Int, ratio false 1 q = 2 ^ q := fun q => by rw [ratio_false, Nat.cast_one, one_mul]
  have hcut : (2 : ℚ) ^ (-12 : Int) < 9 := by norm_num
  rw [hone, hone]
  refine ⟨fun h a => ?_, fun h a => ?_, fun hlo hhi => ⟨2 * fixTanh (toFix false m e).toNat + 1, -224 - 1, fun a => ?_, ?_, ?_, ?_⟩⟩
  · rw [tanh_eq a e hm]; exact if_pos h
  · rw [tanh_eq a e hm]; exact (if_neg (h.trans hcut).not_ge).trans (if_pos h)
  · rw [tanh_eq a e hm]; exact (if_neg hhi.not_ge).trans (if_neg hlo.not_gt)
  · rw [ratio_fixTanh]; positivity
  · rw [ratio_fixTanh, div_lt_one hF]
    have : (fixTanh (toFix false m e).toNat + 1 : ℚ) ≤ fixOne := by exact_mod_cast fixTanh_lt _
    linarith
  · intro n f k' q' hle hlt htanh
    have hn : n ≠ 0 := by
      rintro rfl
      have hpos : (0 : ℚ) < x := (two_zpow_pos _).trans_le hlo
      rw [ratio_false 0 f] at hle
      simp only [Nat.cast_zero, zero_mul] at hle
      exact absurd hle hpos.not_ge
    rw [tanh_eq false f hn, if_neg hlt.not_ge, if_neg (hlo.trans hle).not_gt] at htanh
    obtain ⟨rfl, rfl⟩ : 2 * fixTanh (toFix false n f).toNat + 1 = k' ∧ -224 - 1 = q' := by
      simpa only [Prod.mk.injEq, Val.fin.injEq, true_and, and_true] using htanh
    rw [ratio_fixTanh, ratio_fixTanh]
    have hfix : toFix false m e ≤ toFix false n f := by
      rw [toFix_floor, toFix_floor]
      exact Int.floor_le_floor (mul_le_mul_of_nonneg_right hle hF.le)
    have hmono : (fixTanh (toFix false m e).toNat : ℚ) ≤ fixTanh (toFix false n f).toNat := by
      exact_mod_cast fixTanh_mono (Int.toNat_le_toNat hfix)
    gcongr

/-! ## Exponential -/

/-- The fraction of a number in fixed point. -/
def fixFraction (a : Bool) (m : Nat) (e : Int) : Nat := (toFix a m e % (fixOne : Int)).toNat

section
variable (a : Bool) {m : Nat} {e : Int} (he : -149 ≤ e)
include he

theorem toFix_ediv : toFix a m e / (fixOne : Int) = ⌊ratio a m e⌋ := by
  have hF : (0 : ℚ) < fixOne := Nat.cast_pos.2 fixOne_pos
  rw [← Rat.floor_intCast_div_natCast, toFix_exact a m (by omega), mul_div_cancel_right₀ _ hF.ne']

theorem fixFraction_cast : (fixFraction a m e : ℚ) = (ratio a m e - ⌊ratio a m e⌋) * fixOne := by
  have hmod : (fixFraction a m e : Int) = toFix a m e - fixOne * ⌊ratio a m e⌋ := by
    have hpos : (fixOne : Int) ≠ 0 := by exact_mod_cast fixOne_pos.ne'
    rw [fixFraction, Int.toNat_of_nonneg (Int.emod_nonneg _ hpos), Int.emod_def, toFix_ediv a he]
  have hcast : (fixFraction a m e : ℚ) = ((fixFraction a m e : Int) : ℚ) := rfl
  rw [hcast, hmod]
  push_cast
  rw [toFix_exact a m (by omega)]
  ring

theorem fixFraction_eq_zero : fixFraction a m e = 0 ↔ (⌊ratio a m e⌋ : ℚ) = ratio a m e := by
  have hF : (fixOne : ℚ) ≠ 0 := Nat.cast_ne_zero.2 fixOne_pos.ne'
  rw [← Nat.cast_eq_zero (R := ℚ), fixFraction_cast a he, mul_eq_zero_iff_right hF, sub_eq_zero, eq_comm]

/-- A number of the formats has no bit below 2^−149. -/
theorem fixFraction_le : fixFraction a m e ≤ fixOne - 2 ^ 75 := by
  have hdvd : (2 ^ 75 : Int) ∣ toFix a m e := by
    have hpow : (2 ^ 75 : Int) ∣ ((m * 2 ^ (e - -224).toNat : Nat) : Int) := by
      exact_mod_cast Dvd.dvd.mul_left (pow_dvd_pow 2 (by omega)) m
    rw [toFix_units a m (by omega), unitsOf]
    split_ifs
    · exact (Int.dvd_neg).2 hpow
    · exact hpow
  have hone : (fixOne : Int) = 2 ^ 75 * 2 ^ 149 := by norm_num [fixOne]
  have hlt := Int.emod_lt_of_pos (toFix a m e) (by exact_mod_cast fixOne_pos : (0 : Int) < fixOne)
  have hnonneg := Int.emod_nonneg (toFix a m e) (by exact_mod_cast fixOne_pos.ne' : (fixOne : Int) ≠ 0)
  obtain ⟨c, hc⟩ : (2 ^ 75 : Int) ∣ toFix a m e % fixOne := by
    rw [Int.emod_def]
    exact dvd_sub hdvd (Dvd.dvd.mul_right (hone ▸ dvd_mul_right _ _) _)
  rw [fixFraction]
  rw [hc] at hlt hnonneg ⊢
  omega

/-- 2^x of the fraction of a number, in fixed point. -/
def fixExpFraction (a : Bool) (m : Nat) (e : Int) : Nat := fixExp (fixFraction a m e * fixLn2 / fixOne)

/-- What `Val.exp2` gives of a nonzero number. -/
theorem exp2_eq (hm : m ≠ 0) : Val.exp2 (.fin a m e) =
    let x := ratio a m e
    if 128 ≤ x then (.inf false, 0b10100) else if x ≤ -150 then (.fin false 0 0, 0b11000)
    else if (⌊x⌋ : ℚ) = x then (.fin false 1 ⌊x⌋, 0)
    else (.fin false (2 * fixExpFraction a m e + 1) (⌊x⌋ - 224 - 1), 0) := by
  have hF : (0 : ℚ) < fixOne := Nat.cast_pos.2 fixOne_pos
  have hhigh : 128 ≤ ⌊ratio a m e⌋ ↔ 128 ≤ ratio a m e := by rw [Int.le_floor]; norm_cast
  have hlow : toFix a m e ≤ -150 * (fixOne : Int) ↔ ratio a m e ≤ -150 := by
    rw [← Int.cast_le (R := ℚ), toFix_exact a m (by omega)]
    push_cast
    exact mul_le_mul_iff_left₀ hF
  rw [Val.exp2, if_neg hm]
  simp only [toFix_ediv a he, hhigh, hlow, ← fixFraction_eq_zero a he]
  rfl

omit he in
theorem ratio_fixExp2 (q : Int) (n : Nat) : ratio false (2 * n + 1) (q - 224 - 1) = (n + 1 / 2) / fixOne * 2 ^ q := by
  rw [ratio_withRest_inexact, sub_eq_add_neg q, zpow_add₀ two_ne_zero, zpow_neg, ← fixOne_cast]
  ring

/-- 2^x of a fraction lies between 1 and 2. -/
theorem exp2_bounds (q : Int) : 2 ^ q < ratio false (2 * fixExpFraction a m e + 1) (q - 224 - 1) ∧
    ratio false (2 * fixExpFraction a m e + 1) (q - 224 - 1) < 2 ^ (q + 1) := by
  have hF : (0 : ℚ) < fixOne := Nat.cast_pos.2 fixOne_pos
  have hlo : (fixOne : ℚ) ≤ fixExpFraction a m e := Nat.cast_le.2 (fixOne_le_fixExp _)
  have hlt : fixExpFraction a m e < 2 * fixOne :=
    (fixExp_mono (Nat.div_le_div_right (Nat.mul_le_mul_right _ (fixFraction_le a he)))).trans_lt fixExp_lt_two
  have hhi : (fixExpFraction a m e + 1 : ℚ) ≤ 2 * fixOne := by exact_mod_cast hlt
  rw [ratio_fixExp2, zpow_add_one₀ two_ne_zero, mul_comm ((2 : ℚ) ^ q) 2]
  constructor
  · refine lt_mul_of_one_lt_left (two_zpow_pos _) ?_
    rw [one_lt_div hF]
    linarith
  · refine mul_lt_mul_of_pos_right ?_ (two_zpow_pos _)
    rw [div_lt_iff₀ hF]
    linarith

/-- The result of a number that gives one and raises nothing: a power of two of an integer, and of another number one above the power
of its floor. -/
theorem exp2_fin_cases (hm : m ≠ 0) (hlo : -150 < ratio a m e) {k : Nat} {q : Int} (h : Val.exp2 (.fin a m e) = (.fin false k q, 0)) :
    ((⌊ratio a m e⌋ : ℚ) = ratio a m e ∧ k = 1 ∧ q = ⌊ratio a m e⌋) ∨
    ((⌊ratio a m e⌋ : ℚ) ≠ ratio a m e ∧ k = 2 * fixExpFraction a m e + 1 ∧ q = ⌊ratio a m e⌋ - 224 - 1) := by
  rw [exp2_eq a he hm] at h
  dsimp only at h
  rw [if_neg hlo.not_ge] at h
  by_cases hbig : 128 ≤ ratio a m e
  · rw [if_pos hbig] at h
    exact absurd (congrArg Prod.snd h) (by decide : (0b10100 : BitVec 5) ≠ 0)
  · rw [if_neg hbig] at h
    split_ifs at h with hint
    · rw [Prod.mk.injEq, Val.fin.injEq] at h
      exact .inl ⟨hint, h.1.2.1.symm, h.1.2.2.symm⟩
    · rw [Prod.mk.injEq, Val.fin.injEq] at h
      exact .inr ⟨hint, h.1.2.1.symm, h.1.2.2.symm⟩

end

/-- The results rise with the number. -/
theorem exp2_mono {a b : Bool} {m n : Nat} {e f : Int} (he : -149 ≤ e) (hf : -149 ≤ f) (hn : n ≠ 0)
    (hfrac : (⌊ratio a m e⌋ : ℚ) ≠ ratio a m e) (hlo : -150 < ratio a m e) (hle : ratio a m e ≤ ratio b n f) {k : Nat} {q : Int}
    (hexp : Val.exp2 (.fin b n f) = (.fin false k q, 0)) :
    ratio false (2 * fixExpFraction a m e + 1) (⌊ratio a m e⌋ - 224 - 1) ≤ ratio false k q := by
  have hF : (0 : ℚ) < fixOne := Nat.cast_pos.2 fixOne_pos
  have hup := (exp2_bounds a he (m := m) ⌊ratio a m e⌋).2.le
  rcases exp2_fin_cases b hf hn (hlo.trans_le hle) hexp with ⟨hint, rfl, rfl⟩ | ⟨-, rfl, rfl⟩
  · -- an integer above a number that is none lies above its ceiling
    have hnext : ⌊ratio a m e⌋ < ⌊ratio b n f⌋ := by
      have hx : (⌊ratio a m e⌋ : ℚ) < ratio a m e := (Int.floor_le _).lt_of_ne hfrac
      have hxy : (⌊ratio a m e⌋ : ℚ) < ⌊ratio b n f⌋ := by rw [hint]; exact hx.trans_le hle
      exact_mod_cast hxy
    refine hup.trans ?_
    rw [ratio_false 1, Nat.cast_one, one_mul]
    exact zpow_le_zpow_right₀ one_le_two hnext
  · rcases (Int.floor_le_floor hle).lt_or_eq with hlt | heq
    · exact (hup.trans (zpow_le_zpow_right₀ one_le_two hlt)).trans (exp2_bounds b hf (m := n) _).1.le
    · have hr : fixFraction a m e ≤ fixFraction b n f := by
        have : (fixFraction a m e : ℚ) ≤ fixFraction b n f := by
          rw [fixFraction_cast a he, fixFraction_cast b hf, ← heq]
          exact mul_le_mul_of_nonneg_right (by linarith) hF.le
        exact_mod_cast this
      have hmono : (fixExpFraction a m e : ℚ) ≤ fixExpFraction b n f :=
        Nat.cast_le.2 (fixExp_mono (Nat.div_le_div_right (Nat.mul_le_mul_right _ hr)))
      rw [ratio_fixExp2, ratio_fixExp2, heq]
      gcongr

theorem exp2_spec (a : Bool) {m : Nat} {e : Int} (hm : m ≠ 0) (he : -149 ≤ e) : let x := ratio a m e
    (128 ≤ x → Val.exp2 (.fin a m e) = (.inf false, 0b10100)) ∧
    (x ≤ -150 → Val.exp2 (.fin a m e) = (.fin false 0 0, 0b11000)) ∧
    (∀ n : Int, x = n → -150 < n → n < 128 → Val.exp2 (.fin a m e) = (.fin false 1 n, 0)) ∧
    ((⌊x⌋ : Rat) ≠ x → -150 < x → x < 128 → ∃ k q, Val.exp2 (.fin a m e) = (.fin false k q, 0) ∧
      ratio false 1 ⌊x⌋ < ratio false k q ∧ ratio false k q < ratio false 1 (⌊x⌋ + 1) ∧
      ∀ b n f k' q', n ≠ 0 → -149 ≤ f → x ≤ ratio b n f → Val.exp2 (.fin b n f) = (.fin false k' q', 0) →
        ratio false k q ≤ ratio false k' q') := by
  intro x
  have hone : ∀ q : Int, ratio false 1 q = 2 ^ q := fun q => by rw [ratio_false, Nat.cast_one, one_mul]
  have hexp := exp2_eq a he hm
  refine ⟨fun h => hexp.trans (if_pos h), fun h => ?_, fun n hn hlo hhi => ?_, fun hfrac hlo hhi => ?_⟩
  · exact hexp.trans ((if_neg (not_le.2 (h.trans_lt (by norm_num)))).trans (if_pos h))
  · have hfl : ⌊x⌋ = n := by rw [hn, Int.floor_intCast]
    have hlo' : ¬ x ≤ -150 := by rw [hn, not_le]; exact_mod_cast hlo
    have hhi' : ¬ 128 ≤ x := by rw [hn, not_le]; exact_mod_cast hhi
    exact hexp.trans ((if_neg hhi').trans ((if_neg hlo').trans ((if_pos (show (⌊x⌋ : ℚ) = x by rw [hfl, hn])).trans (by rw [hfl]))))
  · obtain ⟨hbelow, habove⟩ := exp2_bounds a he (m := m) ⌊x⌋
    rw [hone, hone]
    exact ⟨_, _, hexp.trans ((if_neg hhi.not_ge).trans ((if_neg hlo.not_ge).trans (if_neg hfrac))), hbelow, habove,
      fun b n f k' q' hn hf hle => exp2_mono he hf hn hfrac hlo hle⟩

/-! ## Logarithm -/

/-- log2 of 2^n m / 2^k, in fixed point, less n. -/
def fixLog2 (k m : Nat) : Nat := 2 * fixAtanh ((m - 2 ^ k) * fixOne / (m + 2 ^ k)) * fixOne / fixLn2

theorem fixLog2_mono {k m m' : Nat} (hk : 2 ^ k ≤ m) (h : m ≤ m') : fixLog2 k m ≤ fixLog2 k m' :=
  Nat.div_le_div_right (Nat.mul_le_mul_right _ (Nat.mul_le_mul_left _
    (fixAtanh_mono (sub_mul_div_add_mono fixOne (Nat.two_pow_pos k) hk h))))

theorem fixLog2_le {k m : Nat} (hlo : 2 ^ k ≤ m) (hhi : m < 2 ^ (k + 1)) : fixLog2 k m ≤ fixOne := by
  have hz : (m - 2 ^ k) * fixOne / (m + 2 ^ k) ≤ fixOne / 3 := by
    refine (sub_mul_div_add_mono fixOne (Nat.two_pow_pos k) hlo hhi.le).trans_eq ?_
    rw [pow_succ, mul_two, Nat.add_sub_cancel, ← mul_two, ← Nat.mul_succ, Nat.mul_div_mul_left _ _ (Nat.two_pow_pos k)]
  calc fixLog2 k m ≤ 2 * fixAtanh (fixOne / 3) * fixOne / fixLn2 :=
        Nat.div_le_div_right (Nat.mul_le_mul_right _ (Nat.mul_le_mul_left _ (fixAtanh_mono hz)))
    _ = fixOne := Nat.mul_div_cancel_left fixOne fixLn2_pos

/-- A number of at most 24 bits that is no power of two has a logarithm that is no integer. -/
theorem fixLog2_pos {k m : Nat} (hlo : 2 ^ k < m) (hm : m < 2 ^ 24) : 0 < fixLog2 k m := by
  have hz : 1 ≤ (m - 2 ^ k) * fixOne / (m + 2 ^ k) := by
    refine (Nat.le_div_iff_mul_le (Nat.add_pos_right m (Nat.two_pow_pos k))).2 ?_
    calc 1 * (m + 2 ^ k) ≤ 2 ^ 24 + 2 ^ 24 := (one_mul _).trans_le (Nat.add_le_add hm.le (hlo.trans hm).le)
      _ ≤ fixOne := by decide
      _ ≤ (m - 2 ^ k) * fixOne := Nat.le_mul_of_pos_left fixOne (Nat.sub_pos_of_lt hlo)
  refine Nat.div_pos (fixLn2_lt.le.trans (Nat.le_mul_of_pos_left fixOne ?_)) fixLn2_pos
  exact Nat.mul_pos two_pos (hz.trans (le_fixAtanh _))

theorem log2_eq {m : Nat} (e : Int) (hm : m ≠ 0) : Val.log2 (.fin false m e) =
    let k := Nat.log2 m
    let n : Int := e + (k : Nat)
    if m = 2 ^ k then (.fin (decide (n < 0)) n.natAbs 0, 0)
    else
      let t := n * (fixOne : Int) + (fixLog2 k m : Nat)
      (.fin (decide (t < 0)) (2 * t.natAbs + 1) (-224 - 1), 0) := by
  rw [Val.log2, if_neg hm, if_neg Bool.false_ne_true]
  rfl

/-- A signed value with the bit that says it is not exact: half a unit further from zero. -/
def pastInt (t : Int) : ℚ := if t < 0 then t - 1 / 2 else t + 1 / 2

theorem ratio_pastInt (t q : Int) : ratio (decide (t < 0)) (2 * t.natAbs + 1) (q - 1) = pastInt t * 2 ^ q := by
  have h := ratio_withRest_inexact t.natAbs q
  rcases lt_or_ge t 0 with ht | ht
  · rw [decide_eq_true ht, ← Bool.not_false, ratio_not, h, pastInt, if_pos ht, Nat.cast_natAbs, abs_of_neg ht]; push_cast; ring
  · rw [decide_eq_false ht.not_gt, h, pastInt, if_neg ht.not_gt, Nat.cast_natAbs, abs_of_nonneg ht]

theorem pastInt_mono : Monotone pastInt := by
  intro s t h
  have hc : (s : ℚ) ≤ t := Int.cast_le.2 h
  unfold pastInt
  split_ifs with hs ht ht
  · linarith
  · linarith
  · omega
  · linarith

theorem pastInt_bounds (t : Int) : (t : ℚ) - 1 / 2 ≤ pastInt t ∧ pastInt t ≤ t + 1 / 2 := by
  unfold pastInt
  split_ifs <;> constructor <;> linarith

theorem log2_spec {m : Nat} (e : Int) (h0 : 0 < m) (hm : m < 2 ^ 24) : let k := Nat.log2 m
    (m = 2 ^ k → ∃ c n, Val.log2 (.fin false m e) = (.fin c n 0, 0) ∧ ratio c n 0 = e + k) ∧
    (m ≠ 2 ^ k → ∃ c n q, Val.log2 (.fin false m e) = (.fin c n q, 0) ∧
      (e + k : Rat) < ratio c n q ∧ ratio c n q ≤ (e + k : Rat) + 1 + ratio false 1 (-200) ∧
      ∀ m' c' n' q', m ≤ m' → m' < 2 ^ (k + 1) → Val.log2 (.fin false m' e) = (.fin c' n' q', 0) →
        ratio c n q ≤ ratio c' n' q') := by
  intro k
  have hF : (0 : ℚ) < fixOne := Nat.cast_pos.2 fixOne_pos
  have hlo : 2 ^ k ≤ m := Nat.log2_self_le h0.ne'
  have hhi : m < 2 ^ (k + 1) := Nat.lt_log2_self
  have hvalue : ∀ t : Int, ratio (decide (t < 0)) (2 * t.natAbs + 1) (-224 - 1) = pastInt t / fixOne := fun t => by
    rw [ratio_pastInt, fixOne_cast, zpow_neg, div_eq_mul_inv]
  constructor
  · intro hpow
    refine ⟨_, _, (log2_eq e h0.ne').trans (if_pos hpow), ?_⟩
    rw [ratio_natAbs, zpow_zero, mul_one]
    push_cast
    rfl
  · intro hpow
    have hlt : 2 ^ k < m := hlo.lt_of_ne (Ne.symm hpow)
    have hpos : (1 : ℚ) ≤ fixLog2 k m := by exact_mod_cast fixLog2_pos hlt hm
    have hle : (fixLog2 k m : ℚ) ≤ fixOne := by exact_mod_cast fixLog2_le hlo hhi
    obtain ⟨hpast, hpast'⟩ := pastInt_bounds ((e + (k : Nat)) * (fixOne : Int) + (fixLog2 k m : Nat))
    push_cast at hpast hpast'
    refine ⟨_, _, _, (log2_eq e h0.ne').trans (if_neg hpow), ?_, ?_, ?_⟩
    · rw [hvalue, lt_div_iff₀ hF]
      linarith
    · have hulp : ratio false 1 (-200) * fixOne = 2 ^ (24 : Int) := by
        rw [ratio_false, Nat.cast_one, one_mul, fixOne_cast, ← zpow_add₀ two_ne_zero]; norm_num
      have hhalf : (1 : ℚ) / 2 ≤ ratio false 1 (-200) * fixOne := by rw [hulp]; norm_num
      rw [hvalue, div_le_iff₀ hF]
      refine hpast'.trans ?_
      linarith
    · intro m' c' n' q' hmm' hlt' hlog
      have hm' : m' ≠ 0 := (h0.trans_le hmm').ne'
      have hlt2 : 2 ^ k < m' := hlt.trans_le hmm'
      have hk' : Nat.log2 m' = k := (Nat.log2_eq_iff hm').2 ⟨hlt2.le, hlt'⟩
      rw [log2_eq e hm', hk'] at hlog
      dsimp only at hlog
      rw [if_neg hlt2.ne', Prod.mk.injEq, Val.fin.injEq] at hlog
      obtain ⟨⟨rfl, rfl, rfl⟩, -⟩ := hlog
      rw [hvalue, hvalue]
      refine div_le_div_of_nonneg_right (pastInt_mono ?_) hF.le
      exact Int.add_le_add_left (Int.ofNat_le.2 (fixLog2_mono hlo hmm')) _

/-! ## The obligation -/

/-- Settles O6: sums and products in units of the lesser exponent; the reciprocal and the roots by their last bit; the functions in
fixed point by what each stage of them keeps: the order, and the bounds of its value. -/
theorem floatValuesExact : Obligations.FloatValuesExact := by
  refine ⟨add_exact, fun a m e b n f => ⟨_, _, _, rfl, mul_exact a m e b n f, rfl⟩, fun a m e => ⟨!a, rfl, ratio_not a m e⟩,
    fun m e h0 hm => ⟨fun a => recip_standsFor e h0 hm a, sqrt_standsFor e h0 hm, rsqrt_standsFor e h0 hm⟩,
    fun a e => ⟨rfl, rfl, rfl, rfl, rfl, rfl⟩, fun a => ⟨rfl, by cases a <;> rfl, rfl⟩, rfl, rfl, rfl, fun f hf => ?negative, fun f hf q => ?nan,
    fun a m e hm he => exp2_spec a hm he, fun m e h0 hm => log2_spec e h0 hm, fun m e hm => tanh_spec e hm⟩
  case negative =>
    simp only [List.mem_cons, List.not_mem_nil, or_false] at hf
    rcases hf with rfl | rfl | rfl
    · exact ⟨rfl, fun m e hm => if_neg hm⟩
    · exact ⟨rfl, fun m e hm => if_neg hm⟩
    · exact ⟨rfl, fun m e hm => if_neg hm⟩
  case nan =>
    simp only [List.mem_cons, List.not_mem_nil, or_false] at hf
    rcases hf with rfl | rfl | rfl | rfl | rfl | rfl <;> rfl

end Sys2Proof.Machine
end

section
/-! Packing to LX8 (R101, R102): the codes around a number, and the choice between them. -/

namespace Sys2Proof.Machine
open Sys2Proof.Safety

/-! ## The best of a list -/

section
variable {P : Nat → Prop} [DecidablePred P] {R : Nat → Nat → Prop} [DecidableRel R]

/-- A fold that takes a code when it is allowed and better: none that is allowed is better than what it ends with. -/
theorem foldl_best (u : Nat → Nat) (hirrefl : ∀ v, ¬ R v v) (hstep : ∀ a b v, ¬ R a v → R a b → ¬ R b v) : ∀ (l : List Nat) (b : Nat × Nat),
    let r := l.foldl (fun b c => if P c ∧ R b.2 (u c) then (c, u c) else b) b
    (r = b ∨ ∃ c ∈ l, P c ∧ r = (c, u c)) ∧ (∀ v, ¬ R b.2 v → ¬ R r.2 v) ∧ ∀ c ∈ l, P c → ¬ R r.2 (u c)
  | [], b => ⟨.inl rfl, fun _ h => h, fun _ h => nomatch h⟩
  | c :: l, b => by
    have ih := foldl_best u hirrefl hstep l (if P c ∧ R b.2 (u c) then (c, u c) else b)
    by_cases h : P c ∧ R b.2 (u c)
    · simp only [List.foldl_cons, if_pos h] at ih ⊢
      obtain ⟨hfrom, hkeep, hbest⟩ := ih
      refine ⟨.inr ?_, fun v hv => hkeep v (hstep _ _ v hv h.2), ?_⟩
      · rcases hfrom with heq | ⟨d, hd, hP, heq⟩
        · exact ⟨c, List.mem_cons_self, h.1, heq⟩
        · exact ⟨d, List.mem_cons_of_mem c hd, hP, heq⟩
      · exact List.forall_mem_cons.2 ⟨fun _ => hkeep _ (hirrefl _), hbest⟩
    · simp only [List.foldl_cons, if_neg h] at ih ⊢
      obtain ⟨hfrom, hkeep, hbest⟩ := ih
      refine ⟨hfrom.imp_right fun ⟨d, hd, hP, heq⟩ => ⟨d, List.mem_cons_of_mem c hd, hP, heq⟩, hkeep, ?_⟩
      exact List.forall_mem_cons.2 ⟨fun hP => hkeep _ fun hR => h ⟨hP, hR⟩, hbest⟩

end

/-! ## The codes' units -/

/-- A value is the number (−1)^a × u × 2^q. -/
def holdsUnits (a : Bool) (u : Nat) (q : Int) : Val → Bool
  | .fin b m e => decide (b = a ∧ q ≤ e ∧ m * 2 ^ (e - q).toNat = u)
  | .nan _ | .inf _ => false

theorem exists_of_holdsUnits {a : Bool} {u : Nat} {q : Int} {v : Val} (h : holdsUnits a u q v = true) :
    ∃ m e, v = .fin a m e ∧ ratio false m e = u * 2 ^ q := by
  rcases v with _ | _ | ⟨b, m, e⟩
  · cases h
  · cases h
  · obtain ⟨rfl, hq, hu⟩ := of_decide_eq_true h
    exact ⟨m, e, rfl, by rw [ratio_false, scaled_units m hq, hu]⟩

theorem lx8Read_holds : ∀ c < 128, holdsUnits false (lx8Units c) (-15) (lx8Read c) = true := by decide +kernel

theorem lx8Units_le : ∀ c < 128, lx8Units c ≤ 2 ^ 28 := by decide +kernel

theorem lx8Units_nodup : ((List.range 128).map lx8Units).Nodup := by decide +kernel

theorem lx8Units_injective {c d : Nat} (hc : c < 128) (hd : d < 128) (h : lx8Units c = lx8Units d) : c = d :=
  List.inj_on_of_nodup_map lx8Units_nodup (List.mem_range.2 hc) (List.mem_range.2 hd) h

theorem lx8Magnitude_eq {c : Nat} (h : c < 128) : lx8Magnitude c = lx8Units c * 2 ^ (-15 : Int) := by
  obtain ⟨m, e, hread, hval⟩ := exists_of_holdsUnits (lx8Read_holds c h)
  rw [lx8Magnitude, hread, ← hval]

/-! ## The codes around a magnitude -/

/-- The code below: none lies between it and the number. -/
theorem lx8Below_spec (x s : Nat) : ∃ c < 128, lx8Below x s = (c, lx8Units c) ∧ lx8Units c * 2 ^ s ≤ x ∧
    ∀ d < 128, lx8Units d * 2 ^ s ≤ x → lx8Units d ≤ lx8Units c := by
  obtain ⟨hfrom, -, hbest⟩ := foldl_best (P := fun c => lx8Units c * 2 ^ s ≤ x) (R := fun b v => b < v) lx8Units (fun _ => lt_irrefl _)
    (fun a b v h hab => by omega) (List.range 128) (0, 0)
  change (lx8Below x s = _ ∨ ∃ c ∈ _, _ ∧ lx8Below x s = _) at hfrom
  change ∀ c ∈ _, _ → ¬ (lx8Below x s).2 < _ at hbest
  have hc : ∃ c < 128, lx8Below x s = (c, lx8Units c) ∧ lx8Units c * 2 ^ s ≤ x := by
    rcases hfrom with h | ⟨c, hc, hP, h⟩
    · exact ⟨0, by norm_num, h, by rw [show lx8Units 0 = 0 from rfl, zero_mul]; exact Nat.zero_le x⟩
    · exact ⟨c, List.mem_range.1 hc, h, hP⟩
  obtain ⟨c, hc, heq, hle⟩ := hc
  exact ⟨c, hc, heq, hle, fun d hd hP => by have := hbest d (List.mem_range.2 hd) hP; rw [heq] at this; exact not_lt.1 this⟩

/-- The code above, of a number that is not above the greatest one. -/
theorem lx8Above_spec {x s : Nat} (hx : x ≤ lx8Units 3 * 2 ^ s) : ∃ c < 128, lx8Above x s = (c, lx8Units c) ∧ x ≤ lx8Units c * 2 ^ s ∧
    ∀ d < 128, x ≤ lx8Units d * 2 ^ s → lx8Units c ≤ lx8Units d := by
  obtain ⟨hfrom, -, hbest⟩ := foldl_best (P := fun c => x ≤ lx8Units c * 2 ^ s) (R := fun b v => v < b) lx8Units (fun _ => lt_irrefl _)
    (fun a b v h hab => by omega) (List.range 128) (3, lx8Units 3)
  change (lx8Above x s = _ ∨ ∃ c ∈ _, _ ∧ lx8Above x s = _) at hfrom
  change ∀ c ∈ _, _ → ¬ _ < (lx8Above x s).2 at hbest
  have hc : ∃ c < 128, lx8Above x s = (c, lx8Units c) ∧ x ≤ lx8Units c * 2 ^ s := by
    rcases hfrom with h | ⟨c, hc, hP, h⟩
    · exact ⟨3, by norm_num, h, hx⟩
    · exact ⟨c, List.mem_range.1 hc, h, hP⟩
  obtain ⟨c, hc, heq, hle⟩ := hc
  exact ⟨c, hc, heq, hle, fun d hd hP => by have := hbest d (List.mem_range.2 hd) hP; rw [heq] at this; exact not_lt.1 this⟩

/-! ## Packing (R102) -/

/-- The choice between the code below and the code above a number, by its distances to them. -/
def lx8Choice (c d down up : Nat) : Nat :=
  if down < up then c else if up < down then d else if c % 2 = 0 then c else if d % 2 = 0 then d else c

theorem toLx8_saturated (a : Bool) {m : Nat} {e : Int} (hm : m ≠ 0) (h : lx8Units 3 * 2 ^ (-(e + 15)).toNat < m * 2 ^ (e + 15).toNat) :
    toLx8 (.fin a m e) = (if a then 0x83 else 0x03, 0b10100) := by
  simp only [toLx8, if_neg hm, if_pos h]
  rfl

theorem toLx8_within (a : Bool) {m : Nat} {e : Int} (hm : m ≠ 0) (h : m * 2 ^ (e + 15).toNat ≤ lx8Units 3 * 2 ^ (-(e + 15)).toNat)
    {c d p q : Nat} (hbelow : lx8Below (m * 2 ^ (e + 15).toNat) (-(e + 15)).toNat = (c, p))
    (habove : lx8Above (m * 2 ^ (e + 15).toNat) (-(e + 15)).toNat = (d, q)) :
    let s := (-(e + 15)).toNat
    let x := m * 2 ^ (e + 15).toNat
    let k := lx8Choice c d (x - p * 2 ^ s) (q * 2 ^ s - x)
    let lost := decide (x - p * 2 ^ s ≠ 0) && decide (q * 2 ^ s - x ≠ 0)
    toLx8 (.fin a m e) = (if k = 0 then 0 else if a then k + 128 else k, flagIf lost flagNX ||| flagIf (lost && decide (x < 2 ^ s)) flagUF) := by
  simp only [toLx8, if_neg hm, if_neg h.not_gt, hbelow, habove]
  rfl

/-- The choice by the distances: none is less, and where one is equal the chosen code has bit 0 clear, or it is the code below and neither has. -/
theorem lx8Choice_least {D : Nat → Nat} {c d j : Nat}
    (hj : (D c ≤ D j ∧ (D c = D j → j = c)) ∨ (D d ≤ D j ∧ (D d = D j → j = d))) :
    let k := lx8Choice c d (D c) (D d)
    D k ≤ D j ∧ (D k = D j → j ≠ k → k % 2 = 0 ∨ (j % 2 = 1 ∧ k = c ∧ j = d)) := by
  intro k
  simp only [k, lx8Choice]
  split_ifs with hlt hgt hceven hdeven
  · rcases hj with ⟨hle, heq⟩ | ⟨hle, -⟩
    · exact ⟨hle, fun h hne => absurd (heq h) hne⟩
    · exact ⟨hlt.le.trans hle, fun h => absurd (hlt.trans_le hle) h.not_lt⟩
  · rcases hj with ⟨hle, -⟩ | ⟨hle, heq⟩
    · exact ⟨hgt.le.trans hle, fun h => absurd (hgt.trans_le hle) h.not_lt⟩
    · exact ⟨hle, fun h hne => absurd (heq h) hne⟩
  all_goals have htie : D c = D d := le_antisymm (not_lt.1 hgt) (not_lt.1 hlt)
  · exact ⟨hj.elim And.left fun h => htie.le.trans h.1, fun _ _ => .inl hceven⟩
  · exact ⟨hj.elim (fun h => htie.ge.trans h.1) And.left, fun _ _ => .inl hdeven⟩
  · rcases hj with ⟨hle, heq⟩ | ⟨hle, heq⟩
    · exact ⟨hle, fun h hne => absurd (heq h) hne⟩
    · refine ⟨htie.le.trans hle, fun h _ => .inr ?_⟩
      obtain rfl := heq (htie ▸ h)
      exact ⟨Nat.mod_two_ne_zero.1 hdeven, rfl, rfl⟩

/-- The choice is a nearest code; of two as near it is the one whose bit 0 is clear, or the lesser where neither's is. -/
theorem lx8Choice_nearest {P : Nat → Nat} {x c d j : Nat} (hc : P c ≤ x) (hd : x ≤ P d) (hj : P j ≤ P c ∨ P d ≤ P j)
    (hjc : P j = P c → j = c) (hjd : P j = P d → j = d) :
    let k := lx8Choice c d (x - P c) (P d - x)
    Nat.dist (P k) x ≤ Nat.dist (P j) x ∧
      (Nat.dist (P k) x = Nat.dist (P j) x → j ≠ k → k % 2 = 0 ∨ (j % 2 = 1 ∧ P k < P j)) := by
  have hdown : Nat.dist (P c) x = x - P c := Nat.dist_eq_sub_of_le hc
  have hup : Nat.dist (P d) x = P d - x := Nat.dist_eq_sub_of_le_right hd
  have hside : (Nat.dist (P c) x ≤ Nat.dist (P j) x ∧ (Nat.dist (P c) x = Nat.dist (P j) x → j = c)) ∨
      (Nat.dist (P d) x ≤ Nat.dist (P j) x ∧ (Nat.dist (P d) x = Nat.dist (P j) x → j = d)) := by
    rcases hj with h | h
    · rw [hdown, Nat.dist_eq_sub_of_le (h.trans hc)]
      exact .inl ⟨Nat.sub_le_sub_left h x, fun heq => hjc ((tsub_right_inj hc (h.trans hc)).1 heq).symm⟩
    · rw [hup, Nat.dist_eq_sub_of_le_right (hd.trans h)]
      exact .inr ⟨Nat.sub_le_sub_right h x, fun heq => hjd ((tsub_left_inj hd (hd.trans h)).1 heq).symm⟩
  have hleast := lx8Choice_least (D := fun i => Nat.dist (P i) x) hside
  simp only [hdown, hup] at hleast
  refine ⟨hleast.1, fun heq hne => (hleast.2 heq hne).imp_right fun ⟨hodd, hkc, hjd'⟩ => ⟨hodd, ?_⟩⟩
  rw [hkc] at hne ⊢
  exact lt_of_le_of_ne (hjd' ▸ hc.trans hd) fun h => hne (hjc h.symm)

/-- The choice is the one that is not farther. -/
theorem lx8Choice_eq_or (c d down up : Nat) : (lx8Choice c d down up = c ∧ down ≤ up) ∨ (lx8Choice c d down up = d ∧ up ≤ down) := by
  unfold lx8Choice
  split_ifs with hlt hgt
  · exact .inl ⟨rfl, hlt.le⟩
  · exact .inr ⟨rfl, hgt.le⟩
  · exact .inl ⟨rfl, not_lt.1 hgt⟩
  · exact .inr ⟨rfl, not_lt.1 hlt⟩
  · exact .inl ⟨rfl, not_lt.1 hgt⟩

/-- The choice is exact if either code is. -/
theorem lx8Choice_exact {P : Nat → Nat} {x c d : Nat} (hc : P c ≤ x) (hd : x ≤ P d) :
    P (lx8Choice c d (x - P c) (P d - x)) = x ↔ x - P c = 0 ∨ P d - x = 0 := by
  rcases lx8Choice_eq_or c d (x - P c) (P d - x) with ⟨hk, hle⟩ | ⟨hk, hle⟩ <;> rw [hk]
  · refine ⟨fun h => .inl (Nat.sub_eq_zero_of_le h.ge), fun h => le_antisymm hc (Nat.sub_eq_zero_iff_le.1 ?_)⟩
    exact h.elim id fun h => Nat.eq_zero_of_le_zero (hle.trans h.le)
  · refine ⟨fun h => .inr (Nat.sub_eq_zero_of_le h.le), fun h => le_antisymm (Nat.sub_eq_zero_iff_le.1 ?_) hd⟩
    exact h.elim (fun h => Nat.eq_zero_of_le_zero (hle.trans h.le)) id

/-- Packing in the units in which numbers are compared: a nearest code, and its flags. -/
theorem toLx8_nearest (a : Bool) {m : Nat} {e : Int} (hm : m ≠ 0) : let s := (-(e + 15)).toNat
    let x := m * 2 ^ (e + 15).toNat
    x ≤ lx8Units 3 * 2 ^ s → ∃ k < 128,
      toLx8 (.fin a m e) = (if k = 0 then 0 else if a then k + 128 else k,
        if lx8Units k * 2 ^ s = x then 0 else if x < 2 ^ s then 0b11000 else 0b10000) ∧
      ∀ j < 128, Nat.dist (lx8Units k * 2 ^ s) x ≤ Nat.dist (lx8Units j * 2 ^ s) x ∧
        (Nat.dist (lx8Units k * 2 ^ s) x = Nat.dist (lx8Units j * 2 ^ s) x → j ≠ k →
          k % 2 = 0 ∨ (j % 2 = 1 ∧ lx8Units k * 2 ^ s < lx8Units j * 2 ^ s)) := by
  intro s x hle
  obtain ⟨c, hc, hbelow, hcle, hcbest⟩ := lx8Below_spec x s
  obtain ⟨d, hd, habove, hdle, hdbest⟩ := lx8Above_spec hle
  have hk : lx8Choice c d (x - lx8Units c * 2 ^ s) (lx8Units d * 2 ^ s - x) < 128 :=
    (lx8Choice_eq_or _ _ _ _).elim (fun h => h.1.trans_lt hc) fun h => h.1.trans_lt hd
  refine ⟨lx8Choice c d (x - lx8Units c * 2 ^ s) (lx8Units d * 2 ^ s - x), hk, ?_, fun j hj => ?_⟩
  · have hlost : (decide (x - lx8Units c * 2 ^ s ≠ 0) && decide (lx8Units d * 2 ^ s - x ≠ 0)) = false ↔
        lx8Units (lx8Choice c d (x - lx8Units c * 2 ^ s) (lx8Units d * 2 ^ s - x)) * 2 ^ s = x := by
      rw [lx8Choice_exact (P := fun j => lx8Units j * 2 ^ s) hcle hdle, Bool.and_eq_false_iff, decide_eq_false_iff_not, decide_eq_false_iff_not,
        not_not, not_not]
    simp only [← hlost]
    rw [toLx8_within a hm hle hbelow habove, flags_exact_small]
    simp only [decide_eq_true_eq]
    rfl
  · have hinj : ∀ i < 128, lx8Units j * 2 ^ s = lx8Units i * 2 ^ s → j = i := fun i hi h =>
      lx8Units_injective hj hi (Nat.eq_of_mul_eq_mul_right (Nat.two_pow_pos s) h)
    have hside : lx8Units j * 2 ^ s ≤ lx8Units c * 2 ^ s ∨ lx8Units d * 2 ^ s ≤ lx8Units j * 2 ^ s :=
      (le_total (lx8Units j * 2 ^ s) x).imp (fun h => Nat.mul_le_mul_right _ (hcbest j hj h)) fun h => Nat.mul_le_mul_right _ (hdbest j hj h)
    exact lx8Choice_nearest (P := fun j => lx8Units j * 2 ^ s) hcle hdle hside (hinj c hc) (hinj d hd)

theorem cast_dist (p x : Nat) : ((Nat.dist p x : Nat) : ℚ) = |(p : ℚ) - x| := by
  rcases le_total p x with h | h
  · rw [Nat.dist_eq_sub_of_le h, Nat.cast_sub h, abs_sub_comm, abs_of_nonneg (sub_nonneg.2 (Nat.cast_le.2 h))]
  · rw [Nat.dist_eq_sub_of_le_right h, Nat.cast_sub h, abs_of_nonneg (sub_nonneg.2 (Nat.cast_le.2 h))]

/-- A number and the codes' magnitudes in those units. -/
theorem lx8_scale (m : Nat) (e : Int) : ∃ d : ℚ, 0 < d ∧ ratio false m e = (m * 2 ^ (e + 15).toNat : Nat) * d ∧
    (2 : ℚ) ^ (-15 : Int) = (2 ^ (-(e + 15)).toNat : Nat) * d ∧ ∀ k < 128, lx8Magnitude k = (lx8Units k * 2 ^ (-(e + 15)).toNat : Nat) * d := by
  have hunit : (2 : ℚ) ^ (-15 : Int) = (2 ^ (-(e + 15)).toNat : Nat) * (2 ^ (-15 : Int) / 2 ^ (-(e + 15)).toNat) := by
    push_cast; field_simp
  refine ⟨2 ^ (-15 : Int) / 2 ^ (-(e + 15)).toNat, by positivity, ?_, hunit, fun k hk => ?_⟩
  · have hexp : (2 : ℚ) ^ e = 2 ^ (e + 15).toNat * (2 ^ (-15 : Int) / 2 ^ (-(e + 15)).toNat) := by
      rw [← zpow_natCast, ← zpow_natCast, ← zpow_sub₀ two_ne_zero, ← zpow_add₀ two_ne_zero]; congr 1; omega
    rw [ratio_false, hexp]
    push_cast
    ring
  · rw [lx8Magnitude_eq hk, Nat.cast_mul, mul_assoc, ← hunit]

theorem toLx8_spec (a : Bool) {m : Nat} {e : Int} (hm : m ≠ 0) :
    let x := ratio false m e
    (8192 < x → toLx8 (.fin a m e) = (if a = true then 0x83 else 0x03, 0b10100)) ∧
    (x ≤ 8192 → ∃ k < 128, ∃ v : Rat, lx8Magnitude k = v ∧
      toLx8 (.fin a m e) = (if k = 0 then 0 else if a = true then k + 128 else k,
        if v = x then 0 else if x < ratio false 1 (-15) then 0b11000 else 0b10000) ∧
      ∀ j < 128, |v - x| ≤ |lx8Magnitude j - x| ∧
        (|v - x| = |lx8Magnitude j - x| → j ≠ k → k % 2 = 0 ∨ (j % 2 = 1 ∧ v < lx8Magnitude j))) := by
  intro x
  obtain ⟨d, hd, hx, hleast, hmag⟩ := lx8_scale m e
  have htop : (8192 : ℚ) = (lx8Units 3 * 2 ^ (-(e + 15)).toNat : Nat) * d := by
    rw [← hmag 3 (by norm_num), lx8Magnitude_eq (by norm_num), show lx8Units 3 = 2 ^ 28 from rfl]; norm_num
  have hone : ratio false 1 (-15) = 2 ^ (-15 : Int) := by rw [ratio_false, Nat.cast_one, one_mul]
  have hdist : ∀ j < 128, |lx8Magnitude j - x| =
      (Nat.dist (lx8Units j * 2 ^ (-(e + 15)).toNat) (m * 2 ^ (e + 15).toNat) : Nat) * d := fun j hj => by
    rw [hmag j hj, show x = _ from hx, ← sub_mul, abs_mul, abs_of_pos hd, cast_dist]
  constructor
  · intro h
    rw [htop, show x = _ from hx, mul_lt_mul_iff_left₀ hd] at h
    exact toLx8_saturated a hm (Nat.cast_lt.1 h)
  · intro h
    rw [htop, show x = _ from hx, mul_le_mul_iff_left₀ hd] at h
    obtain ⟨k, hk, hpack, hnear⟩ := toLx8_nearest a hm (Nat.cast_le.1 h)
    refine ⟨k, hk, _, rfl, ?_, fun j hj => ?_⟩
    · rw [hpack]
      simp only [hone, hleast, hmag k hk, show x = _ from hx, mul_left_inj' hd.ne', mul_lt_mul_iff_left₀ hd, Nat.cast_inj, Nat.cast_lt]
    · rw [hdist k hk, hdist j hj, mul_le_mul_iff_left₀ hd, mul_left_inj' hd.ne', hmag k hk, hmag j hj, mul_lt_mul_iff_left₀ hd, Nat.cast_le,
        Nat.cast_inj, Nat.cast_lt]
      exact hnear j hj

/-! ## Unpacked and packed again (R101, R102) -/

/-- The code of a number with its sign. -/
def lx8Signed (a : Bool) (c : Nat) : Nat := if a then c + 128 else c

/-- FP32 holds the number of every code. -/
theorem fp32_holds_lx8 : ∀ a : Bool, ∀ c < 128, c ≠ 0 →
    holdsUnits a (lx8Units c * 2 ^ 25) (-40) (fp32.read false (fp32.write 0 false (lx8Read (lx8Signed a c))).1) = true := by decide +kernel

/-- A number that a code holds packs as that code. -/
theorem toLx8_exact (a : Bool) {m : Nat} {e : Int} {c : Nat} (hc : c < 128) (h0 : c ≠ 0) (h : ratio false m e = lx8Magnitude c) :
    toLx8 (.fin a m e) = (lx8Signed a c, 0) := by
  have hm : m ≠ 0 := by
    rintro rfl
    have hzero : lx8Magnitude c = lx8Magnitude 0 := by
      rw [← h, ratio_false, Nat.cast_zero, zero_mul, lx8Magnitude_eq (by norm_num), show lx8Units 0 = 0 from rfl, Nat.cast_zero, zero_mul]
    rw [lx8Magnitude_eq hc, lx8Magnitude_eq (by norm_num), mul_left_inj' (two_zpow_pos _).ne', Nat.cast_inj] at hzero
    exact h0 (lx8Units_injective hc (by norm_num) hzero)
  have hle : ratio false m e ≤ 8192 := by
    have hunits : (lx8Units c : ℚ) ≤ (2 ^ 28 : Nat) := Nat.cast_le.2 (lx8Units_le c hc)
    rw [h, lx8Magnitude_eq hc]
    calc (lx8Units c : ℚ) * 2 ^ (-15 : Int) ≤ (2 ^ 28 : Nat) * 2 ^ (-15 : Int) := mul_le_mul_of_nonneg_right hunits (two_zpow_pos _).le
      _ = 8192 := by norm_num
  obtain ⟨k, hk, v, rfl, hpack, hnear⟩ := (toLx8_spec a hm).2 hle
  have heq : lx8Magnitude k = ratio false m e := by
    have := (hnear c hc).1
    rw [← h, sub_self, abs_zero] at this
    exact sub_eq_zero.1 (abs_nonpos_iff.1 this)
  have hkc : k = c := by
    rw [h, lx8Magnitude_eq hk, lx8Magnitude_eq hc, mul_left_inj' (two_zpow_pos _).ne', Nat.cast_inj] at heq
    exact lx8Units_injective hk hc heq
  subst hkc
  rw [hpack, if_pos heq, if_neg h0]
  rfl

theorem lx8_roundTrip (a : Bool) {c : Nat} (hc : c < 128) :
    toLx8 (fp32.read false (fp32.write 0 false (lx8Read (lx8Signed a c))).1) = (lx8Signed a c, 0) := by
  by_cases h0 : c = 0
  · subst h0
    cases a <;> rfl
  · obtain ⟨m, e, hread, hval⟩ := exists_of_holdsUnits (fp32_holds_lx8 a c hc h0)
    rw [hread]
    refine toLx8_exact a hc h0 ?_
    rw [hval, lx8Magnitude_eq hc]
    push_cast
    rw [mul_assoc]
    congr 1
    norm_num

/-- Settles O9: the codes around a number, by what the two folds keep, and the choice between them; a code's number is its own. -/
theorem lx8RoundTrip : Obligations.Lx8RoundTrip := by
  refine ⟨fun c hc => ?_, fun q => ?_, fun a => rfl, fun a e => rfl, fun a m e hm => toLx8_spec a hm⟩
  · have hsplit : c = lx8Signed (decide (128 ≤ c)) (c % 128) := by
      by_cases h : 128 ≤ c <;> simp only [lx8Signed, h, decide_true, decide_false, if_true, Bool.false_eq_true, if_false] <;> omega
    rw [hsplit]
    exact lx8_roundTrip _ (Nat.mod_lt c (by norm_num))
  · cases q <;> rfl

end Sys2Proof.Machine
end

section
/-! Reductions (R106, R131): the tree over the lanes, and what its value is for each operation. -/

namespace Sys2Proof.Machine
open Sys2Proof.Safety

/-! ## The tree -/

section
variable {α : Type} (op : α → α → α)

/-- Two places of a level combined: an absent one takes no part. -/
def mergePlaces (x y : Option α) : Option α :=
  match x, y with
  | none, y => y
  | some x, none => some x
  | some x, some y => some (op x y)

theorem halve_eq (l : List (Option α)) : halve op l = (l.take (l.length / 2)).zipWith (mergePlaces op) (l.drop (l.length / 2)) := rfl

theorem treeOver_succ (n : Nat) (f : Nat → Option α) :
    treeOver op (n + 1) f = treeOver op n fun j => mergePlaces op (f j) (f (j + 2 ^ n)) := rfl

theorem halve_range (n : Nat) (f : Nat → Option α) : halve op ((List.range (2 ^ (n + 1))).map f) =
    (List.range (2 ^ n)).map fun j => mergePlaces op (f j) (f (j + 2 ^ n)) := by
  have hsplit : (List.range (2 ^ (n + 1))).map f = (List.range (2 ^ n)).map f ++ (List.range (2 ^ n)).map fun j => f (j + 2 ^ n) := by
    rw [pow_succ, Nat.mul_two, List.range_add, List.map_append, List.map_map]
    simp only [Function.comp_def, Nat.add_comm]
  have hlen : ((List.range (2 ^ (n + 1))).map f).length / 2 = ((List.range (2 ^ n)).map f).length := by
    simp only [List.length_map, List.length_range, pow_succ]; omega
  rw [halve_eq, hlen, hsplit, List.take_left, List.drop_left, List.zipWith_map, List.zipWith_self]

/-- The model's tree over 2^n places, taken on long enough, is the tree of the statements. -/
theorem tree_eq_treeOver : ∀ (n k : Nat) (f : Nat → Option α), n ≤ k → tree op k ((List.range (2 ^ n)).map f) = treeOver op n f
  | 0, 0, _, _ => rfl
  | 0, _ + 1, _, _ => rfl
  | n + 1, k + 1, f, h => by
    have hlong : ¬ ((List.range (2 ^ (n + 1))).map f).length ≤ 1 := by
      have := Nat.two_pow_pos n
      simp only [List.length_map, List.length_range, pow_succ]; omega
    rw [tree, if_neg hlong, halve_range, treeOver_succ, tree_eq_treeOver n k _ (by omega)]

variable {op}

/-- What holds of every place, and is kept by the operation, holds of the tree's value. -/
theorem treeOver_of_forall {p : α → Prop} (hop : ∀ x y, p x → p y → p (op x y)) :
    ∀ (n : Nat) (f : Nat → Option α), (∀ j < 2 ^ n, ∀ x, f j = some x → p x) → ∀ v, treeOver op n f = some v → p v
  | 0, f, hf, v, hv => hf 0 Nat.one_pos v hv
  | n + 1, f, hf, v, hv => by
    rw [treeOver_succ] at hv
    refine treeOver_of_forall hop n _ (fun j hj x hx => ?_) v hv
    have hlo : ∀ x, f j = some x → p x := hf j (by rw [pow_succ]; omega)
    have hhi : ∀ x, f (j + 2 ^ n) = some x → p x := hf (j + 2 ^ n) (by rw [pow_succ]; omega)
    generalize f j = y at hx hlo
    generalize f (j + 2 ^ n) = z at hx hhi
    rcases y with _ | y <;> rcases z with _ | z <;> simp only [mergePlaces, reduceCtorEq, Option.some.injEq] at hx
    · exact hhi x (congrArg some hx)
    · exact hlo x (congrArg some hx)
    · exact hx ▸ hop y z (hlo y rfl) (hhi z rfl)

/-- An operation that gives no more than its operands: the tree's value is no more than any place. -/
theorem treeOver_le {le : α → α → Prop} (hrefl : ∀ x, le x x) (htrans : ∀ x y z, le x y → le y z → le x z) (hleft : ∀ x y, le (op x y) x)
    (hright : ∀ x y, le (op x y) y) : ∀ (n : Nat) (f : Nat → Option α) (j : Nat) (x : α), j < 2 ^ n → f j = some x →
      ∃ v, treeOver op n f = some v ∧ le v x
  | 0, f, j, x, hj, hx => by
    obtain rfl : j = 0 := by omega
    exact ⟨x, hx, hrefl x⟩
  | n + 1, f, j, x, hj, hx => by
    rw [treeOver_succ]
    -- the place of the next level that j goes to
    have hplace : ∃ i < 2 ^ n, ∃ y, mergePlaces op (f i) (f (i + 2 ^ n)) = some y ∧ le y x := by
      rw [pow_succ] at hj
      rcases lt_or_ge j (2 ^ n) with hlt | hge
      · refine ⟨j, hlt, ?_⟩
        rw [hx]
        rcases f (j + 2 ^ n) with _ | z
        · exact ⟨x, rfl, hrefl x⟩
        · exact ⟨op x z, rfl, hleft x z⟩
      · refine ⟨j - 2 ^ n, by omega, ?_⟩
        rw [Nat.sub_add_cancel hge, hx]
        rcases f (j - 2 ^ n) with _ | z
        · exact ⟨x, rfl, hrefl x⟩
        · exact ⟨op z x, rfl, hright z x⟩
    obtain ⟨i, hi, y, hy, hyx⟩ := hplace
    obtain ⟨v, hv, hvy⟩ := treeOver_le hrefl htrans hleft hright n (fun j => mergePlaces op (f j) (f (j + 2 ^ n))) i y hi hy
    exact ⟨v, hv, htrans v y x hvy hyx⟩

/-- An operation that adds: the tree's value is the sum of the places. -/
theorem treeOver_sum {β : Type} [AddCommMonoid β] (value : α → β) (hop : ∀ x y, value (op x y) = value x + value y) :
    let sumOf (x : Option α) : β := (x.map value).getD 0
    ∀ (n : Nat) (f : Nat → Option α), sumOf (treeOver op n f) = ((List.range (2 ^ n)).map fun j => sumOf (f j)).sum := by
  intro sumOf n
  have hmerge : ∀ x y, sumOf (mergePlaces op x y) = sumOf x + sumOf y := by
    rintro (_ | x) (_ | y)
    · exact (zero_add _).symm
    · exact (zero_add _).symm
    · exact (add_zero _).symm
    · exact hop x y
  induction n with
  | zero => intro f; simp [treeOver]
  | succ n ih =>
    intro f
    rw [treeOver_succ, ih, pow_succ, Nat.mul_two, List.range_add, List.map_append, List.sum_append, List.map_map]
    simp only [hmerge, List.sum_map_add, Function.comp_def, Nat.add_comm]

end

/-! ## The lanes of a mask (R106) -/

/-- A lane of the mask, no flag raised so far; absent elsewhere. -/
def laneLeaf (g : Group) (a : Reg) (m : Mask) (j : Nat) : Option (Lane × BitVec 5) :=
  if j < g.width ∧ m.getLsbD j = true then some (g.srcV .a a j, 0) else none

/-- Two values with their flags combined. -/
def withFlags (combine : Lane → Lane → Lane × BitVec 5) (x y : Lane × BitVec 5) : Lane × BitVec 5 :=
  ((combine x.1 y.1).1, x.2 ||| y.2 ||| (combine x.1 y.1).2)

section
variable {g : Group} {a : Reg} {m : Mask}

theorem laneLeaf_some {j : Nat} {x : Lane × BitVec 5} (h : laneLeaf g a m j = some x) : j ∈ lanesOf g.width m ∧ x = (g.srcV .a a j, 0) := by
  by_cases hj : j < g.width ∧ m.getLsbD j = true
  · rw [laneLeaf, if_pos hj] at h
    exact ⟨mem_lanesOf.2 hj, (Option.some.inj h).symm⟩
  · rw [laneLeaf, if_neg hj] at h
    cases h

theorem laneLeaf_of_mem {j : Nat} (h : j ∈ lanesOf g.width m) : laneLeaf g a m j = some (g.srcV .a a j, 0) := if_pos (mem_lanesOf.1 h)

theorem leaves_eq (g : Group) (m : Mask) (a : Reg) : g.leaves m a = (List.range g.width).map (laneLeaf g a m) := by
  refine List.map_congr_left fun j hj => ?_
  simp only [laneLeaf, List.mem_range.1 hj, true_and]

theorem width_eq_pow (h : g.width ∈ [16, 32, 64]) : 2 ^ Nat.log2 g.width = g.width ∧ Nat.log2 g.width ≤ 6 := by
  simp only [List.mem_cons, List.not_mem_nil, or_false] at h
  rcases h with h | h | h <;> rw [h] <;> decide

theorem reduce_eq (hw : g.width ∈ [16, 32, 64]) (empty : Lane) (combine : Lane → Lane → Lane × BitVec 5) :
    g.reduce m a empty combine = (treeOver (withFlags combine) (Nat.log2 g.width) (laneLeaf g a m)).getD (empty, 0) := by
  obtain ⟨hpow, hle⟩ := width_eq_pow hw
  have htree := tree_eq_treeOver (op := withFlags combine) (Nat.log2 g.width) 6 (laneLeaf g a m) hle
  rw [hpow, ← leaves_eq] at htree
  rw [← htree]
  rfl

/-- A reduction whose operation raises nothing raises nothing. -/
theorem reduce_noFlags (hw : g.width ∈ [16, 32, 64]) (empty : Lane) {combine : Lane → Lane → Lane × BitVec 5} (h : ∀ x y, (combine x y).2 = 0) :
    (g.reduce m a empty combine).2 = 0 := by
  rw [reduce_eq hw]
  rcases hv : treeOver (withFlags combine) (Nat.log2 g.width) (laneLeaf g a m) with _ | v
  · rfl
  · refine treeOver_of_forall (p := fun x => x.2 = 0) (fun x y hx hy => ?_) _ _ (fun j _ x hx => ?_) v hv
    · simp only [withFlags, hx, hy, h]; rfl
    · rw [(laneLeaf_some hx).2]

/-- A reduction that selects: its value is a lane's, or the empty one. -/
theorem reduce_mem (hw : g.width ∈ [16, 32, 64]) (empty : Lane) {combine : Lane → Lane → Lane × BitVec 5}
    (h : ∀ x y, (combine x y).1 = x ∨ (combine x y).1 = y) :
    (g.reduce m a empty combine).1 = empty ∨ (g.reduce m a empty combine).1 ∈ (lanesOf g.width m).map (g.srcV .a a) := by
  rw [reduce_eq hw]
  rcases hv : treeOver (withFlags combine) (Nat.log2 g.width) (laneLeaf g a m) with _ | v
  · exact .inl rfl
  · refine .inr (treeOver_of_forall (p := fun x => x.1 ∈ (lanesOf g.width m).map (g.srcV .a a)) (fun x y hx hy => ?_) _ _ (fun j _ x hx => ?_) v hv)
    · rcases h x.1 y.1 with he | he
      · exact he ▸ hx
      · exact he ▸ hy
    · obtain ⟨hj, rfl⟩ := laneLeaf_some hx
      exact List.mem_map_of_mem hj

/-- A reduction by an operation that gives no more, by `key`, than its operands gives no more than any lane. -/
theorem reduce_le (hw : g.width ∈ [16, 32, 64]) (empty : Lane) {combine : Lane → Lane → Lane × BitVec 5} {key : Lane → Int}
    (hleft : ∀ x y, key (combine x y).1 ≤ key x) (hright : ∀ x y, key (combine x y).1 ≤ key y) {j : Nat} (hj : j ∈ lanesOf g.width m) :
    key (g.reduce m a empty combine).1 ≤ key (g.srcV .a a j) := by
  have hlt : j < 2 ^ Nat.log2 g.width := by rw [(width_eq_pow hw).1]; exact (mem_lanesOf.1 hj).1
  obtain ⟨v, hv, hle⟩ := treeOver_le (op := withFlags combine) (le := fun x y => key x.1 ≤ key y.1) (fun _ => le_rfl) (fun _ _ _ => le_trans)
    (fun x y => hleft x.1 y.1) (fun x y => hright x.1 y.1) (Nat.log2 g.width) (laneLeaf g a m) j _ hlt (laneLeaf_of_mem hj)
  rw [reduce_eq hw, hv]
  exact hle

/-- A sum over the members that satisfy a condition. -/
theorem sum_map_filter {β : Type} [AddCommMonoid β] (p : Nat → Bool) (f : Nat → β) : ∀ l : List Nat,
    ((l.filter p).map f).sum = (l.map fun i => if p i = true then f i else 0).sum
  | [] => rfl
  | i :: l => by
    by_cases h : p i = true
    · simp [List.filter_cons_of_pos h, h, sum_map_filter p f l]
    · simp [List.filter_cons_of_neg h, h, sum_map_filter p f l]

theorem reduce_sum (hw : g.width ∈ [16, 32, 64]) :
    (g.reduce m a 0 fun x y => (x + y, 0)).1 = ((lanesOf g.width m).map (g.srcV .a a)).sum := by
  have hsum := treeOver_sum (op := withFlags fun x y => (x + y, 0)) Prod.fst (fun _ _ => rfl) (Nat.log2 g.width) (laneLeaf g a m)
  have hroot : ∀ v : Option (Lane × BitVec 5), (v.getD (0, 0)).1 = (v.map Prod.fst).getD 0 := by rintro (_ | v) <;> rfl
  have hlane : ∀ j ∈ List.range g.width, ((laneLeaf g a m j).map Prod.fst).getD 0 = if m.getLsbD j = true then g.srcV .a a j else 0 := by
    intro j hj
    by_cases h : m.getLsbD j = true <;> simp [laneLeaf, List.mem_range.1 hj, h]
  dsimp only at hsum
  rw [reduce_eq hw, hroot, hsum, (width_eq_pow hw).1, List.map_congr_left hlane, ← sum_map_filter]
  rfl

end

/-! ## The words -/

theorem reduceWord_of {i : Instr} {d a : Reg} {s : State} {c : Issue} {g : Group} {empty : Lane} {combine : Group → Lane → Lane → Lane × BitVec 5}
    (hr : Ready i s c g) (h : exec i s = word i s fun c g => s.reduction c g d a empty (combine g)) :
    GivesScalar i s c g d ((g.reduce c.mask a empty (combine g)).1.zeroExtend 64) (g.reduce c.mask a empty (combine g)).2 := by
  obtain ⟨r, h1, h2, h3, h4, h5⟩ :=
    scalResult_issued s c g d [(g.reduce c.mask a empty (combine g)).1.zeroExtend 64] (g.reduce c.mask a empty (combine g)).2
  exact ⟨_, r, h.trans (word_ready hr _), h1, h2, h3, h4, h5⟩

/-! ## The float forms (R122, R131) -/

/-- A reduction by a float operation is the tree of R106. -/
theorem reduce_onLanes {g : Group} {a : Reg} {m : Mask} (hw : g.width ∈ [16, 32, 64]) (empty : Lane) (op : Nat → Nat → Nat × BitVec 5) :
    g.reduce m a empty (onLanes op) = laneTree g a m empty op := reduce_eq hw empty (onLanes op)

theorem fp32_split {c : Nat} (h : c < 2 ^ 32) : ∃ s k, c = fp32.signOf s + k ∧ k < 2 ^ 31 ∧ c % 2 ^ 31 = k :=
  ⟨_, _, signed_split (f := fp32) (by change c < 2 * 2 ^ 31; omega), Nat.mod_lt c (Nat.two_pow_pos 31), rfl⟩

theorem read_not_nan {f : Fmt} (he : 1 < f.eb) (ftz s : Bool) {c : Nat} (hc : c ≤ f.infCode) : ¬ IsNan (f.read ftz (f.signOf s + c)) := by
  rintro ⟨q, hq⟩
  rcases hc.lt_or_eq with hlt | rfl
  · rcases lt_or_ge c (2 ^ f.fb) with h | h
    · rw [read_subnormal he ftz s h] at hq; cases hq
    · rw [read_normal ftz s h hlt] at hq; cases hq
  · rw [read_inf] at hq; cases hq

/-- What an FP32 code reads as, as far as a minimum or maximum needs it. -/
theorem fp32_read_nan (ftz : Bool) {c : Nat} (h : c < 2 ^ 32) :
    (fp32.read ftz c).isNan = nan32 c ∧ (fp32.read ftz c).signals = signal32 c := by
  obtain ⟨s, k, hc, hk, hmod⟩ := fp32_split h
  have hinf : fp32.infCode = 0x7F800000 := by decide
  have hfb : c % 2 ^ 23 = k % 2 ^ 23 := by rw [hc]; exact signOf_add_mod (f := fp32) s k
  by_cases hn : 0x7F800000 < k
  · have hread : fp32.read ftz c = .nan (decide (k % 2 ^ 23 < 2 ^ 22)) := by rw [hc]; exact read_nan (f := fp32) ftz s hk (hinf ▸ hn)
    have hnan : nan32 c = true := by rw [nan32, hmod]; exact decide_eq_true hn
    rw [hread, hnan, signals_eq, signal32, hnan, hfb]
    refine ⟨rfl, ?_⟩
    simp only [Val.nan.injEq, decide_eq_true_eq, true_and]
  · have hnan : nan32 c = false := by rw [nan32, hmod]; exact decide_eq_false hn
    have hquiet : ¬ IsNan (fp32.read ftz c) := by rw [hc]; exact read_not_nan (f := fp32) (by decide) ftz s (by rw [hinf]; omega)
    rw [hnan, signals_eq, if_neg fun h => hquiet ⟨true, h⟩, signal32, hnan]
    refine ⟨?_, by simp⟩
    rw [← Bool.not_eq_true, isNan_iff]
    exact hquiet

theorem flush_eq_code32 (ftz : Bool) (c : Nat) : fp32.flush ftz c = code32 ftz c := rfl

theorem code32_lt (ftz : Bool) {c : Nat} (h : c < 2 ^ 32) : code32 ftz c < 2 ^ 32 := by
  unfold code32
  split_ifs <;> omega

/-- The order of codes with −0 below +0. -/
theorem orderKey_lt_iff {a b : Nat} (ha : a < 2 ^ 32) (hb : b < 2 ^ 32) :
    fp32.orderKey a < fp32.orderKey b ↔ below32 a b = true := by
  have hpos : ∀ {c : Nat}, c < 2 ^ 31 → fp32.orderKey c = c ∧ key32 c = c := fun h => ⟨if_neg h.not_ge, if_pos h⟩
  have hneg : ∀ {c : Nat}, 2 ^ 31 ≤ c → fp32.orderKey c = 2 ^ 31 - c - 1 ∧ key32 c = 2 ^ 31 - c := fun {c} h =>
    ⟨(if_pos h).trans (by change -((c - 2 ^ 31 : Nat) : Int) - 1 = _; rw [Nat.cast_sub h]; push_cast; ring), if_neg h.not_gt⟩
  rw [below32, decide_eq_true_eq]
  rcases lt_or_ge a (2 ^ 31) with ha | ha <;> rcases lt_or_ge b (2 ^ 31) with hb | hb
  · rw [(hpos ha).1, (hpos ha).2, (hpos hb).1, (hpos hb).2]; omega
  · rw [(hpos ha).1, (hpos ha).2, (hneg hb).1, (hneg hb).2]; omega
  · rw [(hneg ha).1, (hneg ha).2, (hpos hb).1, (hpos hb).2]; omega
  · rw [(hneg ha).1, (hneg ha).2, (hneg hb).1, (hneg hb).2]; omega

theorem minMax_greater (ftz : Bool) {a b : Nat} (ha : a < 2 ^ 32) (hb : b < 2 ^ 32) : fp32.minMax ftz true a b = greater ftz a b := by
  obtain ⟨hna, hsa⟩ := fp32_read_nan ftz ha
  obtain ⟨hnb, hsb⟩ := fp32_read_nan ftz hb
  have hnan : fp32.nanCode = 0x7FC00000 := by decide
  simp only [Fmt.minMax, greater, hna, hnb, hsa, hsb, flush_eq_code32, hnan, orderKey_lt_iff (code32_lt ftz ha) (code32_lt ftz hb),
    Bool.decide_eq_true, Bool.bne_true]
  cases nan32 a <;> cases nan32 b <;> cases below32 (code32 ftz a) (code32 ftz b) <;> rfl

/-- The greater of two lanes. -/
theorem onLanes_greater (ftz : Bool) : onLanes (fp32.minMax ftz true) = onLanes (greater ftz) := by
  funext x y
  simp only [onLanes, minMax_greater ftz x.isLt y.isLt]

/-! ## The obligation -/

/-- The operations of the integer forms; none raises a flag. -/
def lesserLane (x y : Lane) : Lane × BitVec 5 := (if x.slt y then x else y, 0)
def greaterLane (x y : Lane) : Lane × BitVec 5 := (if x.slt y then y else x, 0)

theorem lesserLane_mem (x y : Lane) : (lesserLane x y).1 = x ∨ (lesserLane x y).1 = y := by
  unfold lesserLane; split_ifs <;> simp

theorem greaterLane_mem (x y : Lane) : (greaterLane x y).1 = x ∨ (greaterLane x y).1 = y := by
  unfold greaterLane; split_ifs <;> simp

theorem lesserLane_le (x y : Lane) : (lesserLane x y).1.toInt ≤ x.toInt ∧ (lesserLane x y).1.toInt ≤ y.toInt := by
  unfold lesserLane
  split_ifs with h <;> rw [BitVec.slt, decide_eq_true_eq] at h <;> dsimp only <;> omega

theorem le_greaterLane (x y : Lane) : x.toInt ≤ (greaterLane x y).1.toInt ∧ y.toInt ≤ (greaterLane x y).1.toInt := by
  unfold greaterLane
  split_ifs with h <;> rw [BitVec.slt, decide_eq_true_eq] at h <;> dsimp only <;> omega

section
variable {d a : Reg} {s : State} {c : Issue} {g : Group} (hw : g.width ∈ [16, 32, 64])
include hw

theorem vredAddI_gives (hr : Ready (.vredAddI d a) s c g) :
    GivesScalar (.vredAddI d a) s c g d (((lanesOf g.width c.mask).map (g.srcV .a a)).sum.zeroExtend 64) 0 := by
  have h : GivesScalar (.vredAddI d a) s c g d _ _ := reduceWord_of (combine := fun _ x y => (x + y, 0)) hr rfl
  rwa [reduce_sum hw, reduce_noFlags hw 0 fun _ _ => rfl] at h

theorem vredMinI_gives (hr : Ready (.vredMinI d a) s c g) :
    GivesScalar (.vredMinI d a) s c g d ((g.reduce c.mask a 0x7FFFFFFF lesserLane).1.zeroExtend 64) 0 := by
  have h : GivesScalar (.vredMinI d a) s c g d _ _ := reduceWord_of (combine := fun _ => lesserLane) hr rfl
  rwa [reduce_noFlags hw _ fun _ _ => rfl] at h

theorem vredMaxI_gives (hr : Ready (.vredMaxI d a) s c g) :
    GivesScalar (.vredMaxI d a) s c g d ((g.reduce c.mask a 0x80000000 greaterLane).1.zeroExtend 64) 0 := by
  have h : GivesScalar (.vredMaxI d a) s c g d _ _ := reduceWord_of (combine := fun _ => greaterLane) hr rfl
  rwa [reduce_noFlags hw _ fun _ _ => rfl] at h

end

/-- Settles O11: each word gives the value of the tree over its lanes; a sum is the lanes' sum whatever its order, a minimum or maximum is
a lane's value that bounds every lane's. -/
theorem reductions : Obligations.Reductions := by
  intro d a s c g hw
  refine ⟨vredAddI_gives hw, fun hr => ⟨_, vredMinI_gives hw hr, reduce_mem hw _ lesserLane_mem, fun j hj => ?min⟩,
    fun hr => ⟨_, vredMaxI_gives hw hr, reduce_mem hw _ greaterLane_mem, fun j hj => ?max⟩, fun hr => ?addF, fun hr => ?maxF⟩
  case min => exact reduce_le hw _ (fun x y => (lesserLane_le x y).1) (fun x y => (lesserLane_le x y).2) hj
  case max =>
    exact Int.neg_le_neg_iff.1 (reduce_le hw _ (key := fun x : Lane => -x.toInt) (fun x y => Int.neg_le_neg (le_greaterLane x y).1)
      (fun x y => Int.neg_le_neg (le_greaterLane x y).2) hj)
  case addF =>
    rw [← reduce_onLanes hw]
    exact reduceWord_of (combine := fun g => onLanes (fp32.addc g.rounding)) hr rfl
  case maxF =>
    rw [← reduce_onLanes hw, ← onLanes_greater]
    exact reduceWord_of (combine := fun g => onLanes (fp32.minMax g.ftz true)) hr rfl

end Sys2Proof.Machine
end

section
/-! A batch whose flags a `ctlwr` has cleared (R98), against the statement on what comes to a group by itself. -/

namespace Sys2Proof.Machine
open Sys2Proof.Safety

/-- An instruction that has executed with NV, and after whose append a `ctlwr` has cleared FLAGS (R98): it raises no flag any more. -/
def clearedOp : MatOp :=
  { seq := 0, zero := true, sparse := false, acc := 0, fmt := 0, bsel := 0, aAddr := 0, aDesc := 0, bAddr := 0, bDesc := 0, regs := [],
    foot := [], chunks := [], result := some ([], 1), raises := 0 }

def clearedBatch : Batch := { k := 0, number := 0, ops := [clearedOp] }

def batchGroup : Group := { newGroup 0 0 0 0 0 0 0 default 0 with batches := [clearedBatch] }

def batchPending : State := { State.reset with groups := [(0, batchGroup)] }

/-- The batch completes, and FLAGS stays clear. -/
theorem exec_batchComplete_batchPending :
    exec (.batchComplete 0) batchPending = .next (batchPending.setGroup 0 { batchGroup with batches := [] }) := rfl

/-- Refutes O50: of a batch that completes the statement lets every flag of its instructions merge, but one that a `ctlwr` has cleared since
the instruction was appended (`MatOp.raises`) is merged no more. -/
theorem not_groupEvents : ¬ Obligations.GroupEvents := by
  unfold Obligations.GroupEvents
  rintro ⟨-, -, -, -, -, hbatch, -⟩
  obtain ⟨g', hexec, -, -, hflags, -⟩ := hbatch batchPending 0 batchGroup clearedBatch [] rfl rfl (by decide) (by decide)
  have hg : some g' = some { batchGroup with batches := [] } := by
    rw [exec_batchComplete_batchPending] at hexec
    injection hexec with hexec
    have h := congrArg (fun s : State => s.groupAt 0) hexec
    simpa only [groupAt_setGroup_same] using h.symm
  rw [Option.some.inj hg] at hflags
  exact absurd hflags (by decide)

end Sys2Proof.Machine
end

section
/-! The lane integer words (R116 to R118, R120): each gives one vector result, so what is left to show of a word is its value in a lane. -/

namespace Sys2Proof.Machine
open Sys2Proof.Safety

/-! ## Words of one shape -/

/-- A word whose effect is one vector result of values that are `f`. -/
theorem laneWord_eq {i : Instr} {d : Reg} {f w : Group → Nat → Lane}
    (h : ∀ s, exec i s = word i s fun c g => s.vecResult c g d 1 0 fun _ j => w g j) (hw : ∀ g j, w g j = f g j) : LaneWord i d f :=
  (funext fun g => funext (hw g) : w = f) ▸ laneWord_of h

/-! ## Lane values (R116 to R118) -/

/-- Where equal lanes give the same, it does not matter on which side of a comparison they count. -/
theorem ite_lt_eq_ite_le {α β : Type} [LinearOrder α] {f : Lane → α} (hf : f.Injective) {a b : Lane} {x y : β} (h : a = b → x = y) :
    (if f a < f b then x else y) = if f a ≤ f b then x else y := by
  rcases lt_trichotomy (f a) (f b) with hlt | heq | hgt
  · rw [if_pos hlt, if_pos hlt.le]
  · rw [h (hf heq), ite_self, ite_self]
  · rw [if_neg hgt.not_gt, if_neg hgt.not_ge]

theorem ite_slt_eq_ite_le {β : Type} {a b : Lane} {x y : β} (h : a = b → x = y) :
    (if a.slt b then x else y) = if a.toInt ≤ b.toInt then x else y := by
  simpa only [BitVec.slt_iff_toInt_lt] using ite_lt_eq_ite_le (fun _ _ => BitVec.eq_of_toInt_eq) h

theorem ite_ult_eq_ite_le {β : Type} {a b : Lane} {x y : β} (h : a = b → x = y) :
    (if a < b then x else y) = if a.toNat ≤ b.toNat then x else y :=
  ite_lt_eq_ite_le (fun _ _ => BitVec.eq_of_toNat_eq) h

theorem abs_eq_ofInt_natAbs (a : Lane) : (if a.slt 0 then 0 - a else a) = BitVec.ofInt 32 a.toInt.natAbs := by
  have hneg : a.slt 0 = true ↔ a.toInt < 0 := by rw [BitVec.slt_iff_toInt_lt]; rfl
  by_cases h : a.toInt < 0
  · rw [if_pos (hneg.2 h), Int.ofNat_natAbs_of_nonpos h.le, BitVec.ofInt_neg, BitVec.ofInt_toInt]
    exact zero_sub a
  · rw [if_neg (mt hneg.1 h), Int.natAbs_of_nonneg (not_lt.1 h), BitVec.ofInt_toInt]

/-- A bit of a word that is gathered from others is a bit of one of them. -/
theorem getLsbD_foldl_or {α : Type} {w : Nat} (f : α → BitVec w) (j : Nat) (l : List α) : ∀ r : BitVec w,
    (l.foldl (fun r k => r ||| f k) r).getLsbD j = (r.getLsbD j || l.any fun k => (f k).getLsbD j) := by
  induction l with
  | nil => simp
  | cons k l ih => intro r; rw [List.foldl_cons, ih, BitVec.getLsbD_or, List.any_cons, Bool.or_assoc]

theorem bitReverse_eq_reverse (a : Lane) : bitReverse a = a.reverse := by
  apply BitVec.eq_of_getLsbD_eq
  intro j hj
  have hbit : ∀ k, (if a.getLsbD k then BitVec.ofNat 32 (2 ^ (31 - k)) else 0).getLsbD j = (a.getLsbD k && decide (31 - k = j)) := by
    intro k
    rcases a.getLsbD k
    · simp
    · rw [if_pos rfl, BitVec.getLsbD_ofNat, Nat.testBit_two_pow, decide_eq_true hj]
  have hsource : ∀ k < 32, 31 - k = j ↔ k = 31 - j := fun k hk => by omega
  have hzero : (0 : Lane).getLsbD j = false := BitVec.getLsbD_zero
  rw [bitReverse, getLsbD_foldl_or, hzero, Bool.false_or, BitVec.getLsbD_reverse, BitVec.getMsbD_eq_getLsbD, Bool.eq_iff_iff]
  simp only [hbit, List.any_eq_true, List.mem_range, Bool.and_eq_true, decide_eq_true_eq, hj, true_and]
  constructor
  · rintro ⟨k, hk, hak, hkj⟩
    exact (hsource k hk).1 hkj ▸ hak
  · exact fun h => ⟨31 - j, by omega, h, by omega⟩

theorem laneByte_eq_extractLsb' (a : Lane) (k : Nat) : laneByte a k = a.extractLsb' (8 * k) 8 := by
  apply BitVec.eq_of_toNat_eq
  rw [laneByte_toNat, BitVec.extractLsb'_toNat, Nat.shiftRight_eq_div_pow]

/-- Words added up one by one from numbers come to the word of the numbers' sum. -/
theorem foldl_add_eq_add_sum {α β : Type} [AddCommMonoid α] {w : Nat} {φ : α → BitVec w} (hzero : φ 0 = 0)
    (hadd : ∀ x y, φ (x + y) = φ x + φ y) (f : β → α) (l : List β) :
    ∀ acc, l.foldl (fun r k => r + φ (f k)) acc = acc + φ (l.map f).sum := by
  induction l with
  | nil => intro acc; simp [hzero]
  | cons k l ih => intro acc; rw [List.foldl_cons, ih, List.map_cons, List.sum_cons, hadd, add_assoc]

theorem dp4_eq (acc a b : Lane) : dp4 acc a b = acc +
    BitVec.ofInt 32 (((List.range 4).map fun k => (a.extractLsb' (8 * k) 8).toInt * (b.extractLsb' (8 * k) 8).toInt).sum) := by
  rw [← foldl_add_eq_add_sum (φ := BitVec.ofInt 32) rfl (fun _ _ => BitVec.ofInt_add _ _)]
  simp only [dp4, laneByte_eq_extractLsb', BitVec.ofInt_mul]
  rfl

theorem dp4n_eq (acc a b : Lane) : dp4n acc a b = acc +
    BitVec.ofNat 32 (((List.range 4).map fun k => (a.extractLsb' (8 * k) 8).toNat * (b.extractLsb' (8 * k) 8).toNat).sum) := by
  rw [← foldl_add_eq_add_sum (φ := BitVec.ofNat 32) rfl (fun _ _ => BitVec.ofNat_add _ _)]
  simp only [dp4n, laneByte_eq_extractLsb', BitVec.ofNat_mul, BitVec.ofNat_toNat]

/-! ## The obligation -/

/-- Settles O3: the effect of every word is one vector result; its value is the statement's by definition, or by the lemma on it. -/
theorem laneArithmetic : Obligations.LaneArithmetic := by
  refine ⟨?vadd, ?vsub, ?vmul, ?vmulhI, ?vmulhN, ?vmad, ?vminI, ?vminN, ?vmaxI, ?vmaxN, ?vabs, ?vand, ?vor, ?vxor, ?vandn, ?vaddi, ?vandi,
    ?vori, ?vxori, ?vmovi, ?vshl, ?vshr, ?vsra, ?vshli, ?vshri, ?vsrai, ?vclz, ?vpop, ?vbrev, ?vsel, ?vdp4I, ?vdp4N⟩
  case vminI | vmaxI => exact fun _ _ _ => laneWord_eq (fun _ => rfl) fun _ _ => ite_slt_eq_ite_le fun h => by rw [h]
  case vminN | vmaxN => exact fun _ _ _ => laneWord_eq (fun _ => rfl) fun _ _ => ite_ult_eq_ite_le fun h => by rw [h]
  case vabs => exact fun _ _ => laneWord_eq (fun _ => rfl) fun _ _ => abs_eq_ofInt_natAbs _
  case vbrev => exact fun _ _ => laneWord_eq (fun _ => rfl) fun _ _ => bitReverse_eq_reverse _
  case vdp4I => exact fun _ _ _ => laneWord_eq (fun _ => rfl) fun _ _ => dp4_eq ..
  case vdp4N => exact fun _ _ _ => laneWord_eq (fun _ => rfl) fun _ _ => dp4n_eq ..
  case vmovi | vclz | vpop => exact fun _ _ => laneWord_of fun _ => rfl
  all_goals exact fun _ _ _ => laneWord_of fun _ => rfl

end Sys2Proof.Machine
end

section
/-! The cross-lane words (R129 to R134): a lane receives its source lane's value, the sum of the active lanes up to it, or a scalar. -/

namespace Sys2Proof.Machine
open Sys2Proof.Safety

/-! ## Words of one shape -/

/-- Only the lanes below the width count. -/
theorem givesLanes_congr {i : Instr} {s : State} {c : Issue} {g : Group} {d : Reg} {n : Nat} {f f' : Nat → Nat → Lane} {fl : BitVec 5}
    (h : GivesLanes i s c g d n f fl) (hf : ∀ k j, j < g.width → f k j = f' k j) : GivesLanes i s c g d n f' fl := by
  obtain ⟨hnone, hsome⟩ := h
  refine ⟨hnone, fun hm => ?_⟩
  obtain ⟨t, r, hexec, hissued, hdest, hmask, hflags, hready, hvals⟩ := hsome hm
  exact ⟨t, r, hexec, hissued, hdest, hmask, hflags, hready, fun k j hk hj hb => hf k j hj ▸ hvals k j hk hj hb⟩

theorem givesScalar_of {i : Instr} {s : State} {c : Issue} {g : Group} {d : Reg} {v : Scalar} {fl : BitVec 5}
    (h : exec i s = .next (s.scalResult c g d [v] fl)) : GivesScalar i s c g d v fl := by
  obtain ⟨r, hissued, hdest, hvals, hflags, hready⟩ := scalResult_issued s c g d [v] fl
  exact ⟨_, r, h, hissued, hdest, hvals, hflags, hready⟩

/-! ## The sum of a scan (R132) -/

theorem prefixSum_eq (g : Group) (m : Mask) (a : Reg) (j : Nat) :
    g.prefixSum m a j = (((List.range (j + 1)).filter fun i => m.getLsbD i).map (g.srcV .a a)).sum :=
  List.sum_eq_foldl.symm

/-! ## The obligation -/

/-- Settles O10: a source lane is read by `laneAt`, which a rotation never asks for a lane at or above the width; the sum of a scan and the mask
of a ballot by the lemmas on lists of lanes. -/
theorem crossLaneWords : Obligations.CrossLaneWords := by
  refine ⟨fun d a b => laneWord_of fun _ => rfl, fun d a b s c g hr => ?vrot, fun d a b => laneWord_of fun _ => rfl,
    fun d a => laneWord_of fun _ => rfl, fun d a s c g hr => ?vscan, fun d a b => ?smovv, fun d a s c g hr => ?vballot⟩
  case vrot => exact givesLanes_congr (givesLanes_of (word_ready hr _)) fun _ j hj => if_pos (Nat.mod_lt _ (by omega))
  case vscan => exact givesLanes_congr (givesLanes_of (word_ready hr _)) fun _ j _ => prefixSum_eq ..
  case smovv => exact scalarWord_eq (fun _ => rfl) fun _ _ g => apply_ite (BitVec.zeroExtend 64) ..
  case vballot =>
    refine ⟨_, givesScalar_of (word_ready hr _), fun j hj => ?_⟩
    rw [getLsbD_maskOf _ hj]
    simp [mem_lanesOf]

end Sys2Proof.Machine
end

section
/-! The lane compares (R119, R124): what a compare writes at issue, and how FP32 codes compare. -/

namespace Sys2Proof.Machine
open Sys2Proof.Safety

/-! ## Compares at issue (R46, R119, R171) -/

theorem bumpGen_frame (g : Group) (k : Nat) : { g.bumpGen k with gens := g.gens, results := g.results } = g := rfl

/-- A group after a compare of truth `p` and flags `fl` under mask `m`. -/
def Group.compared (g : Group) (m : Mask) (fl : BitVec 5) (p : Nat → Bool) : Group :=
  (({ g with cm := (g.cm &&& ~~~m) ||| maskOf ((lanesOf g.width m).filter p) } : Group).bumpGen 2048).mergeFlags fl

section
variable (s : State) {c : Issue} (g : Group) (fl : BitVec 5) (p : Nat → Bool)

theorem compare_none (h : c.mask = 0) : s.compare c g fl p = s := if_pos h

theorem compare_some (h : c.mask ≠ 0) : s.compare c g fl p = s.setGroup c.gid (g.compared c.mask fl p) := if_neg h

end

section
variable (g : Group) (m : Mask) (fl : BitVec 5) (p : Nat → Bool)

/-- The condition mask after a compare: the active lanes as the compare says, the others as they were. -/
theorem getLsbD_cm_compared {j : Nat} (hj : j < 64) : (g.compared m fl p).cm.getLsbD j =
    if j < g.width ∧ m.getLsbD j = true then p j else g.cm.getLsbD j && !m.getLsbD j := by
  change ((g.cm &&& ~~~m) ||| maskOf ((lanesOf g.width m).filter p)).getLsbD j = _
  rw [BitVec.getLsbD_or, BitVec.getLsbD_and, BitVec.getLsbD_not, getLsbD_maskOf _ hj, decide_eq_true hj, Bool.true_and]
  by_cases h : j < g.width ∧ m.getLsbD j = true <;> simp [h, mem_lanesOf]

@[simp] theorem flags_compared : (g.compared m fl p).flags = g.flags ||| fl := rfl

theorem results_compared : (g.compared m fl p).results.map (fun r => { r with past := [] }) = g.results.map fun r => { r with past := [] } :=
  bumpGen_results { g with cm := (g.cm &&& ~~~m) ||| maskOf ((lanesOf g.width m).filter p) } 2048

theorem compared_frame : { g.compared m fl p with cm := g.cm, flags := g.flags, gens := g.gens, results := g.results } = g :=
  congrArg (fun x : Group => { x with cm := g.cm, flags := g.flags })
    (bumpGen_frame { g with cm := (g.cm &&& ~~~m) ||| maskOf ((lanesOf g.width m).filter p) } 2048)

end

/-- A word whose effect is a compare of truth `p` and flags `fl`. -/
theorem compareWord_of {i : Instr} {p q : Group → Nat → Bool} {fl : Group → Mask → BitVec 5}
    (h : ∀ s, exec i s = word i s fun c g => s.compare c g (fl g c.mask) (q g)) (hp : ∀ g j, q g j = p g j) : CompareWord i p fl := by
  obtain rfl : q = p := funext fun g => funext (hp g)
  intro s c g hr
  have hexec := (h s).trans (word_ready hr _)
  refine ⟨fun hm => ?_, fun hm => ⟨g.compared c.mask (fl g c.mask) (q g), ?_, ?_, ?_, ?_, ?_⟩⟩
  · rw [hexec, compare_none s g _ _ hm]
  · rw [hexec, compare_some s g _ _ hm]
  · exact fun j hj => getLsbD_cm_compared _ _ _ _ hj
  · exact flags_compared ..
  · exact results_compared ..
  · exact compared_frame ..

/-! ## FP32 codes compared (R96, R124) -/

theorem valueKey_eq_key32 (c : Nat) : fp32.valueKey c = key32 c := by
  have hsign : fp32.signBit = 2 ^ 31 := by decide
  rw [Fmt.valueKey, key32, hsign]
  split_ifs <;> omega

theorem signal32_of_not_nan {c : Nat} (h : nan32 c = false) : signal32 c = 0 := by simp [signal32, h]

theorem signals_of_not_nan {a b : Nat} (h : (nan32 a || nan32 b) = false) : signal32 a ||| signal32 b = 0 := by
  obtain ⟨hna, hnb⟩ := Bool.or_eq_false_iff.1 h
  rw [signal32_of_not_nan hna, signal32_of_not_nan hnb, BitVec.or_self]

section
variable (ftz : Bool) {a b : Nat} (ha : a < 2 ^ 32) (hb : b < 2 ^ 32)
include ha hb

/-- A compare with a NaN operand: false, but for `un`, and invalid as R124 says. -/
theorem relate_of_nan (h : (nan32 a || nan32 b) = true) :
    fp32.relate ftz .eq a b = (false, signal32 a ||| signal32 b) ∧ fp32.relate ftz .un a b = (true, signal32 a ||| signal32 b) ∧
    fp32.relate ftz .lt a b = (false, 1) ∧ fp32.relate ftz .le a b = (false, 1) := by
  obtain ⟨hna, hsa⟩ := fp32_read_nan ftz ha
  obtain ⟨hnb, hsb⟩ := fp32_read_nan ftz hb
  have hnan : nan32 a = true ∨ nan32 b = true := (Bool.or_eq_true _ _).mp h
  simp only [Fmt.relate, hna, hsa, hnb, hsb, if_pos hnan, flagNV, true_and]

/-- A compare of two numbers: their order, and no flag. -/
theorem relate_of_not_nan (h : (nan32 a || nan32 b) = false) :
    fp32.relate ftz .eq a b = (decide (key32 (code32 ftz a) = key32 (code32 ftz b)), 0) ∧ fp32.relate ftz .un a b = (false, 0) ∧
    fp32.relate ftz .lt a b = (decide (key32 (code32 ftz a) < key32 (code32 ftz b)), 0) ∧
    fp32.relate ftz .le a b = (decide (key32 (code32 ftz a) ≤ key32 (code32 ftz b)), 0) := by
  have hnan : ¬ (nan32 a = true ∨ nan32 b = true) := by rw [← Bool.or_eq_true, h]; decide
  simp only [Fmt.relate, (fp32_read_nan ftz ha).1, (fp32_read_nan ftz hb).1, if_neg hnan, valueKey_eq_key32, flush_eq_code32, and_self]

/-- The truth of each compare and its flags, NaN operands or not. -/
theorem relate_spec :
    fp32.relate ftz .eq a b =
      (!(nan32 a || nan32 b) && decide (key32 (code32 ftz a) = key32 (code32 ftz b)), signal32 a ||| signal32 b) ∧
    fp32.relate ftz .un a b = (nan32 a || nan32 b, signal32 a ||| signal32 b) ∧
    fp32.relate ftz .lt a b = (!(nan32 a || nan32 b) && decide (key32 (code32 ftz a) < key32 (code32 ftz b)),
      if nan32 a || nan32 b then 1 else 0) ∧
    fp32.relate ftz .le a b = (!(nan32 a || nan32 b) && decide (key32 (code32 ftz a) ≤ key32 (code32 ftz b)),
      if nan32 a || nan32 b then 1 else 0) := by
  rcases h : nan32 a || nan32 b
  · rw [signals_of_not_nan h]
    exact relate_of_not_nan ftz ha hb h
  · exact relate_of_nan ftz ha hb h

end

/-- A word whose effect is the float compare of relation `r`, of truth `p` and flag `f` in each lane. -/
theorem floatCompareWord_of {i : Instr} {r : Rel} {a b : Reg} {p : Group → Nat → Bool} {f : Group → Nat → BitVec 5}
    (h : ∀ s, exec i s = word i s fun c g => s.floatCompare c g r a b)
    (hr : ∀ g j, fp32.relate g.ftz r (g.srcV .a a j).toNat (g.srcV .b b j).toNat = (p g j, f g j)) :
    CompareWord i p fun g m => joinFlags ((lanesOf g.width m).map (f g)) := by
  have hflag : ∀ g, f g = fun j => (fp32.relate g.ftz r (g.srcF .a a j) (g.srcF .b b j)).2 := fun g =>
    funext fun j => congrArg Prod.snd (hr g j).symm
  have htruth : ∀ g j, (fp32.relate g.ftz r (g.srcF .a a j) (g.srcF .b b j)).1 = p g j := fun g j => congrArg Prod.fst (hr g j)
  simp only [hflag]
  exact compareWord_of h htruth

/-! ## The obligation -/

/-- Settles O4: the effect of every word is one compare; its truth in a lane is the statement's by definition, or by `relate_spec`,
which gives the float compares their flags too. -/
theorem laneCompares : Obligations.LaneCompares := by
  refine ⟨fun a b => ?vcmpEq, fun a b => ?vcmpNe, fun a b => ?vcmpLtI, fun a b => ?vcmpLtN, fun a b => ?vcmpLeI, fun a b => ?vcmpLeN,
    fun a b => ?vfcmpEq, fun a b => ?vfcmpUn, fun a b => ?vfcmpLt, fun a b => ?vfcmpLe⟩
  case vcmpEq => exact compareWord_of (fun _ => rfl) fun _ _ => beq_eq_decide ..
  case vcmpNe => exact compareWord_of (fun _ => rfl) fun _ _ => by rw [bne, beq_eq_decide, decide_not]
  case vcmpLtI | vcmpLtN | vcmpLeI | vcmpLeN => exact compareWord_of (fun _ => rfl) fun _ _ => rfl
  case vfcmpEq =>
    refine floatCompareWord_of (fun _ => rfl) fun g j => ?_
    obtain ⟨heq, -⟩ := relate_spec g.ftz (g.srcV .a a j).isLt (g.srcV .b b j).isLt
    exact heq
  case vfcmpUn =>
    refine floatCompareWord_of (fun _ => rfl) fun g j => ?_
    obtain ⟨-, hun, -⟩ := relate_spec g.ftz (g.srcV .a a j).isLt (g.srcV .b b j).isLt
    exact hun
  case vfcmpLt =>
    refine floatCompareWord_of (fun _ => rfl) fun g j => ?_
    obtain ⟨-, -, hlt, -⟩ := relate_spec g.ftz (g.srcV .a a j).isLt (g.srcV .b b j).isLt
    exact hlt
  case vfcmpLe =>
    refine floatCompareWord_of (fun _ => rfl) fun g j => ?_
    obtain ⟨-, -, -, hle⟩ := relate_spec g.ftz (g.srcV .a a j).isLt (g.srcV .b b j).isLt
    exact hle

end Sys2Proof.Machine
end

section
/-! The lane float words (R121 to R123, R125 to R127): each gives one result with its flags, the sign operations without. -/

namespace Sys2Proof.Machine
open Sys2Proof.Safety

/-! ## Words of one shape -/

/-- A word whose effect is one float result of values that are `f`. -/
theorem floatWord_eq {i : Instr} {d : Reg} {n : Nat} {f w : Group → Nat → Nat → Nat × BitVec 5}
    (h : ∀ s, exec i s = word i s fun c g => s.floatResult c g d n (w g)) (hw : ∀ g k j, w g k j = f g k j) : FloatWord i d n f :=
  (funext fun g => funext fun k => funext (hw g k) : w = f) ▸ floatWord_of h

/-! ## Minimum, maximum and signs (R122, R123) -/

theorem minMax_lesser (ftz : Bool) {a b : Nat} (ha : a < 2 ^ 32) (hb : b < 2 ^ 32) : fp32.minMax ftz false a b = lesser ftz a b := by
  obtain ⟨hna, hsa⟩ := fp32_read_nan ftz ha
  obtain ⟨hnb, hsb⟩ := fp32_read_nan ftz hb
  have hnan : fp32.nanCode = 0x7FC00000 := by decide
  simp only [Fmt.minMax, lesser, hna, hnb, hsa, hsb, flush_eq_code32, hnan, orderKey_lt_iff (code32_lt ftz ha) (code32_lt ftz hb),
    Bool.decide_eq_true, Bool.bne_false]
  cases nan32 a <;> cases nan32 b <;> cases below32 (code32 ftz a) (code32 ftz b) <;> rfl

/-- Clearing bit 31 leaves the 31 others. -/
theorem and_low31_eq (a : Lane) : a &&& 0x7FFFFFFF = (a.setWidth 31).zeroExtend 32 := by
  apply BitVec.eq_of_getLsbD_eq
  intro j hj
  have hconst : (0x7FFFFFFF : Lane).getLsbD j = decide (j < 31) := by
    change (BitVec.ofNat 32 (2 ^ 31 - 1)).getLsbD j = _
    rw [BitVec.getLsbD_ofNat, Nat.testBit_two_pow_sub_one, decide_eq_true hj, Bool.true_and]
  rw [BitVec.getLsbD_and, hconst, BitVec.zeroExtend, BitVec.getLsbD_setWidth, BitVec.getLsbD_setWidth, decide_eq_true hj, Bool.true_and,
    Bool.and_comm]

/-- Inverting bit 31 leaves the 31 others. -/
theorem xor_sign_eq (a : Lane) : a ^^^ 0x80000000 = BitVec.ofBool (!a.getLsbD 31) ++ a.setWidth 31 := by
  apply BitVec.eq_of_getLsbD_eq
  intro j hj
  have hconst : (0x80000000 : Lane).getLsbD j = decide (31 = j) := by
    change (BitVec.ofNat 32 (2 ^ 31)).getLsbD j = _
    rw [BitVec.getLsbD_ofNat, Nat.testBit_two_pow, decide_eq_true hj, Bool.true_and]
  rw [BitVec.getLsbD_xor, hconst, BitVec.getLsbD_append, BitVec.getLsbD_setWidth]
  rcases (Nat.lt_succ_iff_lt_or_eq.1 hj) with hlow | rfl
  · simp [hlow, hlow.ne']
  · simp

/-! ## The obligation -/

/-- Settles O5: the effect of every word is one result; its value is the statement's by definition, or by the lemma on it. -/
theorem floatArithmetic : Obligations.FloatArithmetic := by
  refine ⟨?vfadd, ?vfsub, ?vfmul, ?vffma, ?vhadd, ?vhmul, ?vhfma, ?vbadd, ?vbmul, ?vbfma, ?vfmin, ?vfmax, ?vfabs, ?vfneg, ?vfrcp, ?vfsqrt,
    ?vfrsq, ?vfexp2, ?vflog2, ?vftanh⟩
  case vfmin => exact fun _ _ _ => floatWord_eq (fun _ => rfl) fun _ _ _ => minMax_lesser _ (BitVec.isLt _) (BitVec.isLt _)
  case vfmax => exact fun _ _ _ => floatWord_eq (fun _ => rfl) fun _ _ _ => minMax_greater _ (BitVec.isLt _) (BitVec.isLt _)
  case vfabs => exact fun _ _ => laneWord_eq (fun _ => rfl) fun _ _ => and_low31_eq _
  case vfneg => exact fun _ _ => laneWord_eq (fun _ => rfl) fun _ _ => xor_sign_eq _
  case vfrcp | vfsqrt | vfrsq | vfexp2 | vflog2 | vftanh => exact fun _ _ => floatWord_of fun _ => rfl
  all_goals exact fun _ _ _ => floatWord_of fun _ => rfl

end Sys2Proof.Machine
end

section
/-! The mask stack and the planes (R39, R167, R168, R172, R182): what their words write at issue. -/

namespace Sys2Proof.Machine
open Sys2Proof.Safety

/-! ## The mask stack (R167) -/

theorem widthMask_eq_ofNat (w : Nat) (m : Mask) : widthMask w m = BitVec.ofNat 64 (m.toNat % 2 ^ w) := by
  apply BitVec.eq_of_getLsbD_eq
  intro j hj
  rw [getLsbD_widthMask w m hj, BitVec.getLsbD_ofNat, Nat.testBit_mod_two_pow, decide_eq_true hj, Bool.true_and]
  rfl

section
variable {s : State} {c : Issue} {g : Group}

theorem exec_velse_empty (hr : Ready .velse s c g) (h : g.stack = []) : exec .velse s = .next (s.trapWord c g 4 0 0 0) :=
  (word_ready hr _).trans (by rw [h, List.getLast?_nil])

theorem exec_velse_top (hr : Ready .velse s c g) {l : List Mask} {m : Mask} (h : g.stack = l ++ [m]) :
    exec .velse s = .next (s.setGroup c.gid { g with xm := widthMask g.width (m &&& ~~~g.xm) }) :=
  (word_ready hr _).trans (by rw [h, List.getLast?_concat])

theorem exec_vendif_empty (hr : Ready .vendif s c g) (h : g.stack = []) : exec .vendif s = .next (s.trapWord c g 4 0 0 0) :=
  (word_ready hr _).trans (by rw [h, List.getLast?_nil])

theorem exec_vendif_top (hr : Ready .vendif s c g) {l : List Mask} {m : Mask} (h : g.stack = l ++ [m]) :
    exec .vendif s = .next (s.setGroup c.gid { g with xm := widthMask g.width m, stack := l }) :=
  (word_ready hr _).trans (by rw [h, List.getLast?_concat, List.dropLast_concat])

end

/-- Settles O12: the stack is empty or ends in its top entry; a mask at the width is its number modulo the power of two. -/
theorem maskStackWords : Obligations.MaskStackWords := by
  refine ⟨fun s c g hr => ?vif, fun s c g hr => ⟨exec_velse_empty hr, fun l m h => ?velse⟩,
    fun s c g hr => ⟨exec_vendif_empty hr, fun l m h => ?vendif⟩, fun a => groupWord_of fun s => ?xmset, fun d => scalarWord_of fun _ => rfl⟩
  case vif => exact (word_ready hr _).trans rfl
  case velse => rw [← widthMask_eq_ofNat]; exact exec_velse_top hr h
  case vendif => rw [← widthMask_eq_ofNat]; exact exec_vendif_top hr h
  case xmset => simp only [← widthMask_eq_ofNat]; rfl

/-! ## Lanes put into planes (R182) -/

theorem planeOf_setPlane_same (g : Group) (i p : Nat) : (g.setPlane i p).planeOf i = p := by
  unfold Group.setPlane Group.planeOf
  split
  · next h => rw [at?_drop_same, h]; rfl
  · rw [Table.at?_put_same]; rfl

theorem planeOf_setPlane_other (g : Group) {i j : Nat} (p : Nat) (h : j ≠ i) : (g.setPlane i p).planeOf j = g.planeOf j := by
  unfold Group.setPlane Group.planeOf
  split
  · rw [at?_drop_other _ h]
  · rw [Table.at?_put_other _ _ h]

/-- The group with each lane of a list in the plane that `f` names. -/
def Group.setPlanes (g : Group) (f : Nat → Nat) (l : List Nat) : Group := l.foldl (fun x i => x.setPlane i (f i)) g

theorem planeOf_setPlanes (f : Nat → Nat) (j : Nat) (l : List Nat) : ∀ g : Group,
    (g.setPlanes f l).planeOf j = if j ∈ l then f j else g.planeOf j := by
  induction l with
  | nil => exact fun _ => rfl
  | cons i l ih =>
    intro g
    refine (ih (g.setPlane i (f i))).trans ?_
    by_cases hl : j ∈ l
    · rw [if_pos hl, if_pos (List.mem_cons_of_mem i hl)]
    · by_cases hi : j = i
      · subst hi
        rw [if_neg hl, if_pos (List.mem_cons_self ..), planeOf_setPlane_same]
      · rw [if_neg hl, if_neg (by simp [hi, hl]), planeOf_setPlane_other g _ hi]

theorem setPlanes_frame (f : Nat → Nat) (l : List Nat) : ∀ g : Group, { g.setPlanes f l with pl := g.pl } = g := by
  induction l with
  | nil => exact fun _ => rfl
  | cons i l ih => exact fun g => congrArg (fun x : Group => { x with pl := g.pl }) (ih (g.setPlane i (f i)))

/-- A word whose effect is to move the issuing lanes that `sel` picks into the planes that `p` names. -/
theorem planeWord_of {i : Instr} {sel : Group → Nat → Bool} {p : Group → Nat → Nat}
    (h : ∀ s, exec i s = word i s fun c g => s.movePlanes c g (sel g) (p g)) : PlaneWord i sel p := by
  intro s c g hr
  refine ⟨g.setPlanes (p g) ((lanesOf g.width c.mask).filter (sel g)), (h s).trans (word_ready hr _), fun j _ => ?_, setPlanes_frame ..⟩
  rw [planeOf_setPlanes]
  simp only [List.mem_filter, mem_lanesOf, and_assoc]

/-- The group with CM set to the lanes of XM in a plane, as a write at issue. -/
def Group.maskedTo (g : Group) (p : Nat) : Group :=
  ({ g with cm := maskOf ((lanesOf g.width g.xm).filter fun i => decide (g.planeOf i = p)) } : Group).bumpGen 2048

theorem getLsbD_cm_maskedTo (g : Group) (p : Nat) {j : Nat} (hj : j < 64) :
    (g.maskedTo p).cm.getLsbD j = (decide (j < g.width) && g.xm.getLsbD j && decide (g.planeOf j = p)) := by
  refine (getLsbD_maskOf _ hj).trans ?_
  simp [mem_lanesOf, Bool.decide_and]

theorem maskedTo_frame (g : Group) (p : Nat) : { g.maskedTo p with cm := g.cm, gens := g.gens, results := g.results } = g :=
  congrArg (fun x : Group => { x with cm := g.cm }) (bumpGen_frame { g with cm := (g.maskedTo p).cm } 2048)

/-- The planes that lanes of XM lie in. -/
theorem getLsbD_occupied (g : Group) {p : Nat} (hp : p < 64) : (maskOf ((lanesOf g.width g.xm).map g.planeOf)).getLsbD p = true ↔
    ∃ j < g.width, g.xm.getLsbD j = true ∧ g.planeOf j = p := by
  rw [getLsbD_maskOf _ hp, decide_eq_true_iff, List.mem_map]
  simp only [mem_lanesOf, and_assoc]

/-- Settles O13: `plset`, `plsel` and `pljoin` move the lanes of a list into planes (`planeOf_setPlanes`), `plmask` and `plocc` read the planes
of XM's lanes. -/
theorem planeWords : Obligations.PlaneWords := by
  refine ⟨fun a => planeWord_of fun _ => rfl, fun l => planeWord_of fun _ => rfl, planeWord_of fun _ => rfl, fun l s c g hr => ?plmask,
    fun d s c g hr => ?plocc⟩
  case plmask =>
    exact ⟨g.maskedTo l.toNat, word_ready hr _, fun j hj => getLsbD_cm_maskedTo g _ hj, bumpGen_results _ 2048, maskedTo_frame g _⟩
  case plocc => exact ⟨_, givesScalar_of (word_ready hr _), fun p hp => getLsbD_occupied g hp⟩

end Sys2Proof.Machine
end

section
/-! The divergence stack in memory, and `vpref` (R87, R169, R209): what a word's own read and a prefetch can change, and what a word's own
read comes to. -/

namespace Sys2Proof.Machine
open Sys2Proof.Safety

/-! ## What a fetch leaves alone (R203, R207, R209, R215) -/

/-- `t` is `s` but for the times of lines, what cores and slices hold cached, and what homes ask of hosts. -/
def FetchedOnly (s t : State) : Prop :=
  { t with lines := s.lines, cores := s.cores, slices := s.slices, prefetches := s.prefetches, asks := s.asks } = s

theorem FetchedOnly.refl (s : State) : FetchedOnly s s := rfl

theorem FetchedOnly.trans {s t u : State} (h : FetchedOnly s t) (k : FetchedOnly t u) : FetchedOnly s u :=
  Eq.trans (congrArg (fun x : State =>
    { x with lines := s.lines, cores := s.cores, slices := s.slices, prefetches := s.prefetches, asks := s.asks }) (show _ = t from k)) h

theorem FetchedOnly.groupAt {s t : State} (h : FetchedOnly s t) (k : Nat) : t.groupAt k = s.groupAt k :=
  (congrArg (fun x : State => x.groupAt k) h :)

theorem FetchedOnly.cur {s t : State} (h : FetchedOnly s t) : t.cur = s.cur := (congrArg State.cur h :)

/-- What each step of a fold leaves alone, the fold leaves alone. -/
theorem fetchedOnly_foldl {α β : Type} {f : β → α → β} (π : β → State) (hf : ∀ b a, FetchedOnly (π b) (π (f b a))) (l : List α) :
    ∀ b, FetchedOnly (π b) (π (l.foldl f b)) := by
  induction l with
  | nil => exact fun b => FetchedOnly.refl _
  | cons a l ih => exact fun b => (hf b a).trans (ih _)

section
variable (s : State) (ctx core c lease : Nat) (p : Place)

theorem fetchedOnly_setLine (x : Line) : FetchedOnly s (s.setLine p x) := by
  unfold State.setLine
  split <;> rfl

theorem fetchedOnly_holdLine : FetchedOnly s (s.holdLine ctx p) := by
  unfold State.holdLine
  split
  · rfl
  · dsimp only
    split <;> rfl

theorem fetchedOnly_renewAtHome (upTo : Nat) : FetchedOnly s (s.renewAtHome ctx p upTo).1 :=
  (fetchedOnly_setLine s p _).trans (fetchedOnly_holdLine _ ctx p)

theorem fetchedOnly_keepCopy (x : CopyLine) : FetchedOnly s (s.keepCopy core x) := by
  unfold State.keepCopy
  split <;> rfl

theorem fetchedOnly_fillCopy : FetchedOnly s (s.fillCopy ctx core c lease p).1 :=
  (fetchedOnly_renewAtHome s ctx p _).trans (fetchedOnly_keepCopy _ core _)

theorem fetchedOnly_readCopy (n : Nat) : FetchedOnly s (s.readCopy ctx core c lease p n).1 := by
  unfold State.readCopy
  dsimp only
  split
  · rfl
  · split
    · exact fetchedOnly_keepCopy s core _
    · exact fetchedOnly_fillCopy s ctx core c lease p

theorem fetchedOnly_readHome (n : Nat) : FetchedOnly s (s.readHome ctx c lease p n).1 := fetchedOnly_renewAtHome s ctx p _

theorem fetchedOnly_performLane (x : Load) (l : LoadLane) : FetchedOnly s (s.performLane ctx core x l).1 := by
  unfold State.performLane
  dsimp only
  split_ifs
  · rfl
  · rfl
  · exact fetchedOnly_readHome ..
  · exact fetchedOnly_readCopy ..
  · rfl
  · rfl

theorem fetchedOnly_performLoad (x : Load) : FetchedOnly s (s.performLoad ctx core x).1 :=
  fetchedOnly_foldl Prod.fst (fun e l => fetchedOnly_performLane e.1 ctx core e.2 l) _ (s, x)

theorem fetchedOnly_translate (va : Nat) (write : Bool) : FetchedOnly s (s.translate core ctx va write).1 := by
  rcases translate_state s core ctx va write with h | ⟨l, h⟩ <;> rw [h] <;> rfl

/-- A prefetch fills its sector at once, is dropped, or waits for its home, which asks for the line. -/
theorem fetchedOnly_fillSector (x : Prefetch) : FetchedOnly s (s.fillSector x) := by
  unfold State.fillSector
  split
  · exact fetchedOnly_fillCopy ..
  · split <;> rfl

theorem fetchedOnly_prefetch (gid : Nat) (g : Group) (a : Scalar) : FetchedOnly s (s.prefetch gid g a) := by
  unfold State.prefetch
  split
  · next va _ =>
    have ht := fetchedOnly_translate s g.ctx g.core va false
    split
    · next h => rw [h] at ht; exact ht.trans (fetchedOnly_fillSector _ _)
    all_goals rfl
  all_goals rfl

end

/-! ## `vpref` (R87, R209) -/

/-- No register, no hazard. -/
theorem regHazard_nil (g : Group) : g.regHazard [] = none := by
  have hnone : g.pendingOps.find? (fun o => ([] : List Nat).any fun p => o.1.regs.contains p) = none :=
    List.find?_eq_none.2 fun _ _ => Bool.false_ne_true
  simp only [Group.regHazard, hnone]

/-- `vpref` writes no register: no operand hazard, and no generation to wait for. -/
theorem word_vpref {a b : Reg} {s : State} {c : Issue} {g : Group} (hc : s.cur = some c) (hg : s.groupAt c.gid = some g)
    (hd : (Instr.vpref a b).detail = none) (k : Issue → Group → State) : word (.vpref a b) s k = .next (k c g) := by
  have hhazard : g.regHazard (vectorDests g (.vpref a b)) = none := regHazard_nil g
  simp only [word, hc, hg, excused, hd, hhazard, ite_self]
  rfl

theorem exec_vpref {a b : Reg} {s : State} {c : Issue} {g : Group} (hc : s.cur = some c) (hg : s.groupAt c.gid = some g)
    (hd : (Instr.vpref a b).detail = none) : ∃ t, exec (.vpref a b) s = .next t ∧ FetchedOnly s t := by
  refine ⟨_, word_vpref hc hg hd _, ?_⟩
  split
  · exact fetchedOnly_foldl (f := fun (t : State) (e : Nat × Scalar) => t.prefetch c.gid g e.2) id
      (fun t e => fetchedOnly_prefetch t c.gid g e.2) _ s
  · rfl

/-! ## A word's own read (R169, R302) -/

/-- The group whose wait for its own read is over. -/
def Group.afterRead (g : Group) : Group := { g with wait := .none }

/-- The state in which a word goes on with `k` behind its own read `y`, performed in `u`: its clock has risen first. -/
def readGoesOn (k : State → Group → Group → List Nat → State) (c : Issue) (g : Group) (u : State) (y : Load) : State :=
  k (u.setGroup c.gid (g.afterRead.loadClock y)) g.afterRead (g.afterRead.loadClock y) (y.data.map (·.2))

theorem askLoad_cur (s : State) (x : Load) : (s.askLoad x).cur = s.cur := askAll_cur ..

theorem groupAt_performLoad {t u : State} {ctx core : Nat} {x y : Load} (h : t.performLoad ctx core x = (u, y)) (k : Nat) :
    u.groupAt k = t.groupAt k := by
  have hu := fetchedOnly_performLoad t ctx core x
  rw [h] at hu
  exact hu.groupAt k

section
variable {i : Instr} {s t u : State} {c : Issue} {g : Group} {x y : Load} {q : Nat} {k : State → Group → Group → List Nat → State}
  {start : (State → Group → Load → State) → State} {after : State → Load → State → Prop}

theorem beginRead_ready (hr : t.loadReady x = true) (hp : t.performLoad g.ctx g.core x = (u, y)) : t.beginRead c g x k = u.readDone c y k := by
  simp only [State.beginRead, hr, hp, if_true]

theorem beginRead_waits (hc : t.cur = some c) (hr : t.loadReady x = false) : t.beginRead c g x k = waits
    (({ t with nextId := t.nextId + 1, loads := t.loads ++ [{ x with own := true }] } : State).askLoad { x with own := true })
    c g (.reading x.seq) := by
  simp only [State.beginRead, hr, Bool.false_eq_true, if_false, State.waitRead]
  refine hold_waits ?_ g _
  exact (askLoad_cur ..).trans hc

section
variable (hx : s.loads.find? (fun y => decide (y.seq = q)) = some x) (hg : s.groupAt c.gid = some g) (hcut : x.rest.any (s.cutLane x) = false)
include hx hg hcut

theorem endRead_ready (hr : s.loadReady x = true) (hp : s.performLoad g.ctx g.core x = (u, y)) :
    s.endRead c q k = ({ u with loads := u.loads.filter fun z => decide (z.seq ≠ q) } : State).readDone c y k := by
  simp only [State.endRead, hx, hg, hcut, Bool.false_eq_true, if_false, hr, if_true, hp]

theorem endRead_waits (hc : s.cur = some c) (hr : s.loadReady x = false) :
    s.endRead c q k = { s.askLoad x with cur := some { c with fate := .hold } } := by
  simp only [State.endRead, hx, hg, hcut, Bool.false_eq_true, if_false, hr]
  simp only [State.fate, askLoad_cur, hc, Option.map_some]

end

/-- A read of a word's own done: the word goes on, or consumes the poison. -/
theorem goesOn_of (h : exec i s = .next (u.readDone c y k)) (hg : u.groupAt c.gid = some g) (hk : after u y (readGoesOn k c g u y)) :
    GoesOn i s c g after u y := by
  refine ⟨fun hp => ⟨_, h.trans ?_, hk⟩, fun q hp => h.trans ?_⟩ <;> simp only [State.readDone, hg, hp]
  rfl

/-- A word that comes to a read of its own, in a state `t` in which the group has not changed. -/
theorem startsRead_of (h : exec i s = .next (t.beginRead c g x k)) (hc : t.cur = some c) (hg : t.groupAt c.gid = some g)
    (hk : ∀ u y, after u y (readGoesOn k c g u y)) : StartsRead i s t c g x after :=
  ⟨fun hr => h.trans (congrArg _ (beginRead_waits hc hr)), fun _ _ hr hp =>
    goesOn_of (h.trans (congrArg _ (beginRead_ready hr hp))) ((groupAt_performLoad hp _).trans hg) (hk _ _)⟩

/-- A word that waits for its own read. -/
theorem endsRead_of (h : ∀ q, g.wait = .reading q → exec i s = .next (s.endRead c q k)) (hc : s.cur = some c) (hg : s.groupAt c.gid = some g)
    (hk : ∀ u y, after u y (readGoesOn k c g u y)) : EndsRead i s c g after :=
  fun q _ hw hx hcut => ⟨fun hr => (h q hw).trans (congrArg _ (endRead_waits hx hg hcut hc hr)), fun _ _ hr hp =>
    goesOn_of ((h q hw).trans (congrArg _ (endRead_ready hx hg hcut hr hp))) ((groupAt_performLoad hp _).trans hg) (hk _ _)⟩

theorem ownRead_reading (h : g.wait = .reading q) : s.ownRead c g k start = s.endRead c q k := by
  simp only [State.ownRead, h]

theorem ownRead_start (h : ∀ q, g.wait ≠ .reading q) : s.ownRead c g k start = start fun s g x => s.beginRead c g x k := by
  unfold State.ownRead
  split
  · exact absurd ‹_› (h _)
  · rfl

end

/-! ## `dsave` and `dload` (R169) -/

section
variable {a : Reg} {s t : State} {c : Issue} {g : Group} {p : Place}

theorem issueStore_cur (t : State) (c : Issue) (g : Group) (ws : List (Scalar × Place × List Byte)) : (t.issueStore c g ws).cur = t.cur := by
  unfold State.issueStore
  refine List.foldlRecOn (motive := fun x : State => x.cur = t.cur) ws _ rfl fun x hx w _ => ?_
  obtain ⟨b, q, bytes⟩ := w
  dsimp only
  split
  · unfold State.bufferStore
    dsimp only
    split <;> exact hx
  · exact hx

theorem whenDone_of_done (hc : s.cur = some c) (hf : c.fate = .done) (gid : Nat) (k : Group → Group) :
    s.whenDone gid k = { s with groups := s.groups.alter gid k } := by
  simp only [State.whenDone, hc, hf, if_true]

theorem CachedOnly.cur {s t : State} (h : CachedOnly s t) : t.cur = s.cur := (congrArg State.cur h.2 :)

theorem CachedOnly.groupAt {s t : State} (h : CachedOnly s t) (k : Nat) : t.groupAt k = s.groupAt k :=
  (congrArg (fun x : State => x.groupAt k) h.2 :)

theorem reaches_cachedOnly {scalar write regs : Bool} {size : Nat} {la : List (Nat × Scalar)} {good : List Located}
    (h : Reaches s c g scalar write regs size la t good) : CachedOnly s t := by
  have := locateAll_cachedOnly c g write la s
  rw [h.located] at this
  exact this

theorem exec_dsave_empty (hr : Ready (.dsave a) s c g) (h : g.stack = []) : exec (.dsave a) s = .next s :=
  (word_ready hr _).trans (by rw [h])

theorem exec_dsave_bottom (hr : Ready (.dsave a) s c g) (hf : c.fate = .done) {m : Mask} {rest : List Mask} (h : g.stack = m :: rest)
    (hreach : Reaches s c g true true true 8 [(0, g.srcS .a a)] t [(0, g.srcS .a a, p)]) (hm : g.memHazard c.gid [(0, p, 8)] = none)
    (hroom : s.bufferRoom c.gid g.core (if p.isGlobal then [p.line] else []) = true) : exec (.dsave a) s = .next
      (let u := t.issueStore c { g with wait := .none } [(g.srcS .a a, p, toBytes m.toNat 8)]
       { u with groups := u.groups.alter c.gid fun x => { x with stack := rest } }) := by
  have hcur : t.cur = some c := (reaches_cachedOnly hreach).cur.trans hr.atIssue
  obtain ⟨ht, hl⟩ := hreach
  have hlines : linesStored [(0, g.srcS .a a, p)] = if p.isGlobal then [p.line] else [] := by
    unfold linesStored
    cases hp : p.isGlobal <;> simp [hp]
  have hstore : s.storeWord c g true 8 [(0, g.srcS .a a)] (fun _ => toBytes m.toNat 8) =
      t.issueStore c { g with wait := .none } [(g.srcS .a a, p, toBytes m.toNat 8)] :=
    (storeWord_of_located ht hl hm (hlines ▸ hroom) _).trans (access_of_good (List.cons_ne_nil _ _) ht hl _)
  refine (word_ready hr _).trans ?_
  simp only [h, hstore]
  exact congrArg _ (whenDone_of_done ((issueStore_cur ..).trans hcur) hf ..)

theorem exec_dload_full (hr : Ready (.dload a) s c g) (h : g.stack.length = 8) : exec (.dload a) s = .next s :=
  (word_ready hr _).trans (congrArg _ (if_pos h))

/-- `w` is `u` behind the read `y` of `dload`: what it has read is the group's new bottom entry. -/
def Pushed (c : Issue) (g : Group) (u : State) (y : Load) (w : State) : Prop :=
  ∀ v, y.data = [(0, v)] →
    w.groupAt c.gid = some { g.afterRead.loadClock y with stack := BitVec.ofNat 64 v :: g.stack } ∧
    (∀ k, k ≠ c.gid → w.groupAt k = u.groupAt k) ∧ { w with groups := u.groups } = u

/-- How `dload` goes on behind its read. -/
def pushRead (c : Issue) (s : State) (_ g : Group) (vs : List Nat) : State :=
  s.setGroup c.gid { g with stack := BitVec.ofNat 64 (vs.headD 0) :: g.stack }

theorem pushRead_pushed (c : Issue) (g : Group) (u : State) (y : Load) : Pushed c g u y (readGoesOn (pushRead c) c g u y) := by
  intro v hv
  simp only [readGoesOn, pushRead, hv, List.map_cons, List.map_nil, List.headD_cons]
  refine ⟨groupAt_setGroup_same .., fun k hk => ?_, rfl⟩
  exact (groupAt_setGroup_other _ _ hk).trans (groupAt_setGroup_other _ _ hk)

theorem exec_dload_start (hr : Ready (.dload a) s c g) (hs : g.stack.length ≠ 8) (hw : ∀ q, g.wait ≠ .reading q)
    (hreach : Reaches s c g true false true 8 [(0, g.srcS .a a)] t [(0, g.srcS .a a, p)]) : exec (.dload a) s =
      .next (t.beginRead c g (t.newLoad c g 8 .dword [(0, g.srcS .a a, p)]) (pushRead c)) :=
  (word_ready hr _).trans (congrArg _ ((if_neg hs).trans
    ((ownRead_start hw).trans (access_of_good (List.cons_ne_nil _ _) hreach.mapped hreach.located _))))

theorem exec_dload_reading (hr : Ready (.dload a) s c g) (hs : g.stack.length ≠ 8) {q : Nat} (hw : g.wait = .reading q) :
    exec (.dload a) s = .next (s.endRead c q (pushRead c)) :=
  (word_ready hr _).trans (congrArg _ ((if_neg hs).trans (ownRead_reading hw)))

end

/-! ## The obligation -/

/-- Settles O18: `dsave` is a store of which the bottom entry is the data, `dload` a read of the word's own (`startsRead_of`, `endsRead_of`), and
`vpref` a fold of fetches (`fetchedOnly_prefetch`). -/
theorem stackSpills : Obligations.StackSpills := by
  refine ⟨fun a s c g hf => ⟨fun hr => ⟨exec_dsave_empty hr, fun m rest t p => exec_dsave_bottom hr hf⟩, fun hr => ?dload⟩,
    fun a b s c g hc hg hd => exec_vpref hc hg hd⟩
  case dload =>
    refine ⟨exec_dload_full hr, fun hs hw t p hreach => ?start, fun hs => ?reading⟩
    case start =>
      have ht := reaches_cachedOnly hreach
      exact startsRead_of (exec_dload_start hr hs hw hreach) (ht.cur.trans hr.atIssue) ((ht.groupAt _).trans hr.group) (pushRead_pushed c g)
    case reading => exact endsRead_of (fun q => exec_dload_reading hr hs) hr.atIssue hr.group (pushRead_pushed c g)

end Sys2Proof.Machine
end

section

/-! # What every step keeps of the memories' canonical form

One invariant serves both statements: `Kept z s` says that the memories and the scratch are in canonical form in `s` if they were in `z`. Every function
of the model that gives back a state gets one lemma, `kept_<function>`, proved from those of the functions that it calls. -/

namespace Sys2Proof.Machine
open Sys2Proof.Safety

section

/-- Every grove's scratch of a table of groves is in canonical form. -/
def ScratchWf (gs : Table Grove) : Prop := ∀ e ∈ gs, e.2.scratch.wf = true

/-- What a function of the state that starts from `z` keeps: the canonical form of the memories, and that of every grove's scratch. It is
irreducible, so that a lemma about one function is never unfolded into one about the four memories. -/
@[irreducible] def Kept (z s : State) : Prop := (Canonical z → Canonical s) ∧ (ScratchCanonical z → ScratchCanonical s)

variable {z s : State}

section
variable {agenda : List Agendum} {cur : Option Issue} {time epoch nextId draws doneTime : Nat} {boot : Boot} {keys vaultLast poison ctxKeys : Table Nat}
  {zeroed : List Zeroing} {lines : Table Line} {asks : List Ask} {conflicts : List (Nat × Nat)} {cuts : List Cut} {groups : Table Group}
  {launches : Table Launch} {graphs : Table Graph} {loads : List Load} {entries : List Entry} {locals : List LocalStore} {atoms : List Atomic}
  {contribs : List Contribution} {slotWrites : List SlotWrite} {prefetches : List Prefetch} {flights : List Flight} {cores : Table Core}
  {slices : Table Slice} {channels : Table Channel} {contexts : Table Context} {glades : Table Glade} {vfs : Table Vf} {pages : Table CtxPage}
  {ports : Table Port} {links : Table Link}

/-- The one lemma about the memories themselves: a state whose memories and groves keep their form, whatever else it holds. -/
theorem kept_store (h : Kept z s) {d hm vm : Memory} {gs : Table Grove} (hd : s.dram.wf = true → d.wf = true)
    (hh : s.hostMem.wf = true → hm.wf = true) (hv : s.vaultMem.wf = true → vm.wf = true)
    (hg : ScratchWf s.groves → ScratchWf gs) :
    Kept z ⟨agenda, cur, time, epoch, nextId, draws, boot, d, keys, zeroed, hm, vm, vaultLast, lines, poison, asks, conflicts, cuts,
      doneTime, groups, gs, launches, graphs, loads, entries, locals, atoms, contribs, slotWrites, prefetches, flights, cores, slices,
      channels, contexts, ctxKeys, glades, vfs, pages, ports, links⟩ := by
  unfold Kept at *
  exact ⟨fun hz => ⟨hd (h.1 hz).1, hh (h.1 hz).2.1, hv (h.1 hz).2.2⟩, fun hz => hg (h.2 hz)⟩

/-- A state that differs in other fields only. -/
theorem kept_mk (h : Kept z s) :
    Kept z ⟨agenda, cur, time, epoch, nextId, draws, boot, s.dram, keys, zeroed, s.hostMem, s.vaultMem, vaultLast, lines, poison, asks, conflicts, cuts,
      doneTime, groups, s.groves, launches, graphs, loads, entries, locals, atoms, contribs, slotWrites, prefetches, flights, cores, slices,
      channels, contexts, ctxKeys, glades, vfs, pages, ports, links⟩ :=
  kept_store h id id id id

/-- A state that differs in its groves, not in its memories. -/
theorem kept_groves (h : Kept z s) {gs : Table Grove}
    (hg : ScratchWf s.groves → ScratchWf gs) :
    Kept z ⟨agenda, cur, time, epoch, nextId, draws, boot, s.dram, keys, zeroed, s.hostMem, s.vaultMem, vaultLast, lines, poison, asks, conflicts, cuts,
      doneTime, groups, gs, launches, graphs, loads, entries, locals, atoms, contribs, slotWrites, prefetches, flights, cores, slices,
      channels, contexts, ctxKeys, glades, vfs, pages, ports, links⟩ :=
  kept_store h id id id hg

end

theorem kept_foldl {α : Type} {f : State → α → State} (hf : ∀ s a, Kept z s → Kept z (f s a)) (l : List α) :
   ∀ {s}, Kept z s → Kept z (l.foldl f s) := by
  induction l with
  | nil => exact id
  | cons a l ih => exact fun h => ih (hf _ a h)

theorem kept_foldl_fst {α β : Type} {f : State × β → α → State × β} (hf : ∀ p a, Kept z p.1 → Kept z (f p a).1) (l : List α) :
   ∀ {p : State × β}, Kept z p.1 → Kept z (l.foldl f p).1 := by
  induction l with
  | nil => exact id
  | cons a l ih => exact fun h => ih (hf _ a h)


/-! ### The groves' scratch -/

theorem scratchWf_alter {gs : Table Grove} {f : Grove → Grove} (hf : ∀ v : Grove, v.scratch.wf = true → (f v).scratch.wf = true) (k : Nat)
    (h : ScratchWf gs) : ScratchWf (gs.alter k f) := by
  simp only [ScratchWf, Table.alter, List.forall_mem_map]
  intro e he
  split
  · exact hf _ (h e he)
  · exact h e he

theorem scratchWf_mapVals {gs : Table Grove} {f : Grove → Grove} (hf : ∀ v : Grove, v.scratch.wf = true → (f v).scratch.wf = true)
    (h : ScratchWf gs) : ScratchWf (gs.mapVals f) := by
  simp only [ScratchWf, Table.mapVals, List.forall_mem_map]
  exact fun e he => hf _ (h e he)

theorem scratchWf_filter {gs : Table Grove} (p : Nat × Grove → Bool) (h : ScratchWf gs) : ScratchWf (gs.filter p) :=
  fun e he => h e (List.mem_of_mem_filter he)

theorem scratchWf_put {gs : Table Grove} {k : Nat} {v : Grove} (hv : v.scratch.wf = true) (h : ScratchWf gs) : ScratchWf (gs.put k v) := by
  induction gs with
  | nil => simpa [ScratchWf, Table.put] using hv
  | cons e gs ih =>
    have ⟨he, hgs⟩ : e.2.scratch.wf = true ∧ ScratchWf gs := by simpa [ScratchWf] using h
    obtain ⟨i, w⟩ := e
    simp only [Table.put]
    split
    · simpa [ScratchWf, hv, he] using hgs
    · split
      · simpa [ScratchWf, hv] using hgs
      · simpa [ScratchWf, he] using ih hgs

/-! ### Pairs, branches and outcomes -/

theorem kept_fst {α : Type} {p : State × α} {t : State} {x : α} (e : p = (t, x)) (h : Kept z p.1) : Kept z t := by
  rw [e] at h
  exact h

theorem kept_pair {α : Type} {x : α} (h : Kept z s) : Kept z (s, x).1 := h

theorem kept_ite {c : Prop} [Decidable c] {a b : State} (ha : Kept z a) (hb : Kept z b) : Kept z (if c then a else b) := by
  split
  · exact ha
  · exact hb

/-- What an outcome leaves has its memories kept. -/
def KeptOut (z : State) (o : Host.Outcome State Fault Refusal) : Prop := ∀ t, o = .next t → Kept z t

theorem keptOut_next (h : Kept z s) : KeptOut z (.next s) := by
  intro t e
  cases e
  exact h

theorem keptOut_fault (f : Fault) : KeptOut z (.fault f) := by
  intro t e
  cases e

theorem keptOut_ite {c : Prop} [Decidable c] {a b : Host.Outcome State Fault Refusal} (ha : KeptOut z a) (hb : KeptOut z b) :
    KeptOut z (if c then a else b) := by
  split
  · exact ha
  · exact hb

theorem kept_fst_ite {α : Type} {c : Prop} [Decidable c] {a b : State × α} (ha : Kept z a.1) (hb : Kept z b.1) : Kept z (if c then a else b).1 := by
  split
  · exact ha
  · exact hb

/-! ## The functions of the state

One lemma for each, in the order in which the model builds them on one another. -/

theorem kept_setGroup (h : Kept z s) (gid : Nat) (g : Group) : Kept z (s.setGroup gid g) := kept_mk h

theorem kept_setContext (h : Kept z s) (c : Nat) (x : Context) : Kept z (s.setContext c x) := kept_mk h

theorem kept_setChannel (h : Kept z s) (c : Nat) (x : Channel) : Kept z (s.setChannel c x) := kept_mk h

theorem kept_setLaunch (h : Kept z s) (k : Nat) (x : Launch) : Kept z (s.setLaunch k x) := kept_mk h

theorem kept_setGrove (h : Kept z s) (k : Nat) {x : Grove} (hx : x.scratch.wf = true) : Kept z (s.setGrove k x) :=
  kept_groves h (scratchWf_put hx)

theorem kept_setGlade (h : Kept z s) (k : Nat) (x : Glade) : Kept z (s.setGlade k x) := kept_mk h

theorem kept_setCore (h : Kept z s) (k : Nat) (x : Core) : Kept z (s.setCore k x) := kept_mk h

theorem kept_setSlice (h : Kept z s) (k : Nat) (x : Slice) : Kept z (s.setSlice k x) := kept_mk h

theorem kept_setPort (h : Kept z s) (k : Nat) (x : Port) : Kept z (s.setPort k x) := kept_mk h

theorem kept_setPage (h : Kept z s) (vf page : Nat) (x : CtxPage) : Kept z (s.setPage vf page x) := kept_mk h

theorem kept_setVf (h : Kept z s) (k : Nat) (x : Vf) : Kept z (s.setVf k x) := kept_mk h

theorem kept_setLink (h : Kept z s) (k : Nat) (x : Link) : Kept z (s.setLink k x) := kept_mk h

theorem kept_rekey (h : Kept z s) (key slice off : Nat) : Kept z (s.rekey key slice off) := by
  obtain ⟨k, m, e, rfl | ⟨a, bs, rfl⟩⟩ := rekey_cases s key slice off <;> rw [e]
  · exact kept_mk h
  · exact kept_store h (Memory.wf_writeN _ _ _) id id id

theorem kept_setBad (h : Kept z s) (p : Place) (m : Nat) : Kept z (s.setBad p m) := kept_mk h

theorem kept_markBad (h : Kept z s) (p : Place) : Kept z (s.markBad p) := by
  unfold State.markBad
  apply_rules [kept_setBad]

theorem kept_clearBad (h : Kept z s) (p : Place) : Kept z (s.clearBad p) := by
  unfold State.clearBad
  split <;> apply_rules [kept_setBad]

theorem kept_storeByte (h : Kept z s) (key : Nat) (p : Place) (b : Byte) : Kept z (s.storeByte key p b) := by
  cases p with
  | dram sl o => exact kept_store (kept_rekey h key sl o) (Memory.wf_write _ _ _) id id id
  | host q _ a => exact kept_store h id (Memory.wf_write _ _ _) id id
  | scratch g o => exact kept_groves h (scratchWf_alter (fun v => Memory.wf_write v.scratch o b) g)
  | regs gid o => exact kept_mk h
  | vault d v o => exact kept_store h id id (Memory.wf_write _ _ _) id

theorem kept_putByte (h : Kept z s) (key : Nat) (p : Place) (b : Byte) : Kept z (s.putByte key p b) := by
  unfold State.putByte
  apply_rules [kept_clearBad, kept_storeByte]

theorem kept_putBytes (h : Kept z s) (key : Nat) (p : Place) (bytes : List Byte) : Kept z (s.putBytes key p bytes) := by
  induction bytes generalizing s p with
  | nil => exact h
  | cons b bs ih => exact ih (kept_putByte h key p b) _

theorem kept_setPoison (h : Kept z s) (p : Place) : Kept z (s.setPoison p) := by
  unfold State.setPoison
  apply_rules [kept_setBad]

theorem kept_markBytes (h : Kept z s) (p : Place) (bad : List Bool) : Kept z (s.markBytes p bad) := by
  unfold State.markBytes
  refine kept_foldl (fun s e h => ?_) _ h
  split <;> apply_rules [kept_markBad]

theorem kept_fresh (h : Kept z s) : Kept z s.fresh := kept_mk h

theorem kept_draw (h : Kept z s) : Kept z s.draw := kept_mk h

theorem kept_setLine (h : Kept z s) (p : Place) (x : Line) : Kept z (s.setLine p x) := by
  unfold State.setLine
  split <;> apply_rules [kept_mk]

theorem kept_restoreLine (h : Kept z s) (port addr : Nat) (x : Line) : Kept z (s.restoreLine port addr x) :=
  kept_foldl (fun _ _ h => kept_setBad h _ _) _ (kept_store h id (Memory.wf_writeN _ _ _) id id)

theorem kept_dropLines (h : Kept z s) : Kept z s.dropLines :=
  kept_mk (kept_foldl (fun _ _ h => by split <;> apply_rules [kept_restoreLine]) _ h)

theorem kept_untrackKey (h : Kept z s) (h k : Nat) : Kept z (s.untrackKey h k) := by
  unfold State.untrackKey
  split <;> apply_rules [kept_mk]

theorem kept_untrack (h : Kept z s) (p : Place) : Kept z (s.untrack p) := by
  unfold State.untrack
  split <;> apply_rules [kept_untrackKey]

theorem kept_ask (h : Kept z s) (ctx : Nat) (p : Place) (own : Bool) : Kept z (s.ask ctx p own) := kept_mk h

theorem kept_askAll (h : Kept z s) (ctx : Nat) (ps : List Place) (own : Bool) : Kept z (s.askAll ctx ps own) := by
  unfold State.askAll
  exact kept_foldl (fun s e h => by apply_rules [kept_ask]) _ h

theorem kept_evictLine (h : Kept z s) (k : Nat) : Kept z (s.evictLine k) := kept_mk h

theorem kept_holdLine (h : Kept z s) (ctx : Nat) (p : Place) : Kept z (s.holdLine ctx p) := by
  unfold State.holdLine
  dsimp only
  repeat' split
  all_goals apply_rules [kept_setSlice, kept_evictLine]

theorem kept_writeAtHome (h : Kept z s) (ctx : Nat) (p : Place) (bytes : List Byte) (t : Nat) : Kept z (s.writeAtHome ctx p bytes t) := by
  unfold State.writeAtHome
  apply_rules [kept_setLine, kept_putBytes, kept_holdLine]

theorem kept_storeAtHome (h : Kept z s) (ctx : Nat) (p : Place) (bytes : List Byte) (clk : Nat) : Kept z (s.storeAtHome ctx p bytes clk).1 := by
  unfold State.storeAtHome
  apply_rules [kept_writeAtHome]

theorem kept_storeLine (h : Kept z s) (ctx : Nat) (line : Place) (bytes : Table Byte) (clk : Nat) : Kept z (s.storeLine ctx line bytes clk).1 :=
  kept_holdLine (kept_foldl (fun _ _ h => kept_putByte h _ _ _) _ (kept_setLine h _ _)) _ _

theorem kept_renewAtHome (h : Kept z s) (ctx : Nat) (p : Place) (upTo : Nat) : Kept z (s.renewAtHome ctx p upTo).1 := by
  unfold State.renewAtHome
  apply_rules [kept_setLine, kept_holdLine]

theorem kept_homeWrite (h : Kept z s) (ctx : Nat) (p : Place) (bytes : List Byte) (clk : Nat) : Kept z (s.homeWrite ctx p bytes clk).1 := by
  unfold State.homeWrite
  split
  · refine kept_foldl_fst (p := (s, 0)) (fun _ _ h => ?_) _ h
    exact kept_storeAtHome h _ _ _ _
  · exact kept_putBytes h _ _ _

theorem kept_keepCopy (h : Kept z s) (core : Nat) (x : CopyLine) : Kept z (s.keepCopy core x) := by
  unfold State.keepCopy
  split <;> apply_rules [kept_setSlice, kept_setCore]

theorem kept_dropCopies (h : Kept z s) (p : CopyLine → Bool) : Kept z (s.dropCopies p) := kept_mk h

theorem kept_fillCopy (h : Kept z s) (ctx core c lease : Nat) (p : Place) : Kept z (s.fillCopy ctx core c lease p).1 := by
  unfold State.fillCopy
  apply_rules [kept_renewAtHome, kept_keepCopy]

theorem kept_readCopy (h : Kept z s) (ctx core c lease : Nat) (p : Place) (n : Nat) : Kept z (s.readCopy ctx core c lease p n).1 := by
  unfold State.readCopy
  dsimp only
  split
  · exact h
  · split
    · exact kept_keepCopy h _ _
    · exact kept_fillCopy h _ _ _ _ _

theorem kept_readHome (h : Kept z s) (ctx c lease : Nat) (p : Place) (n : Nat) : Kept z (s.readHome ctx c lease p n).1 := by
  unfold State.readHome
  apply_rules [kept_renewAtHome]

theorem kept_answerCuts (h : Kept z s) (a : Ask) : Kept z (s.answerCuts a) := kept_mk h

theorem kept_askLoad (h : Kept z s) (x : Load) : Kept z (s.askLoad x) := by
  unfold State.askLoad
  apply_rules [kept_askAll]

theorem kept_performLane (h : Kept z s) (ctx core : Nat) (x : Load) (l : LoadLane) : Kept z (s.performLane ctx core x l).1 := by
  unfold State.performLane
  dsimp only
  repeat' split
  all_goals apply_rules [kept_readHome, kept_readCopy]

theorem kept_performLoad (h : Kept z s) (ctx core : Nat) (x : Load) : Kept z (s.performLoad ctx core x).1 :=
  kept_foldl_fst (fun _ _ h => kept_performLane h _ _ _ _) _ h

theorem kept_fillSector (h : Kept z s) (x : Prefetch) : Kept z (s.fillSector x) := by
  unfold State.fillSector
  repeat' split
  all_goals apply_rules [kept_fillCopy, kept_ask, kept_mk]

theorem kept_retryPrefetches (h : Kept z s) : Kept z s.retryPrefetches :=
  kept_foldl (fun _ _ h => kept_fillSector h _) _ (kept_mk h)

theorem kept_raiseStamps (h : Kept z s) (seqs : List Nat) (t : Nat) : Kept z (s.raiseStamps seqs t) := kept_mk h

theorem kept_keepGood (h : Kept z s) (core ctx : Nat) (l : Leaf) (j : Except (Nat × Nat) Target) : Kept z (s.keepGood core ctx l j).1 := by
  cases j with
  | ok t => exact kept_setCore h _ _
  | error e => exact h

theorem kept_walked (h : Kept z s) (core ctx va : Nat) (write : Bool) (r : Except Nat Leaf) : Kept z (s.walked core ctx va write r).1 := by
  cases r with
  | ok l => exact kept_keepGood h _ _ _ _
  | error d => exact h

theorem kept_translate (h : Kept z s) (core ctx va : Nat) (write : Bool) : Kept z (s.translate core ctx va write).1 := by
  unfold State.translate
  split
  · exact kept_walked h _ _ _ _ _
  · split
    · exact h
    · exact kept_walked h _ _ _ _ _

theorem kept_dropXlates (h : Kept z s) (p : Xlate → Bool) : Kept z (s.dropXlates p) := kept_mk h

theorem kept_locate (h : Kept z s) (g : Group) (m : Mapped) (write : Bool) : Kept z (s.locate g m write).1 := by
  unfold State.locate
  split
  · next va =>
    have ht := kept_translate h g.core g.ctx va write
    split <;> simpa [*] using ht
  · exact h
  · exact h

theorem kept_logAct (h : Kept z s) (glade act cls src ctx : Nat) (addr : Scalar) : Kept z (s.logAct glade act cls src ctx addr) := by
  unfold State.logAct
  split <;> apply_rules [kept_mk]

theorem kept_logIn (h : Kept z s) (glade cls src ctx : Nat) (addr : Scalar) : Kept z (s.logIn glade cls src ctx addr) := by
  unfold State.logIn
  apply_rules [kept_logAct]

theorem kept_sendNotice (h : Kept z s) (gs : List Guardian) (n : Notice) : Kept z (s.sendNotice gs n) := by
  unfold State.sendNotice
  exact kept_foldl (fun s e h => by apply_rules [kept_setPage]) _ h

theorem kept_notify (h : Kept z s) (ctx : Nat) (n : Notice) : Kept z (s.notify ctx n) := by
  unfold State.notify
  dsimp only
  split <;> apply_rules [kept_setContext, kept_sendNotice]

theorem kept_zeroDram (h : Kept z s) (w : Zeroing) : Kept z (s.zeroDram w) :=
  kept_store h (Memory.wf_clear _ _) id id id

theorem kept_zeroVaults (h : Kept z s) (p : Nat → Nat → Bool) : Kept z (s.zeroVaults p) :=
  kept_store h id id (Memory.wf_clear _ _) id

theorem kept_dropAccessesOf (h : Kept z s) (ctx : Nat) : Kept z (s.dropAccessesOf ctx) := kept_mk h

theorem kept_dropHeld (h : Kept z s) (ctx : Nat) : Kept z (s.dropHeld ctx) :=
  kept_foldl (fun _ _ h => kept_foldl (fun _ _ h => kept_untrackKey h _ _) _ h) _ h

theorem kept_restoreSteps (h : Kept z s) (pairs : List Nat) : Kept z (s.restoreSteps pairs) := by
  unfold State.restoreSteps
  exact kept_foldl (fun s e h => by apply_rules [kept_setCore]) _ h

theorem kept_endSlice (h : Kept z s) (ctx : Nat) : Kept z (s.endSlice ctx) := by
  unfold State.endSlice
  split <;> apply_rules [kept_restoreSteps]

theorem kept_destroyOne (h : Kept z s) (ctx : Nat) : Kept z (s.destroyOne ctx) :=
  kept_logAct (kept_mk (kept_dropXlates (kept_dropCopies (kept_dropHeld (kept_zeroVaults (kept_zeroDram
    (kept_groves (kept_dropAccessesOf (kept_endSlice h ctx) ctx) (scratchWf_filter _)) _) _) _) _) _)) _ _ _ _ _ _

theorem kept_wipeGlade (h : Kept z s) (g key : Nat) : Kept z (s.wipeGlade g key) :=
  kept_mk (kept_zeroVaults (kept_zeroDram h _) _)

theorem kept_resetGlade (h : Kept z s) (g : Nat) : Kept z (s.resetGlade g) :=
  kept_mk (kept_wipeGlade (kept_mk (kept_foldl (fun _ c h => kept_destroyOne h c) (s.contextsOf g) h)) _ _)

theorem kept_destroy (h : Kept z s) (ctx : Nat) : Kept z (s.destroy ctx) := by
  unfold State.destroy
  dsimp only
  split
  · exact kept_resetGlade (kept_destroyOne h ctx) _
  · exact kept_destroyOne h ctx

theorem kept_errorBy {raise : State → Nat → Notice → State} (hr : ∀ s c n, Kept z s → Kept z (raise s c n)) (h : Kept z s)
    (atLeast cls src ctx : Nat) (addr : Scalar) (detail : BitVec 32) : Kept z (s.errorBy raise atLeast cls src ctx addr detail) := by
  unfold State.errorBy
  split
  · exact h
  · next x _ =>
    have hl (x : Context) (act : Nat) (gl : Table Glade) :
        Kept z (if act = 0 then s.setContext ctx x else { s.setContext ctx x with glades := gl }) :=
      kept_ite (kept_setContext h ctx x) (kept_mk (kept_setContext h ctx x))
    exact kept_ite (hr _ _ _ (hl _ _ _)) (kept_ite (kept_destroy (hl _ _ _) _) (kept_ite (kept_resetGlade (hl _ _ _) _) (hl _ _ _)))

theorem kept_raise (h : Kept z s) (ctx : Nat) (n : Notice) : Kept z (s.raise ctx n) := by
  unfold State.raise
  split
  · exact kept_errorBy (fun _ _ _ h => kept_notify h _ _) (kept_notify h _ _) _ _ _ _ _ _
  · exact kept_notify h _ _

theorem kept_errorAtLeast (h : Kept z s) (atLeast cls src ctx : Nat) (addr : Scalar) (detail : BitVec 32) :
    Kept z (s.errorAtLeast atLeast cls src ctx addr detail) :=
  kept_errorBy (fun _ _ _ h => kept_raise h _ _) h _ _ _ _ _ _

theorem kept_report (h : Kept z s) (glade cls src : Nat) (addr : Scalar) : Kept z (s.report glade cls src addr) := by
  unfold State.report
  dsimp only
  split
  · exact kept_resetGlade (kept_logAct h _ _ _ _ _ _) _
  · exact kept_logAct h _ _ _ _ _ _

theorem kept_reportWhere (h : Kept z s) (p : Glade → Bool) (cls src : Nat) (addr : Scalar) : Kept z (s.reportWhere p cls src addr) := by
  unfold State.reportWhere
  refine kept_foldl (fun s e h => ?_) _ h
  split <;> apply_rules [kept_report]

theorem kept_error (h : Kept z s) (cls src ctx : Nat) (addr : Scalar) (detail : BitVec 32) : Kept z (s.error cls src ctx addr detail) := by
  unfold State.error
  apply_rules [kept_errorAtLeast]

theorem kept_noteEffect (h : Kept z s) (launch t : Nat) : Kept z (s.noteEffect launch t) := kept_mk h

theorem kept_noteCopy (h : Kept z s) (launch t : Nat) (p : Place) : Kept z (s.noteCopy launch t p) := kept_mk h

theorem kept_noteGroup (h : Kept z s) (gid t : Nat) (p : Place) : Kept z (s.noteGroup gid t p) := kept_mk h

theorem kept_writeBack (h : Kept z s) (ps : List Place) : Kept z (s.writeBack ps) := by
  unfold State.writeBack
  refine kept_foldl (fun s e h => ?_) _ h
  split <;> apply_rules [kept_mk]

theorem kept_askPlaces (h : Kept z s) (ctx : Nat) (ps : List (Place × Nat × Nat)) (own : Bool) : Kept z (s.askPlaces ctx ps own) := by
  unfold State.askPlaces
  apply_rules [kept_askAll]

theorem kept_landPlaces (h : Kept z s) (cut : Place → Bool) (ctx va : Nat) (ps : List (Place × Nat × Nat)) (bytes : List Byte) (clk : Nat) :
    Kept z (s.landPlaces cut ctx va ps bytes clk).1 := by
  refine kept_foldl_fst (fun p a hp => kept_foldl_fst (fun p a hp => ?_) _ hp) _ h
  dsimp only
  split
  · exact kept_error hp _ _ _ _ _
  · split
    · exact kept_error hp _ _ _ _ _
    · exact kept_homeWrite hp _ _ _ _

theorem kept_writePlaces (h : Kept z s) (ctx va : Nat) (ps : List (Place × Nat × Nat)) (bytes : List Byte) (clk : Nat) :
    Kept z (s.writePlaces ctx va ps bytes clk).1 := by
  unfold State.writePlaces
  apply_rules [kept_landPlaces]

theorem kept_land (h : Kept z s) (who : Nat) : Kept z (s.land who) := kept_mk h

theorem kept_takeOff (h : Kept z s) (ctx who va : Nat) (ps : List (Place × Nat × Nat)) (bytes : Option (List Byte)) :
    Kept z (s.takeOff ctx who va ps bytes) := by
  unfold State.takeOff
  apply_rules [kept_fresh, kept_askPlaces, kept_mk]

theorem kept_askFlight (h : Kept z s) (f : Flight) : Kept z (s.askFlight f) := by
  unfold State.askFlight
  apply_rules [kept_askAll]

theorem kept_fetchFor (h : Kept z s) {ctx who va n : Nat} {t : State} (e : s.fetchFor ctx who va n = .waits t) : Kept z t := by
  unfold State.fetchFor at e
  repeat' split at e
  all_goals cases e
  · exact kept_askFlight h _
  · exact kept_takeOff h _ _ _ _ _

theorem kept_logIllFormed (h : Kept z s) (ctx : Nat) (addr : Scalar) (code detail : Nat) : Kept z (s.logIllFormed ctx addr code detail) := by
  unfold State.logIllFormed
  split <;> apply_rules [kept_error]

theorem kept_slotLost (h : Kept z s) (g : Group) (slot : Nat) : Kept z (s.slotLost g slot) := by
  unfold State.slotLost
  apply_rules [kept_errorAtLeast]

theorem kept_performSlot (h : Kept z s) (w : SlotWrite) : Kept z (s.performSlot w) := by
  unfold State.performSlot
  split <;> apply_rules [kept_error, kept_homeWrite]

theorem kept_putSlot (h : Kept z s) (w : SlotWrite) : Kept z (s.putSlot w) := by
  unfold State.putSlot
  split <;> apply_rules [kept_performSlot, kept_ask, kept_mk]

theorem kept_slotWrite (h : Kept z s) (gid : Nat) (g : Group) (off : Nat) (bytes : List Byte) : Kept z (s.slotWrite gid g off bytes) := by
  unfold State.slotWrite
  dsimp only
  split
  · exact kept_slotLost (kept_logIllFormed h _ _ _ _) _ _
  · split
    · exact kept_slotLost h _ _
    · exact kept_foldl (fun _ _ h => kept_foldl (fun _ _ h => kept_putSlot (kept_fresh h) _) _ h) _ h

theorem kept_settle (h : Kept z s) (gid : Nat) : Kept z (s.settle gid) := by
  unfold State.settle
  repeat' split
  all_goals apply_rules [kept_slotWrite]

theorem kept_dropAccesses (h : Kept z s) (gid : Nat) : Kept z (s.dropAccesses gid) := kept_mk h

theorem kept_discard (h : Kept z s) (gid : Nat) : Kept z (s.discard gid) := by
  unfold State.discard
  split
  · exact h
  · have hs (l : List Atomic) : Kept z (l.foldl (fun (s : State) a => s.raiseStamps [a.seq] a.t) s) :=
      kept_foldl (fun _ _ h => kept_raiseStamps h _ _) l h
    dsimp only
    repeat' split
    all_goals apply_rules [kept_settle, kept_slotWrite, kept_setGroup, kept_dropAccesses]

theorem kept_preemptGroup (h : Kept z s) (gid : Nat) : Kept z (s.preemptGroup gid) := by
  unfold State.preemptGroup
  dsimp only
  repeat' split
  all_goals apply_rules [kept_setGroup, kept_discard]

theorem kept_preempt (h : Kept z s) (ctx : Nat) : Kept z (s.preempt ctx) := by
  unfold State.preempt
  exact kept_foldl (fun s e h => by apply_rules [kept_preemptGroup]) _ h

theorem kept_dropNotices (h : Kept z s) (ctx : Nat) : Kept z (s.dropNotices ctx) := kept_mk h

theorem kept_suspend (h : Kept z s) (ctx : Nat) : Kept z (s.suspend ctx) := by
  unfold State.suspend
  split <;> apply_rules [kept_setContext, kept_preempt]

theorem kept_orphanTrigger (h : Kept z s) (ctx : Nat) : Kept z (s.orphanTrigger ctx) := by
  unfold State.orphanTrigger
  split <;> apply_rules [kept_suspend]

theorem kept_startEviction (h : Kept z s) (ctx : Nat) : Kept z (s.startEviction ctx) := by
  unfold State.startEviction
  apply_rules [kept_preempt, kept_mk]

theorem kept_takeAskedFrom (h : Kept z s) (ctx fuel : Nat) : Kept z (s.takeAskedFrom ctx fuel) := by
  induction fuel generalizing s with
  | zero => exact h
  | succ n ih =>
    unfold State.takeAskedFrom
    dsimp only
    repeat' split
    all_goals apply_rules [kept_setContext, kept_startEviction]

theorem kept_takeAsked (h : Kept z s) (ctx : Nat) : Kept z (s.takeAsked ctx) := by
  unfold State.takeAsked
  split
  · exact h
  · exact kept_takeAskedFrom h _ _

theorem kept_fate (h : Kept z s) (f : Fate) : Kept z (s.fate f) := kept_mk h

theorem kept_hold (h : Kept z s) (gid : Nat) (g : Group) (w : Wait) : Kept z (s.hold gid g w) := by
  unfold State.hold
  apply_rules [kept_setGroup, kept_fate]

theorem kept_pushResult (h : Kept z s) (gid : Nat) (g : Group) (r : Result) : Kept z (s.pushResult gid g r) := by
  unfold State.pushResult
  apply_rules [kept_fresh, kept_setGroup]

theorem kept_vecResult (h : Kept z s) (c : Issue) (g : Group) (d : Reg) (n : Nat) (flags : BitVec 5) (f : Nat → Nat → Lane) :
    Kept z (s.vecResult c g d n flags f) := by
  unfold State.vecResult
  split <;> apply_rules [kept_pushResult]

theorem kept_scalResult (h : Kept z s) (c : Issue) (g : Group) (d : Reg) (vs : List Scalar) (flags : BitVec 5) :
    Kept z (s.scalResult c g d vs flags) := by
  unfold State.scalResult
  apply_rules [kept_pushResult]

theorem kept_abandon (h : Kept z s) (ctx : Nat) : Kept z (s.abandon ctx) :=
  kept_takeAsked (kept_groves (kept_endSlice h ctx) (scratchWf_mapVals (fun v hv => by split <;> exact hv))) _

theorem kept_stewardFault (h : Kept z s) (gid : Nat) (g : Group) (code : Nat) : Kept z (s.stewardFault gid g code) := by
  unfold State.stewardFault
  split <;> apply_rules [kept_setGroup, kept_abandon, kept_error, kept_mk]

theorem kept_enter (h : Kept z s) (gid : Nat) (g : Group) : Kept z (s.enter gid g) := by
  unfold State.enter
  apply_rules [kept_setGroup]

theorem kept_trap (h : Kept z s) (gid : Nat) (g : Group) (code detail : Nat) (taddr : Scalar) (tlane : Mask) (plane : Nat) (lanes : Bool) :
    Kept z (s.trap gid g code detail taddr tlane plane lanes) := by
  unfold State.trap
  repeat' split
  all_goals apply_rules [kept_stewardFault, kept_enter, kept_setGroup]

theorem kept_trapWord (h : Kept z s) (c : Issue) (g : Group) (code detail : Nat) (taddr : Scalar) (tlane : Mask) :
    Kept z (s.trapWord c g code detail taddr tlane) := by
  unfold State.trapWord
  apply_rules [kept_trap, kept_fate]

theorem kept_openHandleFault (h : Kept z s) (c : Issue) (g : Group) (detail : Nat) : Kept z (s.openHandleFault c g detail) := by
  unfold State.openHandleFault
  apply_rules [kept_draw, kept_trapWord]

theorem kept_addrHandleFault (h : Kept z s) (c : Issue) (g : Group) (detail : Nat) (taddr : Scalar) :
    Kept z (s.addrHandleFault c g detail taddr) := by
  unfold State.addrHandleFault
  apply_rules [kept_draw, kept_trapWord]

theorem kept_guardianFault (h : Kept z s) (gid : Nat) (g : Group) (code detail : Nat) (taddr : Scalar) (tlane : Mask) (plane : Nat) (lanes : Bool) :
    Kept z (s.guardianFault gid g code detail taddr tlane plane lanes) := by
  unfold State.guardianFault
  dsimp only
  repeat' split
  all_goals apply_rules [kept_stewardFault, kept_setGroup, kept_raise, kept_suspend, kept_dropNotices, kept_discard]

theorem kept_deliverFault (h : Kept z s) (gid : Nat) (g : Group) (code detail : Nat) (taddr : Scalar) (tlane : Mask) (plane : Nat) (lanes : Bool) :
    Kept z (s.deliverFault gid g code detail taddr tlane plane lanes) := by
  unfold State.deliverFault
  repeat' split
  all_goals apply_rules [kept_guardianFault, kept_trap]

theorem kept_transFault (h : Kept z s) (gid : Nat) (g : Group) (code detail : Nat) (taddr : Scalar) (tlane : Mask) (plane : Nat) (lanes : Bool) :
    Kept z (s.transFault gid g code detail taddr tlane plane lanes) := by
  unfold State.transFault
  apply_rules [kept_logIllFormed, kept_deliverFault]

theorem kept_locateAll (h : Kept z s) (c : Issue) (g : Group) (write : Bool) (la : List (Nat × Scalar)) : Kept z (s.locateAll c g write la).1 := by
  induction la generalizing s with
  | nil => exact h
  | cons e la ih =>
    unfold State.locateAll
    split
    · exact ih h
    · next m _ =>
      dsimp only
      split <;> exact ih (kept_locate h g m write)

theorem kept_accessFault (h : Kept z s) (c : Issue) (scalar : Bool) (bad : List Faulted) : Kept z (s.accessFault c scalar bad) := by
  unfold State.accessFault
  split
  · exact h
  · exact h
  · have hs (g : Group) (l : List Faulted) : Kept z (l.foldl (fun (s : State) f => s.logIllFormed g.ctx f.2.1 f.2.2.1 f.2.2.2) s) :=
      kept_foldl (fun _ _ h => kept_logIllFormed h _ _ _ _) l h
    dsimp only
    split <;> apply_rules [kept_fate, kept_deliverFault]

theorem kept_access {k : State → Group → List Located → State} (hk : ∀ s g l, Kept z s → Kept z (k s g l)) (h : Kept z s) (c : Issue) (g : Group)
    (scalar write regs : Bool) (size : Nat) (la : List (Nat × Scalar)) : Kept z (s.access c g scalar write regs size la k) := by
  have hl := kept_locateAll h c g write la
  unfold State.access
  dsimp only
  repeat' split
  all_goals apply_rules [kept_trapWord, kept_accessFault]

theorem kept_issueLoad (h : Kept z s) (c : Issue) (g : Group) (dest : Dest) (size : Nat) (widen : Widen) (good : List Located) :
    Kept z (s.issueLoad c g dest size widen good) := by
  unfold State.issueLoad
  apply_rules [kept_pushResult, kept_mk]

theorem kept_bufferStore (h : Kept z s) (gid : Nat) (g : Group) (seq : Nat) (a : Scalar) (p : Place) (bytes : List Byte) :
    Kept z (s.bufferStore gid g seq a p bytes) := by
  unfold State.bufferStore
  split <;> apply_rules [kept_mk]

theorem kept_issueStore (h : Kept z s) (c : Issue) (g : Group) (ws : List (Scalar × Place × List Byte)) : Kept z (s.issueStore c g ws) := by
  refine kept_foldl (fun _ w h => ?_) _ (kept_setGroup (kept_fresh h) _ _)
  dsimp only
  split
  · exact kept_bufferStore h _ _ _ _ _ _
  · exact kept_mk h

theorem kept_overHazard {k : List Located → State} (hk : ∀ l, Kept z (k l)) (h : Kept z s) (c : Issue) (g : Group) (scalar regs : Bool) (size : Nat)
    (la : List (Nat × Scalar)) : Kept z (s.overHazard c g scalar regs size la k) := by
  unfold State.overHazard
  dsimp only
  repeat' split
  all_goals apply_rules [kept_trapWord]

theorem kept_makeRoom (h : Kept z s) (core : Nat) : Kept z (s.makeRoom core) := kept_mk h

theorem kept_storeWord (h : Kept z s) (c : Issue) (g : Group) (scalar : Bool) (size : Nat) (la : List (Nat × Scalar)) (data : Nat → List Byte) :
    Kept z (s.storeWord c g scalar size la data) := by
  refine kept_overHazard (fun pre => ?_) h _ _ _ _ _ _
  split
  · exact kept_access (fun _ _ _ h => kept_issueStore h _ _ _) h _ _ _ _ _ _ _
  · exact kept_makeRoom (kept_hold h _ _ _) _

theorem kept_issueAtomic (h : Kept z s) (c : Issue) (g : Group) (op : AtomOp) (size : Nat) (dest : Option Dest) (ls : List (Scalar × AtomLane)) :
    Kept z (s.issueAtomic c g op size dest ls) := by
  unfold State.issueAtomic
  split <;> apply_rules [kept_pushResult, kept_fresh, kept_setGroup, kept_mk]

theorem kept_strike (h : Kept z s) (gid : Nat) : Kept z (s.strike gid) := by
  unfold State.strike
  dsimp only
  repeat' split
  all_goals apply_rules [kept_discard, kept_setGroup, kept_slotWrite]

theorem kept_consumeError (h : Kept z s) (gid source : Nat) : Kept z (s.consumeError gid source) := by
  unfold State.consumeError
  repeat' split
  all_goals apply_rules [kept_strike, kept_error, kept_errorAtLeast]

theorem kept_readDone {k : State → Group → Group → List Nat → State} (hk : ∀ s g g' l, Kept z s → Kept z (k s g g' l)) (h : Kept z s) (c : Issue)
    (x : Load) : Kept z (s.readDone c x k) := by
  unfold State.readDone
  dsimp only
  repeat' split
  all_goals apply_rules [kept_fate, kept_consumeError, kept_setGroup]

theorem kept_waitRead (h : Kept z s) (c : Issue) (g : Group) (x : Load) : Kept z (s.waitRead c g x) := by
  unfold State.waitRead
  apply_rules [kept_fresh, kept_askLoad, kept_hold, kept_mk]

theorem kept_beginRead {k : State → Group → Group → List Nat → State} (hk : ∀ s g g' l, Kept z s → Kept z (k s g g' l)) (h : Kept z s) (c : Issue)
    (g : Group) (x : Load) : Kept z (s.beginRead c g x k) := by
  unfold State.beginRead
  split
  · exact kept_readDone hk (kept_performLoad h _ _ _) _ _
  · exact kept_waitRead h _ _ _

theorem kept_endRead {k : State → Group → Group → List Nat → State} (hk : ∀ s g g' l, Kept z s → Kept z (k s g g' l)) (h : Kept z s) (c : Issue)
    (seq : Nat) : Kept z (s.endRead c seq k) := by
  unfold State.endRead
  split
  · exact kept_ite (kept_readDone hk (kept_mk (kept_performLoad h _ _ _)) _ _) (kept_fate (kept_askLoad h _) _)
  · exact h

theorem kept_ownRead {k : State → Group → Group → List Nat → State} {start : (State → Group → Load → State) → State}
    (hk : ∀ s g g' l, Kept z s → Kept z (k s g g' l))
    (hs : ∀ b, (∀ s g x, Kept z s → Kept z (b s g x)) → Kept z (start b)) (h : Kept z s) (c : Issue) (g : Group) :
    Kept z (s.ownRead c g k start) := by
  unfold State.ownRead
  split
  · exact kept_endRead hk h _ _
  · exact hs _ fun _ _ _ h => kept_beginRead hk h _ _ _

theorem kept_landWrites (h : Kept z s) (gid clk : Nat) : Kept z (s.landWrites gid clk) :=
  kept_foldl (fun _ _ h => kept_landPlaces h _ _ _ _ _ _) _ (kept_land h _)

theorem kept_drainGroup (h : Kept z s) (gid : Nat) : Kept z (s.drainGroup gid) := kept_mk h

theorem kept_afterFence {k : State → Group → State} (hk : ∀ s g, Kept z s → Kept z (k s g)) (h : Kept z s) (c : Issue) (g : Group) :
    Kept z (s.afterFence c g k) := by
  unfold State.afterFence
  dsimp only
  repeat' split
  all_goals apply_rules [kept_setGroup, kept_fate, kept_hold, kept_drainGroup]

theorem kept_checkedFence {check : State → State} {k : State → Group → State} (hc : ∀ s, Kept z s → Kept z (check s))
    (hk : ∀ s g, Kept z s → Kept z (k s g)) (h : Kept z s) (c : Issue) (g : Group) : Kept z (s.checkedFence c g check k) := by
  unfold State.checkedFence
  split
  · exact kept_afterFence hk h _ _
  · exact hc _ (kept_afterFence hk h _ _)

theorem kept_spoilRestart (h : Kept z s) (gid : Nat) : Kept z (s.spoilRestart gid) := by
  unfold State.spoilRestart
  dsimp only
  repeat' split
  all_goals apply_rules [kept_setGroup, kept_slotWrite]

theorem kept_setBarrier (h : Kept z s) (g : Group) (b : Nat) (x : Barrier) : Kept z (s.setBarrier g b x) := by
  unfold State.setBarrier
  split
  · exact kept_groves h (scratchWf_alter (fun _ hv => by exact hv) _)
  · split <;> exact kept_mk h

theorem kept_rebalance (h : Kept z s) (order : List Nat) : Kept z (s.rebalance order) := by
  unfold State.rebalance
  dsimp only
  repeat' split
  all_goals apply_rules [kept_draw, kept_setCore]

theorem kept_completeBarrier (h : Kept z s) (g : Group) (b : Nat) : Kept z (s.completeBarrier g b) := by
  unfold State.completeBarrier
  dsimp only
  split <;> apply_rules [kept_setBarrier, kept_rebalance]

theorem kept_countArrival (h : Kept z s) (gid : Nat) (g : Group) (b : Nat) : Kept z (s.countArrival gid g b) := by
  unfold State.countArrival
  dsimp only
  split <;> apply_rules [kept_setGroup, kept_setBarrier, kept_completeBarrier]

theorem kept_leaveBarrier (h : Kept z s) (g : Group) (b : Nat) : Kept z (s.leaveBarrier g b) := by
  unfold State.leaveBarrier
  dsimp only
  repeat' split
  all_goals apply_rules [kept_setBarrier, kept_completeBarrier]

theorem kept_endGrove (h : Kept z s) (k : Nat) : Kept z (s.endGrove k) := by
  unfold State.endGrove
  dsimp only
  refine kept_ite (kept_groves h fun hg => scratchWf_filter _ ?_) (kept_groves h ?_)
  · exact scratchWf_alter (fun _ hv => by exact hv) k hg
  · exact scratchWf_alter (fun _ hv => by exact hv) k

theorem kept_finishEviction (h : Kept z s) (ctx : Nat) : Kept z (s.finishEviction ctx) :=
  kept_takeAsked (kept_groves (kept_endSlice h ctx) (scratchWf_mapVals (fun v hv => by split <;> exact hv))) _

theorem kept_finishRestore (h : Kept z s) (ctx : Nat) : Kept z (s.finishRestore ctx) := by
  unfold State.finishRestore
  apply_rules [kept_takeAsked, kept_mk]

theorem kept_endGroup (h : Kept z s) (gid : Nat) : Kept z (s.endGroup gid) := by
  unfold State.endGroup
  split
  · exact h
  · next g _ =>
    have hb : Kept z ((List.range 22).foldl (fun (s : State) b => s.leaveBarrier g b) s) :=
      kept_foldl (fun _ _ h => kept_leaveBarrier h _ _) _ h
    cases g.role with
    | kernel =>
      dsimp only
      refine kept_ite (kept_endGrove ?_ _) ?_ <;> exact kept_groves hb (scratchWf_alter (fun _ hv => by exact hv) _)
    | evict => exact kept_ite (kept_mk h) (kept_finishEviction (kept_mk h) _)
    | restore => exact kept_ite (kept_mk h) (kept_finishRestore (kept_mk h) _)

theorem kept_fetch (h : Kept z s) (g : Group) (p : Nat) : Kept z (s.fetch g p).1 := by
  have ht := kept_translate h g.core g.ctx (s.wordAddr g p) false
  unfold State.fetch
  split <;> exact kept_fst ‹_› ht

theorem kept_fetchAll (h : Kept z s) (g : Group) (ps : List Nat) : Kept z (s.fetchAll g ps).1 := by
  induction ps generalizing s with
  | nil => exact h
  | cons p ps ih =>
    have hf := kept_fetch h g p
    unfold State.fetchAll
    split
    · exact kept_fst ‹_› hf
    · have ha := ih (kept_fst ‹_› hf)
      split <;> exact kept_fst ‹_› ha

theorem kept_takeHeld (h : Kept z s) (gid : Nat) (g : Group) (d : BitVec 8) : Kept z (s.takeHeld gid g d) := by
  unfold State.takeHeld
  apply_rules [kept_trap]

theorem kept_finish (h : Kept z s) (i : Instr) : Kept z (s.finish i) := by
  unfold State.finish
  dsimp only
  repeat' split
  all_goals apply_rules [kept_setCore, kept_fate, kept_hold, kept_setGroup, kept_mk]

theorem kept_vectorLoad (h : Kept z s) (c : Issue) (g : Group) (d : Reg) (n size : Nat) (w : Widen) (addr : Nat → Scalar) :
    Kept z (s.vectorLoad c g d n size w addr) := by
  unfold State.vectorLoad
  split
  · exact h
  · exact kept_access (fun _ _ _ h => kept_issueLoad h _ _ _ _ _ _) h _ _ _ _ _ _ _

theorem kept_scalarLoad (h : Kept z s) (c : Issue) (g : Group) (d : Reg) (size : Nat) (w : Widen) (a : Scalar) :
    Kept z (s.scalarLoad c g d size w a) :=
  kept_access (fun _ _ _ h => kept_issueLoad h _ _ _ _ _ _) h _ _ _ _ _ _ _

theorem kept_vectorStore (h : Kept z s) (c : Issue) (g : Group) (d : Reg) (size : Nat) (addr : Nat → Scalar) :
    Kept z (s.vectorStore c g d size addr) := by
  unfold State.vectorStore
  split <;> apply_rules [kept_storeWord]

theorem kept_scalarStore (h : Kept z s) (c : Issue) (g : Group) (d : Reg) (size : Nat) (a : Scalar) : Kept z (s.scalarStore c g d size a) := by
  unfold State.scalarStore
  apply_rules [kept_storeWord]

theorem kept_prefetch (h : Kept z s) (gid : Nat) (g : Group) (a : Scalar) : Kept z (s.prefetch gid g a) := by
  unfold State.prefetch
  split
  · next va _ =>
    have ht := kept_translate h g.core g.ctx va false
    split
    · exact kept_fillSector (kept_fst ‹_› ht) _
    · exact h
    · exact h
  · exact h
  · exact h

theorem kept_whenDone (h : Kept z s) (gid : Nat) (k : Group → Group) : Kept z (s.whenDone gid k) := by
  unfold State.whenDone
  repeat' split
  all_goals apply_rules [kept_fate, kept_mk]

theorem kept_atomic (h : Kept z s) (c : Issue) (g : Group) (scalar : Bool) (op : AtomOp) (size : Nat) (dest : Group → Dest)
    (la : Group → List (Nat × Scalar)) (v v2 : Group → Nat → Nat) : Kept z (s.atomic c g scalar op size dest la v v2) := by
  unfold State.atomic
  refine kept_ite h ?_
  apply kept_checkedFence
  case hc => exact fun t ht => kept_overHazard (fun _ => ht) h _ _ _ _ _ _
  case h => exact h
  case hk =>
    refine fun t g ht => kept_overHazard (fun _ => kept_access (fun u g l hu => ?_) ht _ _ _ _ _ _ _) ht _ _ _ _ _ _
    exact kept_spoilRestart (kept_issueAtomic hu _ _ _ _ _ _) _

theorem kept_vatom (h : Kept z s) (c : Issue) (g : Group) (op : AtomOp) (d a b : Reg) : Kept z (s.vatom c g op d a b) := by
  unfold State.vatom
  apply_rules [kept_atomic]

theorem kept_reduceFar (h : Kept z s) (c : Issue) (g : Group) (op : AtomOp) (d a b : Reg) : Kept z (s.reduceFar c g op d a b) := by
  unfold State.reduceFar
  split
  · exact h
  · refine kept_ite (kept_setGroup h _ _) (kept_overHazard (fun _ => kept_access (fun u g l hu => ?_) h _ _ _ _ _ _ _) h _ _ _ _ _ _)
    exact kept_issueAtomic hu _ _ _ _ _ _

theorem kept_endRun (h : Kept z s) : Kept z s.endRun := kept_mk h

theorem kept_arrive {k : State → State} (hk : ∀ s, Kept z s → Kept z (k s)) (h : Kept z s) (c : Issue) (g : Group) (b : Nat) :
    Kept z (s.arrive c g b k) := by
  unfold State.arrive
  dsimp only
  repeat' split
  all_goals apply_rules [kept_hold, kept_endRun, kept_countArrival, kept_setGroup]

theorem kept_await (h : Kept z s) (gid b : Nat) : Kept z (s.await gid b) := by
  unfold State.await
  dsimp only
  repeat' split
  all_goals apply_rules [kept_setGroup, kept_endRun, kept_hold]

theorem kept_branch (h : Kept z s) (c : Issue) (g : Group) (taken : Bool) (off : BitVec 17) (f : Group → Group) :
    Kept z (s.branch c g taken off f) := by
  unfold State.branch
  dsimp only
  repeat' split
  all_goals apply_rules [kept_trapWord, kept_setGroup, kept_fate]

theorem kept_jumpTo (h : Kept z s) (c : Issue) (g : Group) (v : Scalar) : Kept z (s.jumpTo c g v) := by
  unfold State.jumpTo
  split <;> apply_rules [kept_trapWord, kept_fate]

theorem kept_whenQuiet {k : State → State} (hk : ∀ s, Kept z s → Kept z (k s)) (h : Kept z s) (c : Issue) (g : Group) :
    Kept z (s.whenQuiet c g k) := by
  unfold State.whenQuiet
  repeat' split
  all_goals apply_rules [kept_hold]

theorem kept_compare (h : Kept z s) (c : Issue) (g : Group) (flags : BitVec 5) (p : Nat → Bool) : Kept z (s.compare c g flags p) := by
  unfold State.compare
  split <;> apply_rules [kept_setGroup]

theorem kept_floatResult (h : Kept z s) (c : Issue) (g : Group) (d : Reg) (n : Nat) (f : Nat → Nat → Nat × BitVec 5) :
    Kept z (s.floatResult c g d n f) := by
  unfold State.floatResult
  apply_rules [kept_vecResult]

theorem kept_floatCompare (h : Kept z s) (c : Issue) (g : Group) (r : Rel) (a b : Reg) : Kept z (s.floatCompare c g r a b) := by
  unfold State.floatCompare
  apply_rules [kept_compare]

theorem kept_accept (h : Kept z s) (gid : Nat) (g : Group) (ch : Nat) (x : Copy) (w : Wait) : Kept z (s.accept gid g ch x w) := by
  unfold State.accept
  split <;> apply_rules [kept_setChannel, kept_setGroup, kept_spoilRestart]

theorem kept_submit (h : Kept z s) (c : Issue) (g : Group) (ch : Nat) (x : Copy) : Kept z (s.submit c g ch x) := by
  unfold State.submit
  split <;> apply_rules [kept_hold, kept_accept]

theorem kept_afterRoom {k : State} (hk : Kept z k) (h : Kept z s) (c : Issue) (g : Group) (b : Scalar) : Kept z (s.afterRoom c g b k) := by
  unfold State.afterRoom
  split <;> apply_rules [kept_endRun, kept_setGroup, kept_trapWord]

theorem kept_acceptParked (h : Kept z s) (ch : Nat) : Kept z (s.acceptParked ch) := by
  unfold State.acceptParked
  repeat' split
  all_goals apply_rules [kept_accept, kept_draw]

theorem kept_unlessSkipped {k : State} (hk : Kept z k) (h : Kept z s) (c : Issue) (g : Group) : Kept z (s.unlessSkipped c g k) := by
  unfold State.unlessSkipped
  split
  · exact kept_setGroup h _ _
  · exact hk

theorem kept_submitTensor (h : Kept z s) (c : Issue) (g0 g : Group) (dst a v : Scalar) (bytes : List Byte) :
    Kept z (s.submitTensor c g0 g dst a v bytes) := by
  unfold State.submitTensor
  dsimp only
  repeat' split
  all_goals apply_rules [kept_error, kept_trapWord, kept_addrHandleFault, kept_submit, kept_mk]

theorem kept_passWp (h : Kept z s) (ch ctx : Nat) (k : Channel) : Kept z (s.passWp ch ctx k) := by
  unfold State.passWp
  apply_rules [kept_setChannel, kept_mk]

theorem kept_channelFault (h : Kept z s) (ch addr : Nat) (illFormed : Bool) : Kept z (s.channelFault ch addr illFormed) := by
  unfold State.channelFault
  split <;> apply_rules [kept_setChannel, kept_error, kept_mk]

theorem kept_channelStall (h : Kept z s) (ch addr detail : Nat) : Kept z (s.channelStall ch addr detail) := by
  unfold State.channelStall
  dsimp only
  split <;> apply_rules [kept_setChannel, kept_raise, kept_orphanTrigger]

theorem kept_readLines (h : Kept z s) (ctx : Nat) (ps : List Place) (cc : Nat) : Kept z (s.readLines ctx ps cc).1 := by
  induction ps generalizing s cc with
  | nil => exact h
  | cons p ps ih => exact ih (kept_renewAtHome h _ _ _) _

theorem kept_queueFlit (h : Kept z s) (glade link dir : Nat) : Kept z (s.queueFlit glade link dir) := by
  unfold State.queueFlit
  apply_rules [kept_setLink]

theorem kept_poisonFlit (h : Kept z s) (glade link : Nat) : Kept z (s.poisonFlit glade link) := by
  unfold State.poisonFlit
  apply_rules [kept_setLink]

theorem kept_unitFlits (h : Kept z s) (glade : Nat) (src dst : List (Nat × Reach)) (bad : Bool) : Kept z (s.unitFlits glade src dst bad) := by
  have hs : Kept z (match linksAmong src with
      | l :: _ => (s.queueFlit glade l 0).queueFlit glade l 1
      | [] => s) := by
    split <;> apply_rules [kept_queueFlit]
  unfold State.unitFlits
  dsimp only
  split
  · split <;> apply_rules [kept_poisonFlit, kept_queueFlit]
  · exact hs

theorem kept_writeUnit (h : Kept z s) (ctx cc : Nat) (dst : List (Place × Byte × Bool)) : Kept z (s.writeUnit ctx cc dst).1 := by
  have hm {t : State} (ht : Kept z t) : Kept z (dst.foldl (fun (s : State) e => if e.2.2 then s.markBad e.1 else s) t) :=
    kept_foldl (fun _ _ h => by split <;> apply_rules [kept_markBad]) _ ht
  unfold State.writeUnit
  dsimp only
  split
  · exact h
  · split
    · exact hm (kept_holdLine (kept_foldl (fun _ _ h => kept_putByte h _ _ _) _ (kept_setLine h _ _)) _ _)
    · exact hm (kept_foldl (fun _ _ h => kept_putByte h _ _ _) _ h)

theorem kept_deliverUnit (h : Kept z s) (ch ctx : Nat) (x : Copy) (u : CopyUnit) (src dst : List (Nat × Reach)) (peer : List Byte × Bool) :
    Kept z (s.deliverUnit ch ctx x u src dst peer) := by
  unfold State.deliverUnit
  dsimp only
  have hw (lines : List Place) (cc glade : Nat) (bad : Bool) (k : Nat) (homes : List (Place × Byte × Bool)) (y : Channel) (t : Nat) (p : Place) :=
    kept_noteCopy (kept_passWp (kept_writeUnit (kept_unitFlits (kept_readLines h ctx lines cc) glade src dst bad) ctx k homes) ch ctx y) x.launch t p
  split
  · exact kept_error (hw _ _ _ _ _ _ _ _ _) _ _ _ _ _
  · exact hw _ _ _ _ _ _ _ _ _

theorem kept_skipUnit (h : Kept z s) (ch ctx cls addr gain : Nat) (flag : Bool) : Kept z (s.skipUnit ch ctx cls addr gain flag) := by
  unfold State.skipUnit
  split <;> apply_rules [kept_setChannel, kept_passWp, kept_error]

theorem kept_fly (h : Kept z s) (ch ctx : Nat) (src dst : List (Nat × Reach)) : Kept z (s.fly ch ctx src dst) := by
  unfold State.fly
  apply_rules [kept_askAll, kept_setChannel]

theorem kept_nextUnit (h : Kept z s) (ch ctx : Nat) (x : Copy) (peer : Option (List Byte × Bool)) : Kept z (s.nextUnit ch ctx x peer) := by
  unfold State.nextUnit
  dsimp only
  repeat' split
  all_goals apply_rules [kept_skipUnit, kept_channelStall, kept_channelFault, kept_fly, kept_deliverUnit]

theorem kept_deliverFlag (h : Kept z s) (ch ctx : Nat) (x : Copy) (flag : Nat) : Kept z (s.deliverFlag ch ctx x flag) := by
  unfold State.deliverFlag
  dsimp only
  repeat' split
  all_goals apply_rules [kept_skipUnit, kept_channelStall, kept_channelFault, kept_queueFlit, kept_setChannel, kept_storeAtHome, kept_noteCopy,
      kept_fly]

theorem kept_takeUp (h : Kept z s) (ch : Nat) (x : Copy) : Kept z (s.takeUp ch x) := by
  unfold State.takeUp
  apply_rules [kept_setChannel]

theorem kept_advanceCopy (h : Kept z s) (ch ctx : Nat) (x : Copy) (peer : Option (List Byte × Bool)) : Kept z (s.advanceCopy ch ctx x peer) := by
  unfold State.advanceCopy
  repeat' split
  all_goals apply_rules [kept_nextUnit, kept_deliverFlag, kept_setChannel]

theorem kept_reduction (h : Kept z s) (c : Issue) (g : Group) (d a : Reg) (empty : Lane) (combine : Lane → Lane → Lane × BitVec 5) :
    Kept z (s.reduction c g d a empty combine) := by
  unfold State.reduction
  apply_rules [kept_scalResult]

theorem kept_checkpointed (h : Kept z s) (c : Issue) (g : Group) : Kept z (s.checkpointed c g) := by
  unfold State.checkpointed
  repeat' split
  all_goals apply_rules [kept_setGroup, kept_discard, kept_fate]

theorem kept_checkpoint (h : Kept z s) (c : Issue) (g : Group) (a b : Nat) : Kept z (s.checkpoint c g a b) := by
  -- `unfold` would have the kernel evaluate `placesOf` to compare the two sides: the bare name unfolds at no cost
  conv => arg 2; fun; fun; fun; fun; fun; delta State.checkpoint
  extract_lets slot head regs at_ bad
  have hb (code d va : Nat) : Kept z (bad code d va) := kept_fate (kept_transFault h _ _ _ _ _ _ _ _) _
  generalize s.placesOf g.ctx slot 0x400 true = ps
  generalize s.placesOf g.ctx at_ regs.length true = qs
  cases ps with
  | error e => exact hb _ _ _
  | ok ps =>
    cases qs with
    | error e => exact hb _ _ _
    | ok qs =>
      exact kept_ite (kept_hold (kept_takeOff (kept_takeOff h _ _ _ _ _) _ _ _ _ _) _ _ _)
        (kept_checkpointed (kept_writePlaces (kept_writePlaces h _ _ _ _ _) _ _ _ _ _) _ _)

theorem kept_restartGroup (h : Kept z s) (gid : Nat) : Kept z (s.restartGroup gid) := by
  unfold State.restartGroup
  split
  · exact h
  · next g _ =>
    have hl (a : Nat) (code detail slot : Nat) :
        Kept z ((s.logIllFormed g.ctx (BitVec.ofNat 64 a) code detail).errorAtLeast 3 1 0 g.ctx (BitVec.ofNat 64 slot) 0) :=
      kept_errorAtLeast (kept_logIllFormed h _ _ _ _) _ _ _ _ _ _
    refine kept_ite (kept_setGroup h _ _) ?_
    dsimp only
    split
    · exact hl _ _ _ _
    · exact kept_fetchFor h ‹_›
    · split
      · exact hl _ _ _ _
      · exact kept_fetchFor h ‹_›
      · split
        · exact kept_errorAtLeast (kept_land h _) _ _ _ _ _ _
        · exact kept_setGroup (kept_land h _) _ _

theorem kept_enqueue (h : Kept z s) (ctx q : Nat) (x : Launch) : Kept z (s.enqueue ctx q x).1 := by
  unfold State.enqueue
  apply_rules [kept_fresh, kept_setLaunch, kept_setContext]

theorem kept_acceptRecord (h : Kept z s) (ctx : Nat) (r : List Byte) (clk : Nat) : Kept z (s.acceptRecord ctx r clk).1 := by
  unfold State.acceptRecord
  dsimp only
  split <;> apply_rules [kept_setContext, kept_fresh, kept_enqueue, kept_mk]

theorem kept_refuseRecord (h : Kept z s) (ctx : Nat) (addr : Scalar) (status : Nat) : Kept z (s.refuseRecord ctx addr status) := by
  unfold State.refuseRecord
  split <;> apply_rules [kept_error]

theorem kept_startGroups (h : Kept z s) (lk grove grx core n gix : Nat) : Kept z (s.startGroups lk grove grx core n gix) := by
  induction n generalizing s gix with
  | zero => exact h
  | succ n ih => exact ih (kept_setLaunch (kept_setGroup (kept_fresh h) _ _) _ _) _

theorem kept_startGrove (h : Kept z s) (lk : Nat) (e : Placing) : Kept z (s.startGrove lk e) := by
  obtain ⟨copy, grx, core, upper⟩ := e
  cases upper with
  | none => exact kept_startGroups (kept_setGrove (kept_fresh h) _ rfl) _ _ _ _ _ _
  | some u => exact kept_startGroups (kept_startGroups (kept_setGrove (kept_fresh h) _ rfl) _ _ _ _ _ _) _ _ _ _ _ _

theorem kept_startCopseBars (h : Kept z s) (lk copy grx : Nat) : Kept z (s.startCopseBars lk copy grx) := by
  unfold State.startCopseBars
  dsimp only
  split <;> apply_rules [kept_setLaunch]

theorem kept_beginLaunch (h : Kept z s) (lk : Nat) : Kept z (s.beginLaunch lk) := by
  unfold State.beginLaunch
  dsimp only
  split <;> apply_rules [kept_setLaunch]

theorem kept_takeTurn (h : Kept z s) (ctx : Nat) {t : State} (e : s.takeTurn ctx = some t) : Kept z t := by
  unfold State.takeTurn at e
  dsimp only at e
  repeat' split at e
  all_goals cases e
  all_goals apply_rules [kept_setGlade, kept_restoreSteps]

theorem kept_putDone (h : Kept z s) {ctx : Nat} {p : Place} {cut : Bool} {done : Nat} {val : BitVec 32} {clk : Nat} {r : State × Nat}
    (e : s.putDone ctx p cut done val clk = some r) : Kept z r.1 := by
  unfold State.putDone at e
  dsimp only at e
  have hs := kept_storeAtHome h ctx p (toBytes val.toNat 4) clk
  split at e
  · cases e
    exact kept_error h _ _ _ _ _
  · split at e
    · cases e
      exact kept_error h _ _ _ _ _
    · split at e
      · cases e
        cases p with
        | host q k a => dsimp only; exact kept_setLine hs _ _
        | dram sl o => exact hs
        | scratch k o => exact hs
        | regs k o => exact hs
        | vault d v o => exact hs
      · cases e

theorem kept_storeDone (h : Kept z s) (ctx who done : Nat) (val : BitVec 32) (clk : Nat) : Kept z (s.storeDone ctx who done val clk).1 := by
  rw [State.storeDone]
  generalize s.translateAt ctx done true true = w
  cases s.flightOf who done with
  | some f =>
    dsimp only
    generalize f.pieces.head? = e
    cases e with
    | none => exact kept_pair (kept_land h _)
    | some e =>
      obtain ⟨p, o, n⟩ := e
      dsimp only
      cases ep : s.putDone ctx p (s.unanswered f.seq p) done val clk with
      | some r =>
        obtain ⟨t, w⟩ := r
        exact kept_land (kept_putDone h ep) _
      | none =>
        exact kept_askFlight h _
  | none =>
    cases w with
    | error e => exact kept_pair (kept_error (kept_logIllFormed h _ _ _ _) _ _ _ _ _)
    | ok w =>
      cases w with
      | peer l a => exact kept_pair (kept_error h _ _ _ _ _)
      | place p =>
        cases ep : s.putDone ctx p false done val clk with
        | some r =>
          obtain ⟨t, w⟩ := r
          simp only [ep]
          exact kept_putDone h ep
        | none =>
          simp only [ep]
          exact kept_takeOff h _ _ _ _ _

theorem kept_retire (h : Kept z s) (ctx lk : Nat) : Kept z (s.retire ctx lk) := by
  unfold State.retire
  dsimp only
  split <;> apply_rules [kept_orphanTrigger, kept_mk]

theorem kept_setGraph (h : Kept z s) (k : Nat) (g : Graph) : Kept z (s.setGraph k g) := kept_mk h

theorem kept_endGraph (h : Kept z s) (k : Nat) (ctx : Nat) : Kept z (s.endGraph k ctx) := by
  unfold State.endGraph
  dsimp only
  split <;> apply_rules [kept_land, kept_orphanTrigger, kept_mk]

theorem kept_graphFault (h : Kept z s) (k : Nat) (g : Graph) (addr : Nat) : Kept z (s.graphFault k g addr) := by
  unfold State.graphFault
  apply_rules [kept_land, kept_setGraph, kept_error]

theorem kept_graphReadFault (h : Kept z s) (k : Nat) (g : Graph) (addr a code detail : Nat) : Kept z (s.graphReadFault k g addr a code detail) := by
  unfold State.graphReadFault
  apply_rules [kept_land, kept_setGraph, kept_logIllFormed, kept_error]

theorem kept_graphLaunch (h : Kept z s) (k : Nat) (g : Graph) (x : Node) : Kept z (s.graphLaunch k g x) := by
  unfold State.graphLaunch
  extract_lets submit
  have hs {s : State} (r : List Byte) (h : Kept z s) : Kept z (submit s r) :=
    kept_ite (kept_setGraph h _ _) (kept_setGraph (kept_enqueue (kept_setContext h _ _) _ _ _) _ _)
  split
  · exact hs _ (kept_land h _)
  · split
    · exact kept_graphReadFault h _ _ _ _ _ _
    · exact kept_setGraph (kept_fetchFor h ‹_›) _ _
    · exact kept_graphFault h _ _ _
    · exact kept_ite (kept_graphFault h _ _ _) (hs _ (kept_land h _))

theorem kept_graphBranch (h : Kept z s) (k : Nat) (g : Graph) (x : Node) : Kept z (s.graphBranch k g x) := by
  unfold State.graphBranch
  split
  · exact kept_graphReadFault h _ _ _ _ _ _
  · exact kept_setGraph (kept_fetchFor h ‹_›) _ _
  · exact kept_graphFault h _ _ _
  · exact kept_setGraph (kept_land h _) _ _

theorem kept_graphEnd (h : Kept z s) (k : Nat) (g : Graph) : Kept z (s.graphEnd k g) := by
  have hd := kept_storeDone (kept_writeBack h (g.submitted.flatMap fun l => (s.launchAt l).hostWrote)) g.ctx k g.rcd.done g.rcd.doneval
    (s.writeBack (g.submitted.flatMap fun l => (s.launchAt l).hostWrote)).doneTimes
  refine kept_ite (kept_endGraph (kept_writeBack h _) _ _) ?_
  split
  · exact kept_setGraph (kept_fst ‹_› hd) _ _
  · exact kept_endGraph (kept_foldl (fun _ _ h => kept_noteEffect h _ _) _ (kept_fst ‹_› hd)) _ _

theorem kept_graphNode (h : Kept z s) (k : Nat) (g : Graph) (r : List Byte) : Kept z (s.graphNode k g r) := by
  unfold State.graphNode
  dsimp only
  repeat' split
  all_goals apply_rules [kept_graphFault, kept_graphLaunch, kept_graphEnd, kept_graphBranch, kept_setGraph]

theorem kept_launchRead (h : Kept z s) (c : Issue) (d : Reg) (g : Group) (r : List Byte) : Kept z (s.launchRead c d g r) := by
  unfold State.launchRead
  dsimp only
  repeat' split
  all_goals apply_rules [kept_acceptRecord, kept_scalResult, kept_spoilRestart]

theorem kept_startServing (h : Kept z s) (role : Role) (off s3 : Nat) (key : Nat) : Kept z (s.startServing role off s3 key) := by
  unfold State.startServing
  apply_rules [kept_fresh, kept_setGroup]

theorem kept_replaceGrove (h : Kept z s) (e : Nat × Spot) : Kept z (s.replaceGrove e) := by
  refine kept_foldl (fun _ _ h => kept_mk h) _ (kept_mk (kept_groves h ?_))
  exact scratchWf_alter (fun _ _ => by rfl) _

theorem kept_restoreTurn (h : Kept z s) (ctx : Nat) {t : State} (e : s.restoreTurn ctx = some t) : Kept z t := by
  unfold State.restoreTurn at e
  dsimp only at e
  split at e
  · obtain ⟨u, hu, rfl⟩ := Option.map_eq_some_iff.mp e
    exact kept_mk (kept_takeTurn h ctx hu)
  · cases e

theorem kept_lowered (h : Kept z s) : Kept z s.lowered := by
  unfold State.lowered
  dsimp only
  exact kept_groves h (scratchWf_mapVals (fun _ hv => by exact hv))

theorem kept_setStream (h : Kept z s) (h : Scalar) (x : Stream) : Kept z (s.setStream h x) := by
  unfold State.setStream
  apply_rules [kept_setSlice]

theorem kept_openStream (h : Kept z s) (ctx va : Nat) (p : Place) (desc : Scalar) : Kept z (s.openStream ctx va p desc).1 := by
  unfold State.openStream
  dsimp only
  split <;> apply_rules [kept_setSlice]

theorem kept_openChecked {k : State} (hk : Kept z k) (h : Kept z s) (c : Issue) (g : Group) (a b : Reg) : Kept z (s.openChecked c g a b k) := by
  unfold State.openChecked
  split
  · exact kept_trapWord h _ _ _ _ _ _
  · split
    · exact kept_ite (kept_openHandleFault h _ _ _) hk
    · exact kept_trapWord h _ _ _ _ _ _

theorem kept_handleChecked {k : State} (hk : Kept z k) (h : Kept z s) (c : Issue) (g : Group) (a b : Reg) : Kept z (s.handleChecked c g a b k) :=
  kept_ite (kept_trapWord h _ _ _ _ _ _) (kept_ite (kept_trapWord h _ _ _ _ _ _) hk)

theorem kept_sendContributions (h : Kept z s) (c : Issue) (g : Group) (d a b : Reg) : Kept z (s.sendContributions c g d a b) := by
  refine kept_ite h (kept_checkedFence (fun t ht => kept_handleChecked ht h _ _ _ _) (fun t g ht => kept_handleChecked ?_ ht _ _ _ _) h _ _)
  exact kept_spoilRestart (kept_foldl (fun _ _ h => kept_mk h) _ ht) _

theorem kept_closeStream (h : Kept z s) (h : Scalar) (x : Stream) : Kept z (s.closeStream h x) := by
  unfold State.closeStream
  apply_rules [kept_setStream, kept_mk]

theorem kept_applyIndex (h : Kept z s) (h : Scalar) (x : Stream) (data : Lane) (clk gid : Nat) : Kept z (s.applyIndex h x data clk gid).1 := by
  unfold State.applyIndex
  apply_rules [kept_storeAtHome, kept_noteGroup, kept_setStream]

theorem kept_applyBuffered (v : Scalar) (fuel : Nat) (h : Kept z s) (x : Stream) : Kept z (State.applyBuffered v fuel s x).1 := by
  induction fuel generalizing s x with
  | zero => exact h
  | succ n ih =>
    unfold State.applyBuffered
    split
    · exact h
    · exact ih (kept_applyIndex h _ _ _ _ _) _

theorem kept_violate (h : Kept z s) (port : Nat) (bound : Option Nat) (addr : Nat) : Kept z (s.violate port bound addr) := by
  cases bound with
  | some c => exact kept_logIn (kept_mk h) _ _ _ _ _
  | none => exact kept_foldl (fun _ _ h => kept_ite (kept_logIn h _ _ _ _ _) h) _ h

theorem kept_renewLease (h : Kept z s) (ctx vf page : Nat) : Kept z (s.renewLease ctx vf page) := kept_mk h

theorem kept_removeGuardian (h : Kept z s) (ctx : Nat) (g : Guardian) : Kept z (s.removeGuardian ctx g) := by
  unfold State.removeGuardian
  apply_rules [kept_setPage, kept_mk]

theorem kept_drawNonce (h : Kept z s) (ctx : Nat) : Kept z (s.drawNonce ctx) := by
  unfold State.drawNonce
  apply_rules [kept_draw, kept_mk]

theorem kept_sever (h : Kept z s) (ctx : Nat) (g : Guardian) (primary : Bool) : Kept z (s.sever ctx g primary) := by
  unfold State.sever
  apply_rules [kept_dropXlates, kept_mk]

theorem kept_orphan (h : Kept z s) (ctx at_ : Nat) : Kept z (s.orphan ctx at_) := by
  unfold State.orphan
  apply_rules [kept_drawNonce, kept_mk]

theorem kept_orphanAtOnce (h : Kept z s) (ctx : Nat) : Kept z (s.orphanAtOnce ctx) := by
  unfold State.orphanAtOnce
  split <;> apply_rules [kept_orphanTrigger]

theorem kept_loseGuardian (h : Kept z s) (ctx : Nat) (g : Guardian) (at_ : Nat) : Kept z (s.loseGuardian ctx g at_) := by
  have hr := kept_removeGuardian (kept_sever h ctx g (decide ((s.contextAt ctx).guardians.head? = some g))) ctx g
  exact kept_orphanAtOnce (kept_raise (kept_ite (kept_orphan hr _ _) hr) _ _) _

theorem kept_command {f : Nat → State → Done} (hf : ∀ port, Kept z (f port s).1) (h : Kept z s) (vf page code : Nat) (arg0 : BitVec 32) :
    Kept z (s.command vf page code arg0 f) := by
  refine kept_ite h ?_
  split
  · exact h
  · exact kept_ite (kept_violate h _ _ _) (kept_setPage (hf _) _ _ _)

theorem kept_bindPage (h : Kept z s) (vf page ctx : Nat) : Kept z (s.bindPage vf page ctx) := by
  unfold State.bindPage
  apply_rules [kept_setPage]

theorem kept_allotVaults (h : Kept z s) (ctx : Nat) (vs : List Nat) : Kept z (s.allotVaults ctx vs) := by
  unfold State.allotVaults
  apply_rules [kept_performLane, kept_zeroVaults, kept_mk]

theorem kept_liftStreams (h : Kept z s) (ctx sev : Nat) : Kept z (s.liftStreams ctx sev) := kept_mk h

theorem kept_moveOff (h : Kept z s) (ctx : Nat) : Kept z (s.moveOff ctx) := by
  unfold State.moveOff
  dsimp only
  repeat' split
  all_goals apply_rules [kept_setContext, kept_startEviction]

theorem kept_moveStrays (h : Kept z s) (glade : Nat) : Kept z (s.moveStrays glade) := by
  unfold State.moveStrays
  exact kept_foldl (fun s e h => by apply_rules [kept_moveOff]) _ h

theorem kept_forGuardian {f : Nat → Nat → Guardian → State → Done} (hf : ∀ port ctx g, Kept z (f port ctx g s).1) (h : Kept z s)
    (vf page code : Nat) (arg0 : BitVec 32) : Kept z (s.forGuardian vf page code arg0 f) := by
  unfold State.forGuardian
  split
  · split
    · exact kept_violate h _ _ _
    · exact kept_command (fun _ => hf _ _ _) h _ _ _ _
  · exact h

theorem kept_alterNotice (h : Kept z s) (ctx seq : Nat) (f : Notice → Notice) : Kept z (s.alterNotice ctx seq f) := kept_mk h

theorem kept_answer (h : Kept z s) (n : Notice) (v : Scalar) : Kept z (s.answer n v) := by
  unfold State.answer
  dsimp only
  repeat' split
  all_goals apply_rules [kept_setChannel, kept_setGroup]

theorem kept_pfCommand {f : State → Done} (hf : Kept z (f s).1) (h : Kept z s) (port code : Nat) (arg0 : BitVec 32) :
    Kept z (s.pfCommand port code arg0 f) :=
  kept_ite h (kept_setPort (kept_fst_ite hf h) _ _)

theorem kept_emptied (h : Kept z s) : Kept z s.emptied :=
  kept_groves (kept_dropLines h) (fun _ _ he => by cases he)

theorem kept_scrubProtected (h : Kept z s) : Kept z s.scrubProtected := by
  unfold State.scrubProtected
  refine kept_foldl (fun s e h => ?_) _ h
  split <;> apply_rules [kept_zeroDram, kept_zeroVaults]

theorem kept_beginStart (h : Kept z s) (cold : Bool) : Kept z (s.beginStart cold) := by
  unfold State.beginStart
  apply_rules [kept_scrubProtected, kept_emptied, kept_mk]

theorem kept_lowerSteps (h : Kept z s) : Kept z s.lowerSteps := by
  unfold State.lowerSteps
  apply_rules [kept_lowered, kept_mk]

theorem kept_noteHot (h : Kept z s) : Kept z s.noteHot := kept_mk h

theorem kept_startFails (h : Kept z s) (step : Nat) : Kept z (s.startFails step) := kept_mk h

theorem kept_startCompletes (h : Kept z s) : Kept z s.startCompletes := by
  have hs (pz : Table Nat) : Kept z (if s.boot.cold then { s with dram := [], keys := [], zeroed := [], vaultMem := [], poison := pz } else s) :=
    kept_ite (kept_store h (fun _ => rfl) id (fun _ => rfl) id) h
  exact kept_ite (kept_mk (hs _)) (kept_noteHot (kept_lowerSteps (kept_mk (hs _))))

theorem kept_answerHost (h : Kept z s) (port : Nat) (a : Answer) : Kept z (s.answerHost port a) := by
  unfold State.answerHost
  apply_rules [kept_setPort]

theorem kept_performedFirst (h : Kept z s) (port : Nat) (p : Place) : Kept z (s.performedFirst port p) := by
  unfold State.performedFirst
  apply_rules [kept_retryPrefetches, kept_mk]

theorem kept_hdmWrite (h : Kept z s) (port ctx pa : Nat) (data : List Byte) : Kept z (s.hdmWrite port ctx pa data) := by
  unfold State.hdmWrite
  exact kept_foldl (fun s e h => by apply_rules [kept_storeLine, kept_performedFirst]) _ h

theorem kept_setPresent (h : Kept z s) (p : Place) (port : Nat) : Kept z (s.setPresent p port) := by
  unfold State.setPresent
  apply_rules [kept_setLine]

theorem kept_clearPresent (h : Kept z s) (port line : Nat) : Kept z (s.clearPresent port line) := kept_mk h

theorem kept_keepShared (h : Kept z s) (port line : Nat) : Kept z (s.keepShared port line) := kept_mk h

theorem kept_unask (h : Kept z s) (port line : Nat) : Kept z (s.unask port line) := kept_mk h

theorem kept_returnDirty (h : Kept z s) (line : Nat) (data : List Byte) : Kept z (s.returnDirty line data) := by
  unfold State.returnDirty
  apply_rules [kept_setLine, kept_putBytes]

theorem kept_answerSnoop (h : Kept z s) (port addr : Nat) (homes : List Place) : Kept z (s.answerSnoop port addr homes) := by
  unfold State.answerSnoop
  apply_rules [kept_answerHost]

theorem kept_shareLine (h : Kept z s) (homes : List Place) : Kept z (s.shareLine homes) := by
  unfold State.shareLine
  exact kept_foldl (fun s e h => by apply_rules [kept_setLine]) _ h

theorem kept_dropAsk (h : Kept z s) (a : Ask) : Kept z (s.dropAsk a) := kept_mk h

theorem kept_hostStore (h : Kept z s) (port addr : Nat) (data : List Byte) : Kept z (s.hostStore port addr data) := by
  unfold State.hostStore
  split <;> apply_rules [kept_putBytes]

theorem kept_heartbeat (h : Kept z s) (port vf page : Nat) : Kept z (s.heartbeat port vf page) := by
  unfold State.heartbeat
  split <;> apply_rules [kept_renewLease, kept_violate]

theorem kept_writeNtail (h : Kept z s) (vf page : Nat) (value : BitVec 32) : Kept z (s.writeNtail vf page value) := by
  unfold State.writeNtail
  apply_rules [kept_setPage]

/-! ## The commands of the pages and of the ports -/

theorem kept_leaves {o : Host.Outcome State Fault Refusal} (h : Kept z s) (ho : KeptOut z o) : Kept z (leaves s o) := by
  unfold leaves
  split
  · exact ho _ rfl
  · exact h
  · exact h

theorem kept_notPermitted (h : Kept z s) (port vf page : Nat) : Kept z (s.notPermitted port vf page).1 := kept_violate h _ _ _

theorem kept_asUnbound {f : Done} (hf : Kept z f.1) (h : Kept z s) (vf page port : Nat) : Kept z (s.asUnbound vf page port f).1 :=
  kept_fst_ite hf (kept_notPermitted h _ _ _)

theorem kept_bindCmd (h : Kept z s) (vf page port : Nat) (arg0 : BitVec 32) : Kept z (s.bindCmd vf page port arg0).1 := by
  unfold State.bindCmd
  dsimp only
  repeat' split
  all_goals apply_rules [kept_bindPage, kept_setContext, kept_draw, kept_mk]

theorem keptOut_bind (h : Kept z s) (vf page : Nat) (arg0 : BitVec 32) : KeptOut z (execBind vf page arg0 s) :=
  keptOut_next (kept_command (fun _ => kept_asUnbound (kept_bindCmd h _ _ _ _) h _ _ _) h _ _ _ _)

theorem kept_asPrimary {f : Nat → Context → Guardian → Done} (hf : ∀ ctx x g, Kept z (f ctx x g).1) (h : Kept z s) (vf page port : Nat) :
    Kept z (s.asPrimary vf page port f).1 := by
  unfold State.asPrimary
  split
  · exact kept_notPermitted h _ _ _
  · exact kept_fst_ite (hf _ _ _) (kept_notPermitted h _ _ _)

theorem kept_setCmd (h : Kept z s) (ctx : Nat) (x : Context) (b : List Byte) : Kept z (s.setCmd ctx x b).1 := by
  unfold State.setCmd
  split
  · exact h
  · refine kept_fst_ite h ?_
    extract_lets s1 s2 s3 t
    have h1 : Kept z s1 := kept_ite h (kept_mk h)
    have h2 : Kept z s2 := kept_liftStreams (kept_allotVaults h1 _ _) _ _
    have h3 : Kept z s3 := kept_ite h2 (kept_endSlice h2 _)
    have ht : Kept z t := kept_setContext h3 _ _
    exact kept_ite ht (kept_moveStrays ht _)

theorem keptOut_set (h : Kept z s) (vf page : Nat) (arg0 : BitVec 32) : KeptOut z (execSet vf page arg0 s) :=
  keptOut_next (kept_command (fun _ => kept_asPrimary (fun _ _ _ => kept_setCmd h _ _ _) h _ _ _) h _ _ _ _)

theorem kept_channelCmd (h : Kept z s) (ctx num : Nat) (unassign : Bool) : Kept z (s.channelCmd ctx num unassign).1 := by
  unfold State.channelCmd
  dsimp only
  repeat' split
  all_goals apply_rules [kept_setChannel]

theorem kept_assignCmd (h : Kept z s) (ctx num engine chan : Nat) : Kept z (s.assignCmd ctx num engine chan).1 := by
  unfold State.assignCmd
  dsimp only
  repeat' split
  all_goals apply_rules [kept_setChannel]

theorem kept_assignchCmd (h : Kept z s) (ctx : Nat) (arg0 : BitVec 32) : Kept z (s.assignchCmd ctx arg0).1 := by
  unfold State.assignchCmd
  dsimp only
  repeat' split
  all_goals apply_rules [kept_channelCmd, kept_assignCmd]

theorem keptOut_assignch (h : Kept z s) (vf page : Nat) (arg0 : BitVec 32) : KeptOut z (execAssignch vf page arg0 s) :=
  keptOut_next (kept_command (fun _ => kept_asPrimary (fun _ _ _ => kept_assignchCmd h _ _) h _ _ _) h _ _ _ _)

theorem keptOut_setsucc (h : Kept z s) (vf page : Nat) (arg0 : BitVec 32) : KeptOut z (execSetsucc vf page arg0 s) :=
  keptOut_next (kept_command (fun _ => kept_asPrimary (fun _ _ _ => kept_setContext h _ _) h _ _ _) h _ _ _ _)

theorem keptOut_share (h : Kept z s) (vf page : Nat) (arg0 : BitVec 32) : KeptOut z (execShare vf page arg0 s) :=
  keptOut_next (kept_command (fun _ => kept_asPrimary (fun _ _ _ => kept_setContext h _ _) h _ _ _) h _ _ _ _)

theorem kept_onNamed {f : Nat → Context → Done} (hf : ∀ ctx x, Kept z (f ctx x).1) (h : Kept z s) (arg0 : BitVec 32) :
    Kept z (s.onNamed arg0 f).1 := by
  unfold State.onNamed
  dsimp only
  split
  · exact h
  · exact kept_drawNonce (hf _ _) _

theorem kept_joinCmd (h : Kept z s) (vf page port ctx : Nat) (x : Context) : Kept z (s.joinCmd vf page port ctx x).1 := by
  unfold State.joinCmd
  dsimp only
  repeat' split
  all_goals apply_rules [kept_bindPage, kept_setContext]

theorem keptOut_join (h : Kept z s) (vf page : Nat) (arg0 : BitVec 32) : KeptOut z (execJoin vf page arg0 s) :=
  keptOut_next (kept_command (fun _ => kept_asUnbound (kept_onNamed (fun _ _ => kept_joinCmd h _ _ _ _ _) h _) h _ _ _) h _ _ _ _)

theorem kept_unshareCmd (h : Kept z s) (vf page port ctx : Nat) (g : Guardian) (arg0 : BitVec 32) :
    Kept z (s.unshareCmd vf page port ctx g arg0).1 := by
  unfold State.unshareCmd
  dsimp only
  repeat' split
  all_goals apply_rules [kept_notPermitted, kept_removeGuardian]

theorem keptOut_unshare (h : Kept z s) (vf page : Nat) (arg0 : BitVec 32) : KeptOut z (execUnshare vf page arg0 s) := by
  refine keptOut_next (kept_command (fun _ => ?_) h _ _ _ _)
  split
  · exact kept_notPermitted h _ _ _
  · exact kept_unshareCmd h _ _ _ _ _ _

theorem kept_transferCmd (h : Kept z s) (ctx : Nat) (x : Context) (g : Guardian) (identity : BitVec 256) (arg0 : BitVec 32) :
    Kept z (s.transferCmd ctx x g identity arg0).1 := by
  unfold State.transferCmd
  dsimp only
  repeat' split
  · exact h
  · exact h
  · exact kept_foldl (fun _ _ ht => kept_sendNotice ht _ _) _ (kept_bindPage (kept_setContext (kept_setPage h _ _ _) _ _) _ _ _)

theorem keptOut_transfer (h : Kept z s) (vf page : Nat) (arg0 : BitVec 32) : KeptOut z (execTransfer vf page arg0 s) :=
  keptOut_next (kept_command (fun _ => kept_asPrimary (fun _ _ _ => kept_transferCmd h _ _ _ _ _) h _ _ _) h _ _ _ _)

theorem kept_adoptCmd (h : Kept z s) (vf page port ctx : Nat) (x : Context) : Kept z (s.adoptCmd vf page port ctx x).1 := by
  unfold State.adoptCmd
  dsimp only
  iterate 5 refine kept_fst_ite h ?_
  exact kept_foldl (fun _ _ ht => kept_sendNotice ht _ _) _ (kept_bindPage (kept_setContext h _ _) _ _ _)

theorem keptOut_adopt (h : Kept z s) (vf page : Nat) (arg0 : BitVec 32) : KeptOut z (execAdopt vf page arg0 s) :=
  keptOut_next (kept_command (fun _ => kept_asUnbound (kept_onNamed (fun _ _ => kept_adoptCmd h _ _ _ _ _) h _) h _ _ _) h _ _ _ _)

theorem keptOut_resume (h : Kept z s) (vf page : Nat) (arg0 : BitVec 32) : KeptOut z (execResume vf page arg0 s) :=
  keptOut_next (kept_command (fun _ => kept_asPrimary (fun _ _ _ => kept_fst_ite h (kept_setContext h _ _)) h _ _ _) h _ _ _ _)

theorem keptOut_claim (h : Kept z s) (vf page : Nat) (arg0 : BitVec 32) : KeptOut z (execClaim vf page arg0 s) := by
  refine keptOut_next (kept_forGuardian (fun _ _ _ => ?_) h _ _ _ _)
  split
  · exact h
  · exact h
  · exact kept_fst_ite h (kept_alterNotice h _ _ _)

theorem keptOut_reply (h : Kept z s) (vf page : Nat) (arg0 : BitVec 32) : KeptOut z (execReply vf page arg0 s) := by
  refine keptOut_next (kept_forGuardian (fun _ _ _ => ?_) h _ _ _ _)
  dsimp only
  split
  · exact h
  · exact h
  · exact kept_fst_ite (kept_notPermitted h _ _ _) (kept_fst_ite h (kept_answer (kept_alterNotice h _ _ _) _ _))

theorem keptOut_evict (h : Kept z s) (vf page : Nat) (arg0 : BitVec 32) : KeptOut z (execEvict vf page arg0 s) :=
  keptOut_next (kept_command (fun _ => kept_asPrimary (fun _ _ _ =>
    kept_ite (kept_setContext h _ _) (kept_ite h (kept_startEviction h _))) h _ _ _) h _ _ _ _)

theorem keptOut_restore (h : Kept z s) (vf page : Nat) (arg0 : BitVec 32) : KeptOut z (execRestore vf page arg0 s) :=
  keptOut_next (kept_command (fun _ => kept_asPrimary (fun _ _ _ =>
    kept_ite (kept_setContext h _ _) (kept_ite (kept_setContext h _ _) h)) h _ _ _) h _ _ _ _)

theorem keptOut_release (h : Kept z s) (vf page : Nat) (arg0 : BitVec 32) : KeptOut z (execRelease vf page arg0 s) :=
  keptOut_next (kept_command (fun _ => kept_asPrimary (fun _ _ _ => kept_pair (kept_destroy h _)) h _ _ _) h _ _ _ _)

theorem kept_pageCommand (h : Kept z s) (vf page code : Nat) (arg0 : BitVec 32) : Kept z (s.pageCommand vf page code arg0) := by
  unfold State.pageCommand
  split
  · exact kept_leaves h (keptOut_bind h _ _ _)
  · exact kept_leaves h (keptOut_set h _ _ _)
  · exact kept_leaves h (keptOut_assignch h _ _ _)
  · exact kept_leaves h (keptOut_setsucc h _ _ _)
  · exact kept_leaves h (keptOut_share h _ _ _)
  · exact kept_leaves h (keptOut_join h _ _ _)
  · exact kept_leaves h (keptOut_unshare h _ _ _)
  · exact kept_leaves h (keptOut_transfer h _ _ _)
  · exact kept_leaves h (keptOut_adopt h _ _ _)
  · exact kept_leaves h (keptOut_resume h _ _ _)
  · exact kept_leaves h (keptOut_claim h _ _ _)
  · exact kept_leaves h (keptOut_reply h _ _ _)
  · exact kept_leaves h (keptOut_evict h _ _ _)
  · exact kept_leaves h (keptOut_restore h _ _ _)
  · exact kept_leaves h (keptOut_release h _ _ _)
  · exact kept_command (fun _ => kept_notPermitted h _ _ _) h _ _ _ _

theorem kept_writePageCmd (h : Kept z s) (vf page off : Nat) (data : List Byte) : Kept z (s.writePageCmd vf page off data) := by
  unfold State.writePageCmd
  extract_lets p v arg0
  exact kept_ite (kept_pageCommand h _ _ _ _) (kept_setPage h _ _ _)

theorem kept_writeWindow (h : Kept z s) (vf page ctx off : Nat) (data : List Byte) : Kept z (s.writeWindow vf page ctx off data) := by
  unfold State.writeWindow
  apply_rules [kept_setContext]

theorem kept_writePage (h : Kept z s) (port vf page off : Nat) (data : List Byte) : Kept z (s.writePage port vf page off data) := by
  unfold State.writePage
  dsimp only
  repeat' split
  all_goals apply_rules [kept_violate, kept_writeWindow, kept_writePageCmd, kept_heartbeat, kept_writeNtail, kept_setPage]

theorem kept_gcreateCmd (h : Kept z s) (port : Nat) (arg0 : BitVec 32) : Kept z (s.gcreateCmd port arg0).1 :=
  kept_fst_ite h (kept_fst_ite h (kept_setGlade (kept_draw (kept_mk h)) _ _))

theorem keptOut_gcreate (h : Kept z s) (port : Nat) (arg0 : BitVec 32) : KeptOut z (execGcreate port arg0 s) :=
  keptOut_next (kept_pfCommand (kept_gcreateCmd h _ _) h _ _ _)

theorem kept_pfRefused (h : Kept z s) (port : Nat) : Kept z (s.pfRefused port).1 := by
  unfold State.pfRefused
  exact kept_pair (kept_violate h _ _ _)

theorem kept_asAdmin {f : Nat → Glade → Done} (hf : ∀ k g, Kept z (f k g).1) (h : Kept z s) (port : Nat) (arg0 : BitVec 32) :
    Kept z (s.asAdmin port arg0 f).1 := by
  unfold State.asAdmin
  split
  · exact h
  · exact kept_fst_ite (hf _ _) (kept_pfRefused h _)

theorem kept_gdestroyCmd (h : Kept z s) (k : Nat) (g : Glade) : Kept z (s.gdestroyCmd k g).1 :=
  kept_fst_ite h (kept_mk (kept_wipeGlade (kept_mk h) _ _))

theorem keptOut_gdestroy (h : Kept z s) (port : Nat) (arg0 : BitVec 32) : KeptOut z (execGdestroy port arg0 s) :=
  keptOut_next (kept_pfCommand (kept_asAdmin (fun _ _ => kept_gdestroyCmd h _ _) h _ _) h _ _ _)

theorem kept_gsetCmd (h : Kept z s) (k : Nat) (g : Glade) (a : GladeArgs) : Kept z (s.gsetCmd k g a).1 :=
  kept_fst_ite h (kept_setGlade h _ _)

theorem keptOut_gset (h : Kept z s) (port : Nat) (arg0 : BitVec 32) : KeptOut z (execGset port arg0 s) :=
  keptOut_next (kept_pfCommand (kept_asAdmin (fun _ _ => kept_gsetCmd h _ _ _) h _ _) h _ _ _)

theorem kept_requestStart (h : Kept z s) (cold : Bool) : Kept z (s.requestStart cold).1 := by
  unfold State.requestStart
  repeat' split
  all_goals apply_rules [kept_beginStart]

theorem kept_startCmd (h : Kept z s) (arg0 : BitVec 32) : Kept z (s.startCmd arg0).1 := kept_fst_ite h (kept_requestStart h _)

theorem kept_portCommand (h : Kept z s) (port code : Nat) (arg0 : BitVec 32) : Kept z (s.portCommand port code arg0) := by
  unfold State.portCommand
  split
  · exact kept_leaves h (keptOut_gcreate h _ _)
  · exact kept_leaves h (keptOut_gdestroy h _ _)
  · exact kept_leaves h (keptOut_gset h _ _)
  · exact kept_pfCommand (kept_startCmd h _) h _ _ _
  · exact kept_pfCommand (kept_pfRefused h _) h _ _ _

theorem kept_writePortCmd (h : Kept z s) (port off : Nat) (data : List Byte) : Kept z (s.writePortCmd port off data) := by
  unfold State.writePortCmd
  extract_lets p v arg0
  exact kept_ite (kept_portCommand h _ _ _) (kept_setPort h _ _)

theorem kept_writeErrsev (h : Kept z s) (port glade off : Nat) (data : List Byte) : Kept z (s.writeErrsev port glade off data) := by
  unfold State.writeErrsev
  split <;> apply_rules [kept_answerHost, kept_error, kept_setGlade]

theorem kept_violateWindow (h : Kept z s) (slice addr : Nat) : Kept z (s.violateWindow slice addr) := by
  unfold State.violateWindow
  split <;> apply_rules [kept_logIn]

theorem kept_writePf (h : Kept z s) (port off : Nat) (data : List Byte) : Kept z (s.writePf port off data) := by
  unfold State.writePf
  dsimp only
  repeat' split
  all_goals apply_rules [kept_writePortCmd, kept_setPort, kept_writeErrsev, kept_violateWindow, kept_violate, kept_mk]

theorem kept_violatePf (h : Kept z s) (port off : Nat) : Kept z (s.violatePf port off) := by
  unfold State.violatePf
  split <;> apply_rules [kept_violateWindow, kept_violate]

theorem kept_admitted (h : Kept z s) {vf page off : Nat} {t : Bool} {u : State} (e : s.admitted vf page off t = .error u) : Kept z u := by
  unfold State.admitted at e
  split at e
  · dsimp only at e
    split at e
    · cases e
      exact kept_answerHost (kept_violate h _ _ _) _ _
    · cases e
  · cases e
    exact kept_answerHost h _ _
  · cases e
    exact h

theorem kept_hostLook (h : Kept z s) (fn : HostFn) (off len : Nat) : Kept z (s.hostLook fn off len) := by
  unfold State.hostLook
  split
  · refine kept_ite ?_ h
    split
    · exact kept_answerHost h _ _
    · exact kept_answerHost (kept_violatePf h _ _) _ _
  · split
    · exact kept_ite (kept_admitted h ‹_›) (kept_answerHost h _ _)
    · exact kept_admitted h ‹_›
    · split
      · exact kept_answerHost h _ _
      · exact kept_answerHost (kept_violate h _ _ _) _ _

theorem kept_setVfCounts (h : Kept z s) (counts : List Nat) : Kept z (s.setVfCounts counts) :=
  kept_ite (kept_foldl (fun _ _ h => kept_setPort h _ _) _ h) h

theorem kept_peerWriteLine (h : Kept z s) (glade : Nat) (p : Place) (bytes : List Byte) (poisoned : Bool) (cc : Nat) :
    Kept z (s.peerWriteLine glade p bytes poisoned cc).1 := by
  unfold State.peerWriteLine
  split <;> apply_rules [kept_setLine, kept_putBytes, kept_holdLine, kept_markBytes]

theorem kept_peerReadLine (h : Kept z s) (p : Place) (cc : Nat) : Kept z (s.peerReadLine p cc).1 := by
  unfold State.peerReadLine
  apply_rules [kept_renewAtHome]

theorem kept_setAgent (h : Kept z s) (link glade cc : Nat) (a : Answer) : Kept z (s.setAgent link glade cc a) := by
  unfold State.setAgent
  apply_rules [kept_setLink]

theorem kept_movePlanes (h : Kept z s) (c : Issue) (g : Group) (sel : Nat → Bool) (f : Nat → Nat) : Kept z (s.movePlanes c g sel f) := by
  unfold State.movePlanes
  apply_rules [kept_setGroup]

theorem kept_appendOp (h : Kept z s) (gid : Nat) (g : Group) (o : MatOp) : Kept z (s.appendOp gid g o) := by
  unfold State.appendOp
  apply_rules [kept_fresh, kept_setGroup]

theorem kept_afterResults {k : State} (hk : Kept z k) (h : Kept z s) (c : Issue) (g : Group) (keys : List Nat) : Kept z (s.afterResults c g keys k) :=
  kept_ite (kept_hold h _ _ _) hk

theorem kept_matrixWord (h : Kept z s) (c : Issue) (g : Group) (sparse : Bool) (d : Reg) (sa sb : BitVec 5) (fmt : BitVec 3) (bsel : BitVec 4) :
    Kept z (s.matrixWord c g sparse d sa sb fmt bsel) := by
  have ht (code detail : Nat) (a : Scalar) : Kept z (s.trapWord c g code detail a 0) := kept_trapWord h _ _ _ _ _ _
  refine kept_afterResults (kept_ite (ht _ _ _) (kept_ite (ht _ _ _) (kept_ite (ht _ _ _) (kept_ite (ht _ _ _) ?_)))) h _ _ _
  split
  · exact ht _ _ _
  · exact ht _ _ _
  · exact kept_afterResults (kept_appendOp h _ _ _) h _ _ _

theorem kept_readChunk (h : Kept z s) (gid seq : Nat) (p : Place) : Kept z (s.readChunk gid seq p) := by
  unfold State.readChunk
  dsimp only
  repeat' split
  all_goals apply_rules [kept_setGroup]

theorem kept_killContext (h : Kept z s) (ctx : Nat) : Kept z (s.killContext ctx) := by
  unfold State.killContext
  split
  · exact kept_destroy h ctx
  · exact h

theorem kept_unpowered (h : Kept z s) : Kept z s.unpowered :=
  kept_store (kept_dropLines h) (fun _ => rfl) id (fun _ => rfl) (fun _ _ he => by cases he)

theorem kept_putLoad (h : Kept z s) (y : Load) : Kept z (s.putLoad y) := kept_mk h

theorem kept_performReads (h : Kept z s) (seq : Nat) : Kept z (s.performReads seq) := by
  unfold State.performReads
  dsimp only
  repeat' split
  all_goals apply_rules [kept_performLoad, kept_putLoad, kept_askLoad]

theorem kept_performOne (h : Kept z s) (seq lane : Nat) : Kept z (s.performOne seq lane) := by
  unfold State.performOne
  split
  · exact h
  · split
    · exact kept_ite (kept_putLoad (kept_foldl_fst (fun _ _ h => kept_performLane h _ _ _ _) _ h) _) (kept_askLoad h _)
    · exact h

theorem kept_acked (h : Kept z s) (gid : Nat) (seqs : List Nat) (t : Nat) (line : Place) (mask : Nat) : Kept z (s.acked gid seqs t line mask) := by
  unfold State.acked
  apply_rules [kept_raiseStamps, kept_noteGroup, kept_settle, kept_mk]

theorem kept_dropEntry (h : Kept z s) (e : Entry) : Kept z (s.dropEntry e) := kept_mk h

theorem kept_dropped (h : Kept z s) (cls ctx va : Nat) : Kept z (s.dropped cls ctx va) := by
  unfold State.dropped
  apply_rules [kept_error]

theorem kept_drain (h : Kept z s) (e : Entry) : Kept z (s.drain e) := by
  unfold State.drain
  dsimp only
  split <;> apply_rules [kept_dropEntry, kept_acked, kept_dropped, kept_storeLine]

theorem kept_drainSlot (h : Kept z s) (w : SlotWrite) : Kept z (s.drainSlot w) := by
  unfold State.drainSlot
  repeat' split
  all_goals apply_rules [kept_performSlot, kept_ask, kept_mk]

theorem kept_askWrite (h : Kept z s) (ctx seq : Nat) (p : Place) : Kept z (s.askWrite ctx seq p) := by
  unfold State.askWrite
  split <;> apply_rules [kept_ask]

theorem kept_putAtom (h : Kept z s) (a : Atomic) (l : AtomLane) (mask : Nat) : Kept z (s.putAtom a l mask) := by
  unfold State.putAtom
  repeat' split
  all_goals apply_rules [kept_acked, kept_mk]

theorem kept_loseLane (h : Kept z s) (a : Atomic) (l : AtomLane) (cls : Nat) : Kept z (s.loseLane a l cls) := by
  unfold State.loseLane
  apply_rules [kept_draw, kept_putAtom, kept_dropped]

theorem kept_dropContribution (h : Kept z s) (x : Contribution) : Kept z (s.dropContribution x) := by
  unfold State.dropContribution
  apply_rules [kept_error, kept_mk]

theorem kept_closeIfDone (h : Kept z s) (h : Scalar) (x : Stream) : Kept z (s.closeIfDone h x) := by
  unfold State.closeIfDone
  split <;> apply_rules [kept_closeStream]

theorem kept_applyContribution (h : Kept z s) (x : Contribution) (st : Stream) : Kept z (s.applyContribution x st) := by
  unfold State.applyContribution
  apply_rules [kept_applyIndex, kept_applyBuffered, kept_closeIfDone, kept_mk]

theorem kept_refuse (h : Kept z s) (x : Contribution) : Kept z (s.refuse x) := by
  unfold State.refuse
  dsimp only
  repeat' split
  all_goals apply_rules [kept_mk]

theorem kept_loseContribution (h : Kept z s) (x : Contribution) (st : Stream) (cls : Nat) : Kept z (s.loseContribution x st cls) := by
  unfold State.loseContribution
  apply_rules [kept_dropped, kept_mk]

theorem kept_release (h : Kept z s) (gid : Nat) : Kept z (s.release gid) := by
  unfold State.release
  apply_rules [kept_compare, kept_mk]

theorem kept_mismatch (h : Kept z s) (gid : Nat) (g : Group) : Kept z (s.mismatch gid g) := by
  unfold State.mismatch
  dsimp only
  repeat' split
  all_goals apply_rules [kept_errorAtLeast, kept_strike, kept_error]

theorem kept_accessAll {k : State → List Located → State} (hk : ∀ s l, Kept z s → Kept z (k s l)) (h :
    Kept z s) (c : Issue) (g : Group) (write : Bool)
    (la : List (Nat × Scalar)) : Kept z (s.accessAll c g write la k) :=
  kept_ite (hk _ _ (kept_locateAll h _ _ _ _)) (kept_accessFault (kept_locateAll h _ _ _ _) _ _ _)

theorem kept_checked {k : State} (hk : Kept z k) (h : Kept z s) (c : Issue) (g : Group) (globalOnly : Bool) (size n : Nat) (a : Scalar) :
    Kept z (s.checked c g globalOnly size n a k) := by
  unfold State.checked
  repeat' split
  all_goals apply_rules [kept_trapWord]

theorem kept_loadUnitState (h : Kept z s) (g : Group) (epoch : Nat) (r : List Byte) : Kept z (s.loadUnitState g epoch r) :=
  kept_foldl (fun _ _ h => kept_mk h) _ (kept_foldl (fun _ _ h => kept_setBarrier h _ _ _) _ h)

theorem kept_whenIdle {k : State} (hk : Kept z k) (h : Kept z s) (c : Issue) (g : Group) : Kept z (s.whenIdle c g k) :=
  kept_ite (kept_hold (kept_drainGroup h _) _ _ _) hk

theorem kept_landStores (h : Kept z s) (cut : Place → Bool) (gid ctx clk va : Nat) (ps : List (Place × Nat × Nat)) (bytes : List Byte) :
    Kept z (s.landStores cut gid ctx clk va ps bytes) := by
  refine kept_foldl (fun _ _ h => kept_foldl (fun _ _ h => ?_) _ h) _ h
  exact kept_ite (kept_error h _ _ _ _ _) (kept_ite (kept_error h _ _ _ _ _)
    (kept_ite (kept_mk (kept_storeAtHome h _ _ _ _)) (kept_putBytes h _ _ _)))

theorem kept_storeBlock {k : State → State} (hk : ∀ s, Kept z s → Kept z (k s)) (h : Kept z s) (c : Issue) (g : Group) (size : Nat) (va : Scalar)
    (l : List Located) (bytes : List Byte) : Kept z (s.storeBlock c g size va l bytes k) :=
  kept_ite (hk _ (kept_landStores (kept_setGroup h _ _) _ _ _ _ _ _ _)) (kept_hold (kept_takeOff h _ _ _ _ _) _ _ _)

theorem kept_landBlock (h : Kept z s) (c : Issue) (g : Group) : Kept z (s.landBlock c g) :=
  kept_foldl (fun _ _ h => kept_landStores h _ _ _ _ _ _ _) _ (kept_setGroup (kept_land h _) _ _)

theorem kept_writeSeal (h : Kept z s) (c : Issue) (g : Group) (d b : Scalar) (plain : List Byte) : Kept z (s.writeSeal c g d b plain) :=
  kept_accessAll (fun _ _ h => kept_storeBlock (fun _ h => kept_spoilRestart h _) h _ _ _ _ _ _) h _ _ _ _

theorem kept_acceptSeal (h : Kept z s) (c : Issue) (g : Group) (v a d : Scalar) (r : List Byte) : Kept z (s.acceptSeal c g v a d r) := by
  unfold State.acceptSeal
  split
  · exact kept_trapWord h _ _ _ _ _ _
  · exact kept_ite (kept_loadUnitState h _ _ _) (kept_accessAll (fun _ _ h => kept_storeBlock (fun _ => id) h _ _ _ _ _ _) h _ _ _ _)

theorem kept_setTdisp (h : Kept z s) (vf : Nat) (t : Tdisp) : Kept z (s.setTdisp vf t) := by
  unfold State.setTdisp
  apply_rules [kept_setVf]

theorem kept_endRole (h : Kept z s) (vf page : Nat) : Kept z (s.endRole vf page) := by
  unfold State.endRole
  repeat' split
  all_goals apply_rules [kept_loseGuardian]

theorem kept_interfaceError (h : Kept z s) (vf : Nat) : Kept z (s.interfaceError vf) := by
  unfold State.interfaceError
  split <;> apply_rules [kept_setTdisp, kept_error]

theorem kept_spdm (h : Kept z s) (port : Nat) (allowed : Port → Bool) (f : Port → Port) : Kept z (s.spdm port allowed f) := by
  unfold State.spdm
  dsimp only
  repeat' split
  all_goals apply_rules [kept_setPort, kept_answerHost, kept_error]

theorem kept_trapFault (h : Kept z s) (c : Issue) (g : Group) (code detail : Nat) (taddr : Scalar) : Kept z (s.trapFault c g code detail taddr) := by
  unfold State.trapFault
  split <;> apply_rules [kept_trapWord]

theorem kept_ctlPut (h : Kept z s) (c : Issue) (g : Group) (i : Nat) (v : Scalar) : Kept z (s.ctlPut c g i v) := by
  have hw : Kept z (s.ctlPut c g 4 v) := by
    refine kept_ite (kept_setGroup h _ _) (kept_ite (kept_landWrites (kept_setGroup h _ _) _ _) ?_)
    cases s.placesOf g.ctx (s.slotOf g + 0x1C) 4 true with
    | error e => exact kept_trapFault (kept_logIllFormed h _ _ _ _) _ _ _ _ _
    | ok ps => exact kept_ite (kept_hold (kept_takeOff h _ _ _ _ _) _ _ _) (kept_writePlaces (kept_setGroup h _ _) _ _ _ _ _)
  unfold State.ctlPut
  split
  case h_5 => exact hw
  all_goals apply_rules [kept_setGroup, kept_mk]

theorem kept_service (h : Kept z s) (c : Issue) (g : Group) (l : BitVec 7) : Kept z (s.service c g l) := by
  unfold State.service
  extract_lets g' s1 s2 alive x s3 n s4
  have h1 : Kept z s1 := kept_spoilRestart (kept_setGroup h _ _) _
  have h2 : Kept z s2 := kept_ite (kept_slotWrite h1 _ _ _ _) h1
  have h3 : Kept z s3 := kept_ite (kept_hold h2 _ _ _) (kept_fate h2 _)
  have h4 : Kept z s4 := kept_raise h3 _ _
  exact kept_ite h3 (kept_ite (kept_fate (kept_suspend h4 _) _)
    (kept_ite (kept_fate (kept_discard (kept_ite (kept_dropNotices h4 _) h4) _) _) h4))

theorem kept_elapse (h : Kept z s) (ns : Nat) : Kept z (s.elapse ns) := kept_mk h

theorem kept_untrackClean (h : Kept z s) (p : Place) : Kept z (s.untrackClean p) := by
  unfold State.untrackClean
  split <;> apply_rules [kept_untrack]

/-! ## The words and the events -/

theorem keptOut_word (h : Kept z s) {i : Instr} {k : Issue → Group → State} (hk : ∀ c g, Kept z (k c g)) : KeptOut z (word i s k) := by
  unfold word
  repeat' split
  · exact keptOut_fault _
  · exact keptOut_fault _
  · exact keptOut_next (kept_trapWord h _ _ _ _ _ _)
  · exact keptOut_next (kept_trapWord h _ _ _ _ _ _)
  · exact keptOut_next (kept_hold h _ _ _)
  · exact keptOut_next (hk _ _)

theorem keptOut_vpref (h : Kept z s) (a b : Reg) : KeptOut z (execVpref a b s) :=
  keptOut_word h fun _ _ => kept_ite (kept_foldl (fun _ _ ht => kept_prefetch ht _ _ _) _ h) h

theorem keptOut_dload (h : Kept z s) (a : Reg) : KeptOut z (execDload a s) := by
  refine keptOut_word h fun c g => kept_ite h (kept_ownRead (fun _ _ _ _ ht => kept_setGroup ht _ _) (fun go hgo => ?_) h _ _)
  exact kept_access (fun _ _ _ ht => hgo _ _ _ ht) h _ _ _ _ _ _ _

theorem keptOut_barArr (h : Kept z s) (l : BitVec 7) : KeptOut z (execBarArr l s) :=
  keptOut_word h fun _ _ => kept_arrive (fun _ ht => ht) h _ _ _

theorem keptOut_barSync (h : Kept z s) (l : BitVec 7) : KeptOut z (execBarSync l s) := by
  refine keptOut_word h fun c g => ?_
  split
  · exact kept_await h _ _
  · exact kept_arrive (fun _ ht => kept_await ht _ _) h _ _ _

theorem keptOut_exit (h : Kept z s) : KeptOut z (execExit s) := by
  have he (c : Issue) (t : State) (ht : Kept z t) : Kept z ((t.endGroup c.gid).fate .left) := kept_fate (kept_endGroup ht _) _
  refine keptOut_word h fun c g => ?_
  split
  · exact kept_whenQuiet (he c) h _ _
  all_goals exact kept_whenQuiet (fun _ ht => kept_afterFence (fun _ _ hu => he c _ hu) ht _ _) h _ _

theorem keptOut_cpyq (h : Kept z s) (d a b : Reg) : KeptOut z (execCpyq d a b s) := by
  refine keptOut_word h fun c g => kept_afterRoom ?_ h _ _ _
  split
  · exact kept_trapWord h _ _ _ _ _ _
  · exact kept_afterFence (fun _ _ ht => kept_submit ht _ _ _ _) h _ _

theorem keptOut_cpyt (h : Kept z s) (d a b : Reg) : KeptOut z (execCpyt d a b s) := by
  refine keptOut_word h fun c g => ?_
  refine kept_ownRead (fun _ _ _ _ ht => kept_submitTensor ht _ _ _ _ _ _ _) (fun go hgo => ?_) h _ _
  refine kept_afterRoom (kept_unlessSkipped ?_ h _ _) h _ _ _
  split
  · exact kept_trapWord h _ _ _ _ _ _
  · exact kept_ite (kept_openHandleFault h _ _ _) (kept_ite (kept_trapWord h _ _ _ _ _ _)
      (kept_access (fun _ _ _ ht => hgo _ _ _ ht) h _ _ _ _ _ _ _))

theorem keptOut_fenceG (h : Kept z s) : KeptOut z (execFenceG s) :=
  keptOut_word h fun _ _ => kept_afterFence (fun _ _ ht => ht) h _ _

theorem keptOut_fenceC (h : Kept z s) : KeptOut z (execFenceC s) :=
  keptOut_word h fun _ _ => kept_afterFence (fun _ _ ht => ht) h _ _

theorem keptOut_fenceD (h : Kept z s) : KeptOut z (execFenceD s) :=
  keptOut_word h fun _ _ => kept_afterFence (fun _ _ ht => ht) h _ _

theorem keptOut_fenceP (h : Kept z s) : KeptOut z (execFenceP s) :=
  keptOut_word h fun _ _ => kept_afterFence (fun _ _ ht => ht) h _ _

theorem keptOut_fenceS (h : Kept z s) : KeptOut z (execFenceS s) :=
  keptOut_word h fun _ _ => kept_afterFence (fun _ _ ht => kept_setGroup (kept_writeBack ht _) _ _) h _ _

theorem keptOut_region (h : Kept z s) (a b : Reg) : KeptOut z (execRegion a b s) := by
  refine keptOut_word h fun c g => kept_ite (kept_checkpointed (kept_landWrites h _ _) _ _) (kept_ite (kept_openHandleFault h _ _ _) (kept_ite ?_ ?_))
  · exact kept_ite (kept_hold h _ _ _) (kept_hold h _ _ _)
  · exact kept_whenQuiet (fun _ ht => kept_checkpoint ht _ _ _ _) h _ _

theorem keptOut_unitPlacement (h : Kept z s) (ctx : Nat) : KeptOut z (execUnitPlacement ctx s) := by
  refine keptOut_next (kept_ite ?_ h)
  split
  · exact h
  · split
    · exact h
    · next t e =>
      have ht := kept_takeTurn h ctx e
      dsimp only
      split
      · exact ht
      · exact kept_setContext (kept_setLaunch (kept_foldl
          (fun _ _ hu => kept_startGrove (kept_startCopseBars hu _ _ _) _ _) _ (kept_beginLaunch ht _)) _ _) _ _

theorem keptOut_launchComplete (h : Kept z s) (launch : Nat) : KeptOut z (execLaunchComplete launch s) := by
  refine keptOut_next ?_
  split
  · exact h
  · next l _ =>
    have hw := kept_writeBack h l.hostWrote
    refine kept_ite h (kept_ite (kept_retire hw _ _) ?_)
    have hd := kept_storeDone hw l.ctx launch l.rcd.done l.rcd.doneval l.last
    split
    · exact kept_fst ‹_› hd
    · exact kept_retire (kept_noteEffect (kept_fst ‹_› hd) _ _) _ _

theorem keptOut_graphWalkerStep (h : Kept z s) (graph : Nat) : KeptOut z (execGraphWalkerStep graph s) := by
  refine keptOut_next ?_
  split
  · exact h
  · refine kept_ite (kept_ite (kept_endGraph h _ _) h) (kept_ite h ?_)
    split
    · exact kept_graphNode h _ _ _
    · split
      · exact kept_graphReadFault h _ _ _ _ _ _
      · exact kept_fetchFor h ‹_›
      · exact kept_graphFault h _ _ _
      · exact kept_graphNode (kept_land h _) _ _ _

theorem keptOut_launch (h : Kept z s) (d a : Reg) : KeptOut z (execLaunch d a s) := by
  refine keptOut_word h fun c g => kept_ownRead (fun _ _ _ _ ht => kept_launchRead ht _ _ _ _) (fun go hgo => ?_) h _ _
  split
  · exact kept_trapWord h _ _ _ _ _ _
  · split
    · exact kept_afterFence (fun _ _ ht => kept_access (fun _ _ _ hu => hgo _ _ _ hu) ht _ _ _ _ _ _ _) h _ _
    · exact kept_trapWord h _ _ _ _ _ _

theorem keptOut_evictionGroupStart (h : Kept z s) (ctx : Nat) : KeptOut z (execEvictionGroupStart ctx s) := by
  refine keptOut_next ?_
  split
  · exact h
  · refine kept_ite h ?_
    split
    · exact kept_finishEviction h _
    · exact kept_foldl (fun _ _ ht => kept_startServing ht _ _ _ _) _ h

theorem keptOut_restorePlacement (h : Kept z s) (ctx : Nat) : KeptOut z (execRestorePlacement ctx s) := by
  refine keptOut_next ?_
  split
  · exact h
  · refine kept_ite h ?_
    split
    · exact h
    · next e =>
      have ht := kept_restoreTurn h ctx e
      split
      · exact ht
      · next l _ =>
        have hf : Kept z (l.foldl State.replaceGrove _) := kept_foldl (fun _ _ hu => kept_replaceGrove hu _) _ ht
        dsimp only
        split
        · exact kept_finishRestore hf _
        · exact kept_foldl (fun _ _ hu => kept_startServing hu _ _ _ _) _ hf

theorem keptOut_rebase (h : Kept z s) : KeptOut z (execRebase s) :=
  keptOut_next (kept_ite (kept_mk (kept_lowered h)) h)

theorem keptOut_sqopen (h : Kept z s) (d a b : Reg) : KeptOut z (execSqopen d a b s) := by
  refine keptOut_word h fun c g => ?_
  refine kept_checkedFence (fun _ ht => kept_openChecked ht h _ _ _ _) (fun _ _ ht => kept_openChecked ?_ ht _ _ _ _) h _ _
  exact kept_access (fun _ _ _ hu => kept_spoilRestart (kept_scalResult (kept_openStream hu _ _ _ _) _ _ _ _ _) _) ht _ _ _ _ _ _ _

theorem keptOut_assignchReset (h : Kept z s) (vf page : Nat) (arg0 : BitVec 32) : KeptOut z (execAssignchReset vf page arg0 s) :=
  keptOut_next (kept_command (fun _ => kept_asPrimary (fun _ _ _ => kept_assignchCmd h _ _) h _ _ _) h _ _ _ _)

theorem keptOut_assignchUnassign (h : Kept z s) (vf page : Nat) (arg0 : BitVec 32) : KeptOut z (execAssignchUnassign vf page arg0 s) :=
  keptOut_next (kept_command (fun _ => kept_asPrimary (fun _ _ _ => kept_assignchCmd h _ _) h _ _ _) h _ _ _ _)

theorem keptOut_startCold (h : Kept z s) (port : Nat) (arg0 : BitVec 32) : KeptOut z (execStartCold port arg0 s) :=
  keptOut_next (kept_pfCommand (kept_startCmd h _) h _ _ _)

theorem keptOut_startWarm (h : Kept z s) (port : Nat) (arg0 : BitVec 32) : KeptOut z (execStartWarm port arg0 s) :=
  keptOut_next (kept_pfCommand (kept_startCmd h _) h _ _ _)

theorem keptOut_sidebandStartRequest (h : Kept z s) (cold : Bool) : KeptOut z (execSidebandStartRequest cold s) :=
  keptOut_next (kept_ite (kept_requestStart h _) h)

theorem kept_discardedWrite {t : State} (ht : Kept z t) (vf : Nat) : Kept z (s.discardedWrite t vf) := by
  unfold State.discardedWrite
  split
  · exact kept_answerHost ht _ _
  · exact ht

theorem keptOut_hostRead (h : Kept z s) (fn : HostFn) (addr len : Nat) (cached : Bool) : KeptOut z (execHostRead fn addr len cached s) := by
  refine keptOut_next ?_
  split
  · exact kept_ite (kept_answerHost (kept_violate h _ _ _) _ _) (kept_answerHost h _ _)
  · split
    · exact h
    · refine kept_ite (kept_answerHost h _ _) ?_
      split
      · exact kept_answerHost (kept_violate h _ _ _) _ _
      · refine kept_foldl (fun _ _ ht => kept_error ht _ _ _ _ _) _ (kept_answerHost (kept_foldl (fun _ _ ht => kept_performedFirst ht _ _) _ ?_) _ _)
        exact kept_ite (kept_foldl (fun _ _ ht => kept_setPresent ht _ _) _ h) h

theorem keptOut_snpinv (h : Kept z s) (port addr : Nat) : KeptOut z (execSnpinv port addr s) :=
  keptOut_next (kept_ite (kept_answerSnoop (kept_foldl (fun _ _ ht => kept_untrack ht _) _ h) _ _ _) h)

theorem keptOut_cxlCacheResponse (h : Kept z s) (port addr : Nat) (home : Option Nat) (owned : Bool) :
    KeptOut z (execCxlCacheResponse port addr home owned s) := by
  refine keptOut_next (kept_ite h ?_)
  split
  · exact kept_violate h _ _ _
  · dsimp only
    split
    · exact kept_violate h _ _ _
    · refine kept_retryPrefetches (kept_answerCuts (kept_dropAsk (kept_holdLine (kept_setLine ?_ _ _) _ _) _) _)
      exact kept_ite (kept_foldl (fun _ _ ht => kept_untrack ht _) _ h) (kept_shareLine h _)

theorem keptOut_hbeat (h : Kept z s) (vf page : Nat) : KeptOut z (execHbeat vf page s) := by
  refine keptOut_next ?_
  split
  · exact kept_discardedWrite (kept_admitted h ‹_›) _
  · exact kept_heartbeat h _ _ _

theorem keptOut_ntail (h : Kept z s) (vf page : Nat) (value : BitVec 32) : KeptOut z (execNtail vf page value s) := by
  refine keptOut_next ?_
  split
  · exact kept_discardedWrite (kept_admitted h ‹_›) _
  · exact kept_writeNtail h _ _ _

theorem keptOut_registerWrite (h : Kept z s) (fn : HostFn) (off : Nat) (data : List Byte) : KeptOut z (execRegisterWrite fn off data s) := by
  refine keptOut_next ?_
  split
  · exact kept_ite (kept_writePf h _ _ _) h
  · split
    · exact kept_discardedWrite (kept_admitted h ‹_›) _
    · exact kept_writePage h _ _ _ _ _

theorem keptOut_linkDown (h : Kept z s) (link : Nat) : KeptOut z (execLinkDown link s) :=
  keptOut_next (kept_ite (kept_reportWhere (kept_foldl (fun _ _ ht => kept_channelFault ht _ _ _) _ (kept_setLink h _ _)) _ _ _ _) h)

theorem keptOut_peerRequestArrival (h : Kept z s) (link addr : Nat) (data : Option (List Byte × Bool)) (len : Nat) :
    KeptOut z (execPeerRequestArrival link addr data len s) := by
  refine keptOut_next (kept_ite h ?_)
  dsimp only
  split
  · split
    · exact kept_reportWhere h _ _ _ _
    · exact kept_setLink (kept_reportWhere h _ _ _ _) _ _
  · split
    · refine kept_ite (kept_setAgent (kept_queueFlit ?_ _ _ _) _ _ _ _) (kept_askAll h _ _ _)
      exact kept_foldl_fst (fun _ _ ht => kept_peerWriteLine ht _ _ _ _ _) _ h
    · refine kept_ite (kept_setAgent (kept_ite (kept_poisonFlit ?_ _ _) ?_) _ _ _ _) (kept_askAll h _ _ _)
      all_goals exact kept_queueFlit (kept_queueFlit (kept_foldl_fst (fun _ _ ht => kept_peerReadLine ht _ _) _ h) _ _ _) _ _ _

theorem keptOut_thermalStop (h : Kept z s) : KeptOut z (execThermalStop s) :=
  keptOut_next (kept_ite (kept_mk (kept_foldl (fun _ _ ht => kept_killContext ht _) _ h)) h)

theorem keptOut_storeBufferDrain (h : Kept z s) (seq : Nat) : KeptOut z (execStoreBufferDrain seq s) := by
  refine keptOut_next ?_
  repeat' split
  · exact kept_drain h _
  · exact kept_drainSlot h _
  · exact kept_askFlight h _
  · exact kept_foldl (fun _ _ ht => kept_askWrite ht _ _ _) _ h

theorem keptOut_severanceTimeout (h : Kept z s) (seq : Nat) : KeptOut z (execSeveranceTimeout seq s) := by
  refine keptOut_next ?_
  repeat' split
  · exact kept_putLoad h _
  · exact kept_dropped (kept_acked (kept_dropEntry h _) _ _ _ _ _) _ _ _
  · exact kept_dropped (kept_mk h) _ _ _
  · exact kept_loseLane h _ _ _
  · exact h
  · exact kept_loseContribution h _ _ _
  · exact h
  · exact h

theorem keptOut_sealst (h : Kept z s) (d a b : Reg) : KeptOut z (execSealst d a b s) := by
  refine keptOut_word h fun c g => kept_ite (kept_spoilRestart (kept_landBlock h _ _) _) ?_
  refine kept_ownRead (fun _ _ _ _ ht => kept_writeSeal ht _ _ _ _ _) (fun go hgo => ?_) h _ _
  refine kept_ite (kept_openHandleFault h _ _ _) (kept_ite (kept_openHandleFault h _ _ _) (kept_ite (kept_openHandleFault h _ _ _) ?_))
  refine kept_checked (kept_ite (kept_checked ?_ h _ _ _ _ _ _) ?_) h _ _ _ _ _ _
  · exact kept_afterFence (fun _ _ ht => kept_accessAll (fun _ _ hu => hgo _ _ _ hu) ht _ _ _ _) h _ _
  · exact kept_afterFence (fun _ _ ht => kept_writeSeal ht _ _ _ _ _) h _ _

theorem keptOut_sealld (h : Kept z s) (d a b : Reg) : KeptOut z (execSealld d a b s) := by
  refine keptOut_word h fun c g => ?_
  dsimp only
  split
  · exact kept_landBlock h _ _
  · exact kept_endRead (fun _ _ _ _ ht => kept_acceptSeal ht _ _ _ _ _ _) h _ _
  · have hgo : Kept z (s.whenIdle c g <|
        s.accessAll c g false (sealPieces (g.srcS .a a) 64 65) fun s src => s.waitRead c g (s.homeLoad c g 64 src)) :=
      kept_whenIdle (kept_accessAll (fun _ _ ht => kept_waitRead ht _ _ _) h _ _ _ _) h _ _
    refine kept_ite (kept_openHandleFault h _ _ _) (kept_ite (kept_openHandleFault h _ _ _) (kept_checked (kept_ite ?_ hgo) h _ _ _ _ _ _))
    exact kept_checked (kept_overHazard (fun _ => hgo) h _ _ _ _ _ _) h _ _ _ _ _ _

theorem keptOut_ideStreamFailure (h : Kept z s) (port stream : Nat) : KeptOut z (execIdeStreamFailure port stream s) :=
  keptOut_next (kept_ite (kept_foldl (fun _ _ ht => kept_interfaceError ht _) _ h) h)

theorem keptOut_illegalInstruction (h : Kept z s) (detail : BitVec 8) : KeptOut z (execIllegalInstruction detail s) := by
  unfold execIllegalInstruction
  repeat' split
  · exact keptOut_fault _
  · exact keptOut_fault _
  · exact keptOut_next (kept_trapWord h _ _ _ _ _ _)

theorem keptOut_svc (h : Kept z s) (l : BitVec 7) : KeptOut z (execSvc l s) := by
  refine keptOut_word h fun c g => ?_
  split
  · exact kept_trapWord h _ _ _ _ _ _
  · exact h
  · exact kept_fate h _
  · exact kept_afterFence (fun _ _ ht => kept_service ht _ _ _) h _ _

theorem keptOut_dsave (h : Kept z s) (a : Reg) : KeptOut z (execDsave a s) := by
  unfold execDsave
  refine keptOut_word h fun c g => ?_
  repeat' split
  all_goals apply_rules [kept_storeWord, kept_whenDone]

theorem keptOut_nop (h : Kept z s) : KeptOut z (execNop s) := by
  unfold execNop
  refine keptOut_word h fun c g => ?_
  apply_rules [kept_mk]

theorem keptOut_cpy (h : Kept z s) (d a b : Reg) : KeptOut z (execCpy d a b s) := by
  unfold execCpy
  refine keptOut_word h fun c g => ?_
  repeat' split
  all_goals apply_rules [kept_afterRoom, kept_unlessSkipped, kept_error, kept_trapWord, kept_submit]

theorem keptOut_xfence (h : Kept z s) : KeptOut z (execXfence s) := by
  unfold execXfence
  refine keptOut_word h fun c g => ?_
  apply_rules [kept_drainGroup, kept_setGroup]

theorem keptOut_cwp (h : Kept z s) (d a : Reg) : KeptOut z (execCwp d a s) := by
  unfold execCwp
  refine keptOut_word h fun c g => ?_
  dsimp only
  repeat' split
  all_goals apply_rules [kept_openHandleFault, kept_scalResult]

theorem keptOut_cwait (h : Kept z s) (a b : Reg) : KeptOut z (execCwait a b s) := by
  unfold execCwait
  refine keptOut_word h fun c g => ?_
  dsimp only
  repeat' split
  all_goals apply_rules [kept_setGroup, kept_endRun, kept_addrHandleFault, kept_openHandleFault, kept_hold, kept_mk]

theorem keptOut_copyUnitDelivery (h : Kept z s) (ch : Nat) (peer : Option (List Byte × Bool)) : KeptOut z (execCopyUnitDelivery ch peer s) := by
  unfold execCopyUnitDelivery
  refine keptOut_next ?_
  dsimp only
  repeat' split
  all_goals apply_rules [kept_takeUp, kept_advanceCopy, kept_acceptParked]

theorem keptOut_launchSubmit (h : Kept z s) (vf page slot : Nat) : KeptOut z (execLaunchSubmit vf page slot s) := by
  unfold execLaunchSubmit
  refine keptOut_next ?_
  dsimp only
  repeat' split
  all_goals apply_rules [kept_setContext, kept_acceptRecord, kept_refuseRecord]

theorem keptOut_timeSliceEnd (h : Kept z s) (glade : Nat) : KeptOut z (execTimeSliceEnd glade s) := by
  unfold execTimeSliceEnd
  refine keptOut_next ?_
  dsimp only
  repeat' split
  all_goals apply_rules [kept_restoreSteps, kept_setGlade, kept_startEviction]

theorem keptOut_preemption (h : Kept z s) (ctx : Nat) : KeptOut z (execPreemption ctx s) := by
  unfold execPreemption
  refine keptOut_next ?_
  repeat' split
  all_goals apply_rules [kept_preempt]

theorem keptOut_groupRestart (h : Kept z s) (gid : Nat) : KeptOut z (execGroupRestart gid s) := by
  unfold execGroupRestart
  refine keptOut_next ?_
  dsimp only
  repeat' split
  all_goals apply_rules [kept_restartGroup]

theorem keptOut_regionWatchdog (h : Kept z s) (gid : Nat) : KeptOut z (execRegionWatchdog gid s) := by
  unfold execRegionWatchdog
  refine keptOut_next ?_
  repeat' split
  all_goals apply_rules [kept_setGroup]

theorem keptOut_stewardWaitTimeout (h : Kept z s) (gid : Nat) : KeptOut z (execStewardWaitTimeout gid s) := by
  unfold execStewardWaitTimeout
  refine keptOut_next ?_
  repeat' split
  all_goals apply_rules [kept_stewardFault]

theorem keptOut_sqclose (h : Kept z s) (a : Reg) : KeptOut z (execSqclose a s) := by
  unfold execSqclose
  refine keptOut_word h fun c g => ?_
  dsimp only
  repeat' split
  all_goals apply_rules [kept_endRun, kept_openHandleFault, kept_setGroup, kept_closeStream, kept_hold]

theorem keptOut_guardianLoss (h : Kept z s) (ctx port : Nat) : KeptOut z (execGuardianLoss ctx port s) := by
  unfold execGuardianLoss
  refine keptOut_next ?_
  repeat' split
  all_goals apply_rules [kept_loseGuardian]

theorem keptOut_reapTimeout (h : Kept z s) (ctx : Nat) : KeptOut z (execReapTimeout ctx s) := by
  unfold execReapTimeout
  refine keptOut_next ?_
  split
  · exact h
  · split
    · exact h
    · split
      · exact kept_destroy h ctx
      · exact h

theorem keptOut_startCompletion (h : Kept z s) (ok : Bool) (cause : Nat) : KeptOut z (execStartCompletion ok cause s) := by
  unfold execStartCompletion
  refine keptOut_next ?_
  repeat' split
  all_goals apply_rules [kept_startFails, kept_startCompletes]

theorem keptOut_rangeInvalidation (h : Kept z s) (ctx base size : Nat) : KeptOut z (execRangeInvalidation ctx base size s) := by
  unfold execRangeInvalidation
  refine keptOut_next ?_
  repeat' split
  all_goals apply_rules [kept_dropXlates]

theorem keptOut_scrubbing (h : Kept z s) (slice off outcome : Nat) : KeptOut z (execScrubbing slice off outcome s) := by
  unfold execScrubbing
  refine keptOut_next ?_
  dsimp only
  repeat' split
  all_goals apply_rules [kept_rekey, kept_report, kept_setPoison]

theorem keptOut_hostWrite (h : Kept z s) (fn : HostFn) (addr : Nat) (data : List Byte) : KeptOut z (execHostWrite fn addr data s) := by
  unfold execHostWrite
  refine keptOut_next ?_
  repeat' split
  all_goals apply_rules [kept_violate, kept_answerHost, kept_error, kept_hdmWrite]

theorem keptOut_birsp (h : Kept z s) (port line : Nat) (data : Option (List Byte)) : KeptOut z (execBirsp port line data s) := by
  unfold execBirsp
  refine keptOut_next ?_
  dsimp only
  repeat' split
  all_goals apply_rules [kept_returnDirty, kept_clearPresent, kept_keepShared, kept_unask, kept_retryPrefetches]

theorem keptOut_biconflict (h : Kept z s) (port line : Nat) : KeptOut z (execBiconflict port line s) := by
  unfold execBiconflict
  refine keptOut_next ?_
  repeat' split
  all_goals apply_rules [kept_unask, kept_mk]

theorem keptOut_hostEvictionReport (h : Kept z s) (port line : Nat) : KeptOut z (execHostEvictionReport port line s) := by
  unfold execHostEvictionReport
  refine keptOut_next ?_
  repeat' split
  all_goals apply_rules [kept_clearPresent, kept_performedFirst]

theorem keptOut_snpdata (h : Kept z s) (port addr : Nat) : KeptOut z (execSnpdata port addr s) := by
  unfold execSnpdata
  refine keptOut_next ?_
  repeat' split
  all_goals apply_rules [kept_shareLine, kept_answerSnoop]

theorem keptOut_snpcur (h : Kept z s) (port addr : Nat) : KeptOut z (execSnpcur port addr s) := by
  unfold execSnpcur
  refine keptOut_next ?_
  repeat' split
  all_goals apply_rules [kept_shareLine, kept_answerSnoop]

theorem keptOut_linkUp (h : Kept z s) (link : Nat) : KeptOut z (execLinkUp link s) := by
  unfold execLinkUp
  refine keptOut_next ?_
  repeat' split
  all_goals apply_rules [kept_setLink]

theorem keptOut_linkLevelReplay (h : Kept z s) (link : Nat) : KeptOut z (execLinkLevelReplay link s) := by
  unfold execLinkLevelReplay
  refine keptOut_next ?_
  dsimp only
  repeat' split
  all_goals apply_rules [kept_setLink]

theorem keptOut_linkWheelSlot (h : Kept z s) (link dir : Nat) : KeptOut z (execLinkWheelSlot link dir s) := by
  unfold execLinkWheelSlot
  refine keptOut_next ?_
  dsimp only
  repeat' split
  all_goals apply_rules [kept_setLink]

theorem keptOut_vif (h : Kept z s) : KeptOut z (execVif s) := by
  unfold execVif
  refine keptOut_word h fun c g => ?_
  repeat' split
  all_goals apply_rules [kept_trapWord, kept_setGroup]

theorem keptOut_velse (h : Kept z s) : KeptOut z (execVelse s) := by
  unfold execVelse
  refine keptOut_word h fun c g => ?_
  repeat' split
  all_goals apply_rules [kept_trapWord, kept_setGroup]

theorem keptOut_vendif (h : Kept z s) : KeptOut z (execVendif s) := by
  unfold execVendif
  refine keptOut_word h fun c g => ?_
  repeat' split
  all_goals apply_rules [kept_trapWord, kept_setGroup]

theorem keptOut_plmask (h : Kept z s) (l : BitVec 7) : KeptOut z (execPlmask l s) := by
  unfold execPlmask
  refine keptOut_word h fun c g => ?_
  apply_rules [kept_setGroup]

theorem keptOut_mzero (h : Kept z s) (d : Reg) : KeptOut z (execMzero d s) := by
  unfold execMzero
  refine keptOut_word h fun c g => ?_
  apply_rules [kept_afterResults, kept_appendOp]

theorem keptOut_mbatch (h : Kept z s) (d : Reg) : KeptOut z (execMbatch d s) := by
  unfold execMbatch
  refine keptOut_word h fun c g => ?_
  repeat' split
  all_goals apply_rules [kept_endRun, kept_scalResult, kept_hold]

theorem keptOut_mwait (h : Kept z s) (a : Reg) : KeptOut z (execMwait a s) := by
  unfold execMwait
  refine keptOut_word h fun c g => ?_
  repeat' split
  all_goals apply_rules [kept_hold, kept_endRun]

theorem keptOut_matrixExecutionStart (h : Kept z s) (gid : Nat) : KeptOut z (execMatrixExecutionStart gid s) := by
  unfold execMatrixExecutionStart
  refine keptOut_next ?_
  repeat' split
  all_goals apply_rules [kept_consumeError, kept_setGroup]

theorem keptOut_batchComplete (h : Kept z s) (gid : Nat) : KeptOut z (execBatchComplete gid s) := by
  unfold execBatchComplete
  refine keptOut_next ?_
  repeat' split
  all_goals apply_rules [kept_setGroup]

theorem keptOut_throttleStep (h : Kept z s) (part : Nat) (hot : Bool) : KeptOut z (execThrottleStep part hot s) := by
  unfold execThrottleStep
  refine keptOut_next ?_
  dsimp only
  repeat' split
  all_goals apply_rules [kept_lowerSteps, kept_noteHot, kept_reportWhere, kept_mk]

theorem keptOut_powerOff (h : Kept z s) : KeptOut z (execPowerOff s) := by
  unfold execPowerOff
  refine keptOut_next ?_
  repeat' split
  all_goals apply_rules [kept_unpowered]

theorem keptOut_powerOn (h : Kept z s) : KeptOut z (execPowerOn s) := by
  unfold execPowerOn
  refine keptOut_next ?_
  repeat' split
  all_goals apply_rules [kept_unpowered, kept_mk]

theorem keptOut_resultReturn (h : Kept z s) (gid k : Nat) : KeptOut z (execResultReturn gid k s) := by
  unfold execResultReturn
  refine keptOut_next ?_
  repeat' split
  all_goals apply_rules [kept_setGroup]

theorem keptOut_loadReturn (h : Kept z s) (seq : Nat) : KeptOut z (execLoadReturn seq s) := by
  unfold execLoadReturn
  refine keptOut_next ?_
  dsimp only
  repeat' split
  all_goals apply_rules [kept_performReads, kept_askLoad, kept_performLoad, kept_consumeError, kept_setGroup, kept_mk]

theorem keptOut_automaticTick (h : Kept z s) (gid : Nat) : KeptOut z (execAutomaticTick gid s) := by
  unfold execAutomaticTick
  refine keptOut_next ?_
  repeat' split
  all_goals apply_rules [kept_setGroup]

theorem keptOut_spinDemotionEnd (h : Kept z s) (gid : Nat) : KeptOut z (execSpinDemotionEnd gid s) := by
  unfold execSpinDemotionEnd
  refine keptOut_next ?_
  repeat' split
  all_goals apply_rules [kept_setGroup]

theorem keptOut_storeBufferAgeLimit (h : Kept z s) (seq : Nat) : KeptOut z (execStoreBufferAgeLimit seq s) := by
  unfold execStoreBufferAgeLimit
  refine keptOut_next ?_
  dsimp only
  repeat' split
  all_goals apply_rules [kept_mk]

theorem keptOut_scratchStoreArrival (h : Kept z s) (seq : Nat) : KeptOut z (execScratchStoreArrival seq s) := by
  unfold execScratchStoreArrival
  refine keptOut_next ?_
  dsimp only
  repeat' split
  all_goals apply_rules [kept_putBytes, kept_mk]

theorem keptOut_atomicPerform (h : Kept z s) (seq : Nat) : KeptOut z (execAtomicPerform seq s) := by
  unfold execAtomicPerform
  refine keptOut_next ?_
  dsimp only
  repeat' split
  all_goals apply_rules [kept_askWrite, kept_loseLane, kept_storeAtHome, kept_putBytes, kept_noteGroup, kept_putAtom, kept_consumeError]

theorem keptOut_atomicReturn (h : Kept z s) (seq : Nat) : KeptOut z (execAtomicReturn seq s) := by
  unfold execAtomicReturn
  refine keptOut_next ?_
  repeat' split
  all_goals apply_rules [kept_raiseStamps, kept_setGroup, kept_mk]

theorem keptOut_fenceComplete (h : Kept z s) (gid : Nat) : KeptOut z (execFenceComplete gid s) := by
  unfold execFenceComplete
  refine keptOut_next ?_
  repeat' split
  all_goals apply_rules [kept_setGroup]

theorem keptOut_contributionArrival (h : Kept z s) (seq : Nat) : KeptOut z (execContributionArrival seq s) := by
  unfold execContributionArrival
  refine keptOut_next ?_
  repeat' split
  all_goals apply_rules [kept_dropContribution, kept_applyContribution, kept_loseContribution, kept_ask, kept_setStream, kept_refuse, kept_mk]

theorem keptOut_tableWalkComplete (h : Kept z s) (core ctx : Nat) (va : Scalar) : KeptOut z (execTableWalkComplete core ctx va s) := by
  unfold execTableWalkComplete
  refine keptOut_next ?_
  repeat' split
  all_goals apply_rules [kept_error, kept_setCore]

theorem keptOut_signatureCompare (h : Kept z s) (gid : Nat) : KeptOut z (execSignatureCompare gid s) := by
  unfold execSignatureCompare
  refine keptOut_next ?_
  dsimp only
  repeat' split
  all_goals apply_rules [kept_compare, kept_mismatch, kept_release]

theorem keptOut_lockInterfaceRequest (h : Kept z s) (vf stream : Nat) : KeptOut z (execLockInterfaceRequest vf stream s) := by
  unfold execLockInterfaceRequest
  refine keptOut_next ?_
  repeat' split
  all_goals apply_rules [kept_setVf]

theorem keptOut_startInterfaceRequest (h : Kept z s) (vf : Nat) : KeptOut z (execStartInterfaceRequest vf s) := by
  unfold execStartInterfaceRequest
  refine keptOut_next ?_
  repeat' split
  all_goals apply_rules [kept_setTdisp]

theorem keptOut_stopInterfaceRequest (h : Kept z s) (vf : Nat) : KeptOut z (execStopInterfaceRequest vf s) := by
  unfold execStopInterfaceRequest
  refine keptOut_next ?_
  repeat' split
  all_goals apply_rules [kept_endRole, kept_setTdisp]

theorem keptOut_frozenConfigurationWrite (h : Kept z s) (write : Nat × Nat) : KeptOut z (execFrozenConfigurationWrite write s) := by
  unfold execFrozenConfigurationWrite
  refine keptOut_next ?_
  repeat' split
  all_goals apply_rules [kept_violate, kept_answerHost, kept_error, kept_interfaceError]

theorem keptOut_getVersion (h : Kept z s) (port : Nat) : KeptOut z (execGetVersion port s) := by
  unfold execGetVersion
  refine keptOut_next ?_
  apply_rules [kept_spdm]

theorem keptOut_getCapabilities (h : Kept z s) (port : Nat) : KeptOut z (execGetCapabilities port s) := by
  unfold execGetCapabilities
  refine keptOut_next ?_
  apply_rules [kept_spdm]

theorem keptOut_negotiateAlgorithms (h : Kept z s) (port : Nat) : KeptOut z (execNegotiateAlgorithms port s) := by
  unfold execNegotiateAlgorithms
  refine keptOut_next ?_
  apply_rules [kept_spdm]

theorem keptOut_getDigests (h : Kept z s) (port : Nat) : KeptOut z (execGetDigests port s) := by
  unfold execGetDigests
  refine keptOut_next ?_
  apply_rules [kept_spdm]

theorem keptOut_getCertificate (h : Kept z s) (port slot : Nat) : KeptOut z (execGetCertificate port slot s) := by
  unfold execGetCertificate
  refine keptOut_next ?_
  dsimp only
  repeat' split
  all_goals apply_rules [kept_spdm, kept_answer, kept_answerHost]

theorem keptOut_challenge (h : Kept z s) (port slot : Nat) (nonce : BitVec 256) : KeptOut z (execChallenge port slot nonce s) := by
  unfold execChallenge
  refine keptOut_next ?_
  dsimp only
  repeat' split
  all_goals apply_rules [kept_spdm, kept_setPort, kept_reportWhere]

theorem keptOut_getMeasurements (h : Kept z s) (port : Nat) : KeptOut z (execGetMeasurements port s) := by
  unfold execGetMeasurements
  refine keptOut_next ?_
  apply_rules [kept_spdm]

theorem keptOut_keyExchange (h : Kept z s) (port slot : Nat) : KeptOut z (execKeyExchange port slot s) := by
  unfold execKeyExchange
  refine keptOut_next ?_
  apply_rules [kept_spdm]

theorem keptOut_finish (h : Kept z s) (port : Nat) : KeptOut z (execFinish port s) := by
  unfold execFinish
  refine keptOut_next ?_
  apply_rules [kept_spdm]

theorem keptOut_keyUpdate (h : Kept z s) (port : Nat) : KeptOut z (execKeyUpdate port s) := by
  unfold execKeyUpdate
  refine keptOut_next ?_
  apply_rules [kept_spdm]

theorem keptOut_endSession (h : Kept z s) (port : Nat) : KeptOut z (execEndSession port s) := by
  unfold execEndSession
  refine keptOut_next ?_
  apply_rules [kept_spdm]

theorem keptOut_setCertificate (h : Kept z s) (port slot : Nat) (chain : List Byte) : KeptOut z (execSetCertificate port slot chain s) := by
  unfold execSetCertificate
  refine keptOut_next ?_
  apply_rules [kept_spdm]

theorem keptOut_hostIdentityPresentation (h : Kept z s) (port : Nat) (key signature : List Byte) :
    KeptOut z (execHostIdentityPresentation port key signature s) := by
  unfold execHostIdentityPresentation
  refine keptOut_next ?_
  apply_rules [kept_spdm]

theorem keptOut_brk (h : Kept z s) (l : BitVec 7) : KeptOut z (execBrk l s) := by
  unfold execBrk
  refine keptOut_word h fun c g => ?_
  repeat' split
  all_goals apply_rules [kept_trapWord]

theorem keptOut_tret (h : Kept z s) : KeptOut z (execTret s) := by
  unfold execTret
  refine keptOut_word h fun c g => ?_
  repeat' split
  all_goals apply_rules [kept_setGroup, kept_discard, kept_fate]

theorem keptOut_exec (h : Kept z s) (i : Instr) : KeptOut z (exec i s) := by
  cases i with
  | sadd | ssub | smul | smulhI | smulhN | sdivI | sdivN | smodI | smodN | sand | sor | sxor | sandn | sshl | sshr | ssra | sminI | sminN
  | smaxI | smaxN | ssltI | ssltN | sseq | sclz | spop | smov | vballot | smovv | xmget | plocc | barQ | mquery | lquery | saddi | sandi | sori
  | sxori | sshli | sshri | ssrai | sslti | smovi | slui | saddpc | wget | ctlrd => exact keptOut_word h fun _ _ => kept_scalResult h _ _ _ _ _
  | vadd | vsub | vmul | vmulhI | vmulhN | vmad | vminI | vminN | vmaxI | vmaxN | vabs | vand | vor | vxor | vandn | vshl | vshr | vsra | vclz
  | vpop | vbrev | vsel | vdp4I | vdp4N | vfabs | vfneg | vshfl | vrot | vbcast | vscanAddI | vmovs | vaddi | vandi | vori | vxori | vshli
  | vshri | vsrai | vmovi => exact keptOut_word h fun _ _ => kept_vecResult h _ _ _ _ _ _
  | vcmpEq | vcmpNe | vcmpLtI | vcmpLtN | vcmpLeI | vcmpLeN => exact keptOut_word h fun _ _ => kept_compare h _ _ _ _
  | vfadd | vfsub | vfmul | vffma | vfmin | vfmax | vfrcp | vfrsq | vfsqrt | vfexp2 | vflog2 | vftanh | vhadd | vhmul | vhfma | vbadd | vbmul
  | vbfma | vcvtFI | vcvtIF | vcvtFH | vcvtHF | vcvtFB | vcvtBF | vpackE4 | vpackE5 | vpackLx | vunpkE4 | vunpkE5 | vunpkLx =>
    exact keptOut_word h fun _ _ => kept_floatResult h _ _ _ _ _
  | vfcmpEq | vfcmpLt | vfcmpLe | vfcmpUn => exact keptOut_word h fun _ _ => kept_floatCompare h _ _ _ _ _
  | vredAddI | vredAddF | vredMinI | vredMaxI | vredMaxF => exact keptOut_word h fun _ _ => kept_reduction h _ _ _ _ _ _
  | xmset | wbase | tick | spin => exact keptOut_word h fun _ _ => kept_setGroup h _ _
  | plset | plsel | pljoin => exact keptOut_word h fun _ _ => kept_movePlanes h _ _ _ _
  | vldB | vldBI | vldH | vldHI | vldW | vldD | vldQ | vldWO | vldDO => exact keptOut_word h fun _ _ => kept_vectorLoad h _ _ _ _ _ _ _
  | vstB | vstH | vstW | vstD | vstQ | vstWO | vstDO => exact keptOut_word h fun _ _ => kept_vectorStore h _ _ _ _ _
  | sldW | sldD | sldWO | sldDO => exact keptOut_word h fun _ _ => kept_scalarLoad h _ _ _ _ _ _
  | sstW | sstD | sstWO | sstDO => exact keptOut_word h fun _ _ => kept_scalarStore h _ _ _ _ _
  | vatomAdd | vatomAddf | vatomMinI | vatomMaxI | vatomAnd | vatomOr | vatomXor | vatomXchg =>
    exact keptOut_word h fun _ _ => kept_vatom h _ _ _ _ _ _
  | vatomCas | satomAdd | satomCas => exact keptOut_word h fun _ _ => kept_atomic h _ _ _ _ _ _ _ _ _
  | gredAdd | gredAddf | gredMaxI => exact keptOut_word h fun _ _ => kept_reduceFar h _ _ _ _ _ _
  | sqredAddf | sqredAdd => exact keptOut_word h fun _ _ => kept_sendContributions h _ _ _ _ _
  | barWt => exact keptOut_word h fun _ _ => kept_await h _ _
  | mma | mmas => exact keptOut_word h fun _ _ => kept_matrixWord h _ _ _ _ _ _ _ _
  | bra | bz | bnz | bneg | bnn | bloop | bcall | bany => exact keptOut_word h fun _ _ => kept_branch h _ _ _ _ _
  | park => exact keptOut_word h fun _ _ => kept_endRun h
  | jmp | ret => exact keptOut_word h fun _ _ => kept_jumpTo h _ _ _
  | trap => exact keptOut_word h fun _ _ => kept_trapWord h _ _ _ _ _ _
  | ctlwr => exact keptOut_word h fun _ _ => kept_ctlPut h _ _ _ _
  | vif => exact keptOut_vif h
  | velse => exact keptOut_velse h
  | vendif => exact keptOut_vendif h
  | plmask => exact keptOut_plmask h _
  | vpref => exact keptOut_vpref h _ _
  | sqopen => exact keptOut_sqopen h _ _ _
  | sqclose => exact keptOut_sqclose h _
  | fenceG => exact keptOut_fenceG h
  | fenceC => exact keptOut_fenceC h
  | fenceD => exact keptOut_fenceD h
  | fenceP => exact keptOut_fenceP h
  | fenceS => exact keptOut_fenceS h
  | xfence => exact keptOut_xfence h
  | barArr => exact keptOut_barArr h _
  | barSync => exact keptOut_barSync h _
  | mzero => exact keptOut_mzero h _
  | mbatch => exact keptOut_mbatch h _
  | mwait => exact keptOut_mwait h _
  | cpy => exact keptOut_cpy h _ _ _
  | cpyt => exact keptOut_cpyt h _ _ _
  | cpyq => exact keptOut_cpyq h _ _ _
  | cwp => exact keptOut_cwp h _ _
  | cwait => exact keptOut_cwait h _ _
  | launch => exact keptOut_launch h _ _
  | nop => exact keptOut_nop h
  | exit => exact keptOut_exit h
  | region => exact keptOut_region h _ _
  | brk => exact keptOut_brk h _
  | tret => exact keptOut_tret h
  | svc => exact keptOut_svc h _
  | sealst => exact keptOut_sealst h _ _ _
  | sealld => exact keptOut_sealld h _ _ _
  | dsave => exact keptOut_dsave h _
  | dload => exact keptOut_dload h _
  | resultReturn => exact keptOut_resultReturn h _ _
  | loadReturn => exact keptOut_loadReturn h _
  | automaticTick => exact keptOut_automaticTick h _
  | spinDemotionEnd => exact keptOut_spinDemotionEnd h _
  | storeBufferDrain => exact keptOut_storeBufferDrain h _
  | storeBufferAgeLimit => exact keptOut_storeBufferAgeLimit h _
  | scratchStoreArrival => exact keptOut_scratchStoreArrival h _
  | atomicPerform => exact keptOut_atomicPerform h _
  | atomicReturn => exact keptOut_atomicReturn h _
  | fenceComplete => exact keptOut_fenceComplete h _
  | matrixExecutionStart => exact keptOut_matrixExecutionStart h _
  | batchComplete => exact keptOut_batchComplete h _
  | copyUnitDelivery => exact keptOut_copyUnitDelivery h _ _
  | contributionArrival => exact keptOut_contributionArrival h _
  | tableWalkComplete => exact keptOut_tableWalkComplete h _ _ _
  | signatureCompare => exact keptOut_signatureCompare h _
  | launchSubmit => exact keptOut_launchSubmit h _ _ _
  | unitPlacement => exact keptOut_unitPlacement h _
  | launchComplete => exact keptOut_launchComplete h _
  | graphWalkerStep => exact keptOut_graphWalkerStep h _
  | timeSliceEnd => exact keptOut_timeSliceEnd h _
  | preemption => exact keptOut_preemption h _
  | groupRestart => exact keptOut_groupRestart h _
  | regionWatchdog => exact keptOut_regionWatchdog h _
  | stewardWaitTimeout => exact keptOut_stewardWaitTimeout h _
  | evictionGroupStart => exact keptOut_evictionGroupStart h _
  | restorePlacement => exact keptOut_restorePlacement h _
  | rebase => exact keptOut_rebase h
  | hostWrite => exact keptOut_hostWrite h _ _ _
  | hostRead => exact keptOut_hostRead h _ _ _ _
  | birsp => exact keptOut_birsp h _ _ _
  | biconflict => exact keptOut_biconflict h _ _
  | hostEvictionReport => exact keptOut_hostEvictionReport h _ _
  | snpinv => exact keptOut_snpinv h _ _
  | snpdata => exact keptOut_snpdata h _ _
  | snpcur => exact keptOut_snpcur h _ _
  | cxlCacheResponse => exact keptOut_cxlCacheResponse h _ _ _ _
  | registerWrite => exact keptOut_registerWrite h _ _ _
  | hbeat => exact keptOut_hbeat h _ _
  | ntail => exact keptOut_ntail h _ _ _
  | bind => exact keptOut_bind h _ _ _
  | set => exact keptOut_set h _ _ _
  | assignch => exact keptOut_assignch h _ _ _
  | assignchReset => exact keptOut_assignchReset h _ _ _
  | assignchUnassign => exact keptOut_assignchUnassign h _ _ _
  | setsucc => exact keptOut_setsucc h _ _ _
  | share => exact keptOut_share h _ _ _
  | join => exact keptOut_join h _ _ _
  | unshare => exact keptOut_unshare h _ _ _
  | transfer => exact keptOut_transfer h _ _ _
  | adopt => exact keptOut_adopt h _ _ _
  | resume => exact keptOut_resume h _ _ _
  | claim => exact keptOut_claim h _ _ _
  | reply => exact keptOut_reply h _ _ _
  | evict => exact keptOut_evict h _ _ _
  | restore => exact keptOut_restore h _ _ _
  | release => exact keptOut_release h _ _ _
  | gcreate => exact keptOut_gcreate h _ _
  | gdestroy => exact keptOut_gdestroy h _ _
  | gset => exact keptOut_gset h _ _
  | startCold => exact keptOut_startCold h _ _
  | startWarm => exact keptOut_startWarm h _ _
  | sidebandStartRequest => exact keptOut_sidebandStartRequest h _
  | guardianLoss => exact keptOut_guardianLoss h _ _
  | severanceTimeout => exact keptOut_severanceTimeout h _
  | reapTimeout => exact keptOut_reapTimeout h _
  | lockInterfaceRequest => exact keptOut_lockInterfaceRequest h _ _
  | startInterfaceRequest => exact keptOut_startInterfaceRequest h _
  | stopInterfaceRequest => exact keptOut_stopInterfaceRequest h _
  | frozenConfigurationWrite => exact keptOut_frozenConfigurationWrite h _
  | ideStreamFailure => exact keptOut_ideStreamFailure h _ _
  | getVersion => exact keptOut_getVersion h _
  | getCapabilities => exact keptOut_getCapabilities h _
  | negotiateAlgorithms => exact keptOut_negotiateAlgorithms h _
  | getDigests => exact keptOut_getDigests h _
  | getCertificate => exact keptOut_getCertificate h _ _
  | challenge port slot nonce => exact keptOut_challenge h port slot nonce
  | getMeasurements => exact keptOut_getMeasurements h _
  | keyExchange => exact keptOut_keyExchange h _ _
  | finish => exact keptOut_finish h _
  | keyUpdate => exact keptOut_keyUpdate h _
  | endSession => exact keptOut_endSession h _
  | setCertificate => exact keptOut_setCertificate h _ _ _
  | hostIdentityPresentation => exact keptOut_hostIdentityPresentation h _ _ _
  | linkDown => exact keptOut_linkDown h _
  | linkWheelSlot => exact keptOut_linkWheelSlot h _ _
  | peerRequestArrival => exact keptOut_peerRequestArrival h _ _ _ _
  | throttleStep => exact keptOut_throttleStep h _ _
  | thermalStop => exact keptOut_thermalStop h
  | powerOff => exact keptOut_powerOff h
  | illegalInstruction => exact keptOut_illegalInstruction h _
  | powerOn => exact keptOut_powerOn h
  | startCompletion => exact keptOut_startCompletion h _ _
  | linkUp => exact keptOut_linkUp h _
  | linkLevelReplay => exact keptOut_linkLevelReplay h _
  | rangeInvalidation => exact keptOut_rangeInvalidation h _ _ _
  | scrubbing => exact keptOut_scrubbing h _ _ _

/-! ## The step -/

/-- What a move leaves, or the state that its instruction starts from, has its memories kept. -/
def KeptMove (z : State) : Move → Prop
  | .moved s => Kept z s
  | .run s _ => Kept z s

theorem keptMove_issueWord (h : Kept z s) (gid : Nat) (g : Group) (p : Nat) (w : BitVec 32) : KeptMove z (s.issueWord gid g p w) :=
  kept_mk (kept_setGroup h _ _)

theorem keptMove_beginOffset (h : Kept z s) (gid : Nat) (g : Group) : KeptMove z (s.beginOffset gid g) := by
  unfold State.beginOffset
  extract_lets o g'
  have hf := kept_fetchAll h g' (planesOf o)
  split
  · exact kept_transFault (kept_fst ‹_› hf) _ _ _ _ _ _ _ _
  · next e =>
    have ht := kept_fst e hf
    split
    · exact kept_trap ht _ _ _ _ _ _ _ _
    · exact keptMove_issueWord ht _ _ _ _
    · exact ht

theorem keptMove_issueNext (h : Kept z s) (gid : Nat) (g : Group) : KeptMove z (s.issueNext gid g) := by
  unfold State.issueNext
  dsimp only
  split
  · exact kept_trap h _ _ _ _ _ _ _ _
  · split
    · exact kept_takeHeld h _ _ _
    · split
      · exact keptMove_beginOffset h _ _
      · split
        · exact kept_setGroup h _ _
        · split
          · exact kept_transFault (kept_fst ‹_› (kept_fetch h _ _)) _ _ _ _ _ _ _ _
          · exact keptMove_issueWord (kept_fst ‹_› (kept_fetch h _ _)) _ _ _ _

theorem keptMove_moveGroup (h : Kept z s) (gid : Nat) (g : Group) : KeptMove z (s.moveGroup gid g) := by
  unfold State.moveGroup
  split
  · exact kept_enter h _ _
  · exact kept_mk h
  · exact keptMove_issueNext h _ _

theorem keptMove_choose (h : Kept z s) (a : Agendum) : KeptMove z (s.choose a) := by
  cases a with
  | event i => exact h
  | issue core part =>
    unfold State.choose
    dsimp only
    split
    · exact keptMove_moveGroup h _ _
    · exact h
  | perform seq => exact kept_performReads h _
  | performLane seq lane => exact kept_performOne h _ _
  | readEarly gid f key => exact kept_mk h
  | readChunk gid seq p => exact kept_readChunk h _ _ _
  | elapse ns => exact kept_elapse h _
  | dropL1 core sector => exact kept_setCore h _ _
  | dropL2 slice sector => exact kept_setSlice h _ _
  | flushTlb core => exact kept_setCore h _ _
  | untrack line => exact kept_untrackClean h _
  | hostLook fn off len => exact kept_hostLook h _ _ _
  | hostStore port addr data => exact kept_hostStore h _ _ _
  | vfCounts counts => exact kept_setVfCounts h _

theorem keptMove_nextAction (h : Kept z s) : KeptMove z (nextAction s) := by
  unfold nextAction
  split
  · exact h
  · split
    · exact kept_noteHot (kept_lowerSteps h)
    · split
      · exact keptMove_choose (kept_mk h) _
      · split
        · exact keptMove_moveGroup h _ _
        · split
          · exact h
          · exact h

theorem keptOut_step (h : Kept z s) : KeptOut z (step s) := by
  have hm := keptMove_nextAction h
  intro t e
  unfold step at e
  cases em : nextAction s with
  | moved u =>
    rw [em] at hm e
    cases e
    exact hm
  | run u i =>
    rw [em] at hm e
    dsimp only at e
    cases ex : exec i u with
    | next v =>
      rw [ex] at e
      cases e
      exact kept_finish (keptOut_exec hm i v ex) i
    | fault f => cases ex ▸ e
    | refused r => cases ex ▸ e

theorem kept_self (s : State) : Kept s s := by
  unfold Kept
  exact ⟨id, id⟩

end

/-- Settles O40: a step keeps whatever `Kept` says, the form of the memories among it. -/
theorem memoryCanonicalKept : Obligations.MemoryCanonicalKept := by
  intro s t hs e
  have h := keptOut_step (kept_self s) t e
  unfold Kept at h
  exact h.1 hs

/-- Settles O41: a step keeps whatever `Kept` says, the form of every grove's scratch among it. -/
theorem scratchCanonicalKept : Obligations.ScratchCanonicalKept := by
  intro s t hs e
  have h := keptOut_step (kept_self s) t e
  unfold Kept at h
  exact h.2 hs

end Sys2Proof.Machine
end

section

/-! # Stores at issue (R201, R218, R309) -/

namespace Sys2Proof.Machine
open Sys2Proof.Safety

/-! ## Bytes put into a table, one after the other -/

/-- The bytes put from offset `o` on. -/
def putAll (o : Nat) (bytes : List Byte) (t : Table Byte) : Table Byte := bytes.zipIdx.foldl (fun t e => t.put (o + e.2) e.1) t

theorem at?_foldl_put (o : Nat) (bytes : List Byte) (n : Nat) (t : Table Byte) (k : Nat) :
    ((bytes.zipIdx n).foldl (fun t e => t.put (o + e.2) e.1) t).at? k =
      if o + n ≤ k ∧ k < o + n + bytes.length then bytes[k - (o + n)]? else t.at? k := by
  induction bytes generalizing n t with
  | nil => exact (if_neg (by simp only [List.length_nil]; omega)).symm
  | cons b bytes ih =>
    simp only [List.zipIdx_cons, List.foldl_cons, ih, List.length_cons]
    rcases Nat.lt_trichotomy k (o + n) with h | h | h
    · rw [if_neg (by omega), if_neg (by omega), Table.at?_put_other _ _ (by omega)]
    · subst h
      rw [if_neg (by omega), if_pos (by omega), Table.at?_put_same, Nat.sub_self, List.getElem?_cons_zero]
    · rw [Table.at?_put_other _ _ (by omega), show k - (o + n) = k - (o + (n + 1)) + 1 by omega, List.getElem?_cons_succ]
      exact if_congr (by omega) rfl rfl

theorem at?_putAll_in {o k : Nat} {bytes : List Byte} (t : Table Byte) (h : k < bytes.length) : (putAll o bytes t).at? (o + k) = bytes[k]? := by
  rw [putAll, at?_foldl_put, if_pos (by omega), show o + k - (o + 0) = k by omega]

theorem at?_putAll_out {o k : Nat} {bytes : List Byte} (t : Table Byte) (h : k < o ∨ o + bytes.length ≤ k) :
    (putAll o bytes t).at? k = t.at? k := by
  rw [putAll, at?_foldl_put, if_neg (by omega)]

theorem offset_sub_line (p : Place) : p.offset - p.line.offset = p.offset % 128 := by
  cases p <;> simp only [Place.line, Place.align, Place.offset] <;> omega

/-! ## One store into the buffer (R218) -/

theorem takes_iff {e : Entry} {gid : Nat} {l : Place} : e.takes gid l = true ↔ e.gid = gid ∧ e.line = l ∧ e.draining = false := by
  simp [Entry.takes, and_assoc]

/-- What a store makes of the entry of its line. -/
def Entry.merged (g : Group) (seq : Nat) (p : Place) (bytes : List Byte) (e : Entry) : Entry :=
  { e with seq := seq, bytes := putAll (p.offset % 128) bytes e.bytes, clk := max e.clk g.clk }

/-- The entry that a store makes where its group has none for the line. -/
def newEntry (s : State) (gid : Nat) (g : Group) (seq : Nat) (a : Scalar) (p : Place) (bytes : List Byte) : Entry :=
  { seq := seq, gid := gid, ctx := g.ctx, core := g.core, line := p.line, va := a.toNat - p.offset % 128,
    bytes := putAll (p.offset % 128) bytes [], clk := g.clk, born := (s.coreAt g.core).clock, draining := false, held := s.redundant g }

section
variable (s : State) (gid : Nat) (g : Group) (seq : Nat) (a : Scalar) (p : Place) (bytes : List Byte)

theorem bufferStore_merge (h : ∃ e ∈ s.entries, e.takes gid p.line = true) : s.bufferStore gid g seq a p bytes =
    { s with entries := s.entries.map fun e => if e.takes gid p.line then e.merged g seq p bytes else e } := by
  unfold State.bufferStore
  dsimp only
  rw [if_pos (List.any_eq_true.2 h), offset_sub_line]
  rfl

theorem bufferStore_new (h : ¬ ∃ e ∈ s.entries, e.takes gid p.line = true) : s.bufferStore gid g seq a p bytes =
    { s with entries := s.entries ++ [newEntry s gid g seq a p bytes] } := by
  unfold State.bufferStore
  dsimp only
  rw [if_neg fun h' => h (List.any_eq_true.1 h'), offset_sub_line]
  rfl

theorem merged_takes (e : Entry) (l : Place) : (e.merged g seq p bytes).takes gid l = e.takes gid l := rfl

theorem newEntry_takes : (newEntry s gid g seq a p bytes).takes gid p.line = true := takes_iff.2 ⟨rfl, rfl, rfl⟩

/-- The entry of the line is the one that the store made, or one that it merged into. -/
theorem mem_bufferStore_takes {e : Entry} (ht : e.takes gid p.line = true) : e ∈ (s.bufferStore gid g seq a p bytes).entries ↔
    (∃ f ∈ s.entries, f.takes gid p.line = true ∧ e = f.merged g seq p bytes) ∨
      ((¬ ∃ f ∈ s.entries, f.takes gid p.line = true) ∧ e = newEntry s gid g seq a p bytes) := by
  by_cases h : ∃ f ∈ s.entries, f.takes gid p.line = true
  · simp only [bufferStore_merge s gid g seq a p bytes h, List.mem_map, h, not_true_eq_false, false_and, or_false]
    refine exists_congr fun f => and_congr_right fun _ => ⟨fun he => ?_, fun ⟨hf, he⟩ => by rw [if_pos hf, he]⟩
    split at he
    · exact ⟨‹_›, he.symm⟩
    · exact absurd (he ▸ ht) ‹_›
  · simp only [bufferStore_new s gid g seq a p bytes h, List.mem_append, List.mem_singleton, h, not_false_eq_true, true_and]
    refine ⟨fun he => he.elim (fun he => absurd ⟨e, he, ht⟩ h) .inr,
      fun he => he.elim (fun ⟨f, hf, hft, _⟩ => absurd ⟨f, hf, hft⟩ h) .inr⟩

/-- No other entry changes. -/
theorem mem_bufferStore_other {e : Entry} (ht : e.takes gid p.line = false) :
    e ∈ (s.bufferStore gid g seq a p bytes).entries ↔ e ∈ s.entries := by
  by_cases h : ∃ f ∈ s.entries, f.takes gid p.line = true
  · simp only [bufferStore_merge s gid g seq a p bytes h, List.mem_map]
    refine ⟨fun ⟨f, hf, he⟩ => ?_, fun he => ⟨e, he, by rw [if_neg (ht ▸ Bool.false_ne_true)]⟩⟩
    split at he
    · next hft => rw [← he, merged_takes, hft] at ht; cases ht
    · exact he ▸ hf
  · simp only [bufferStore_new s gid g seq a p bytes h, List.mem_append, List.mem_singleton]
    refine or_iff_left fun he => ?_
    rw [he, newEntry_takes] at ht
    cases ht

theorem bufferStore_rest : { s.bufferStore gid g seq a p bytes with entries := s.entries } = s := by
  by_cases h : ∃ f ∈ s.entries, f.takes gid p.line = true
  · rw [bufferStore_merge s gid g seq a p bytes h]
  · rw [bufferStore_new s gid g seq a p bytes h]

theorem exists_takes_bufferStore : ∃ e ∈ (s.bufferStore gid g seq a p bytes).entries, e.takes gid p.line = true := by
  by_cases h : ∃ f ∈ s.entries, f.takes gid p.line = true
  · obtain ⟨f, hf, hft⟩ := h
    exact ⟨f.merged g seq p bytes,
      (mem_bufferStore_takes s gid g seq a p bytes (e := f.merged g seq p bytes) hft).2 (.inl ⟨f, hf, hft, rfl⟩), hft⟩
  · have hn := newEntry_takes s gid g seq a p bytes
    exact ⟨_, (mem_bufferStore_takes s gid g seq a p bytes hn).2 (.inr ⟨h, rfl⟩), hn⟩

end

/-! ## The stores of a word -/

/-- One store of a word leaves its core. -/
def storeOne (c : Issue) (g : Group) (seq : Nat) (s : State) (w : Scalar × Place × List Byte) : State :=
  if w.2.1.isGlobal then s.bufferStore c.gid g seq w.1 w.2.1 w.2.2
  else { s with locals := s.locals ++
    [{ seq := seq, gid := c.gid, ctx := g.ctx, place := w.2.1, size := w.2.2.length, data := fromBytes w.2.2 }] }

theorem issueStore_eq (s : State) (c : Issue) (g : Group) (ws : List (Scalar × Place × List Byte)) :
    s.issueStore c g ws = ws.foldl (storeOne c g s.nextId) (s.fresh.setGroup c.gid (s.signAll g ws)) := rfl

section
variable (c : Issue) (g : Group) (seq : Nat) (ws : List (Scalar × Place × List Byte))

theorem storeOne_rest (s : State) (w : Scalar × Place × List Byte) :
    { storeOne c g seq s w with entries := s.entries, locals := s.locals } = s := by
  unfold storeOne
  split
  · exact congrArg (fun x : State => { x with locals := s.locals }) (bufferStore_rest ..)
  · rfl

theorem storesOut_rest (s : State) : { ws.foldl (storeOne c g seq) s with entries := s.entries, locals := s.locals } = s := by
  refine List.foldlRecOn (motive := fun x : State => { x with entries := s.entries, locals := s.locals } = s) ws _ rfl fun x hx w _ => ?_
  exact (congrArg (fun y : State => { y with entries := s.entries, locals := s.locals }) (storeOne_rest c g seq x w)).trans hx

theorem storesOut_locals (s : State) : (ws.foldl (storeOne c g seq) s).locals =
    s.locals ++ (ws.filter fun w => !w.2.1.isGlobal).map fun w =>
      { seq := seq, gid := c.gid, ctx := g.ctx, place := w.2.1, size := w.2.2.length, data := fromBytes w.2.2 } := by
  induction ws generalizing s with
  | nil => exact (List.append_nil _).symm
  | cons w ws ih =>
    rw [List.foldl_cons, ih, storeOne]
    cases hw : w.2.1.isGlobal with
    | true =>
      have hl := congrArg State.locals (bufferStore_rest s c.gid g seq w.1 w.2.1 w.2.2)
      simp only at hl
      simp [hw, hl]
    | false => simp [hw]

theorem mem_storesOut (s : State) {e : Entry} (h : ∀ w ∈ ws, w.2.1.isGlobal = true → e.takes c.gid w.2.1.line = false) :
    e ∈ (ws.foldl (storeOne c g seq) s).entries ↔ e ∈ s.entries := by
  refine List.foldlRecOn (motive := fun x : State => e ∈ x.entries ↔ e ∈ s.entries) ws _ Iff.rfl fun x hx w hw => ?_
  unfold storeOne
  split
  · exact (mem_bufferStore_other _ _ _ _ _ _ _ (h w hw ‹_›)).trans hx
  · exact hx

end

theorem signAll_rest (s : State) (g : Group) (ws : List (Scalar × Place × List Byte)) :
    { s.signAll g ws with sig := g.sig, sigCount := g.sigCount, sigLog := g.sigLog } = g :=
  signAll_keeps (fun x => { x with sig := g.sig, sigCount := g.sigCount, sigLog := g.sigLog }) (fun _ _ _ => rfl) s g ws

/-- Settles O17: one store changes the entry of its line at most (`mem_bufferStore_takes`, `mem_bufferStore_other`), and those of a word are
a fold of such. -/
theorem storesIssued : Obligations.StoresIssued := by
  refine ⟨fun s c g ws _ => ?_, fun s gid g seq a p bytes _ => ?_⟩
  · have hrest := storesOut_rest c g s.nextId ws (s.fresh.setGroup c.gid (s.signAll g ws))
    rw [← issueStore_eq] at hrest
    refine ⟨storesOut_locals c g s.nextId ws _, fun e he => ?_, ⟨s.signAll g ws, ?_, signAll_rest s g ws, fun hr => ?_⟩, ?_⟩
    · refine mem_storesOut c g s.nextId ws _ fun w hw hg => Bool.eq_false_iff.2 fun ht => ?_
      obtain ⟨hgid, hline, hdr⟩ := takes_iff.1 ht
      rcases he with he | he | he
      · exact he hgid
      · rw [hdr] at he; cases he
      · exact he w hw hg hline.symm
    · exact (congrArg (fun x : State => x.groupAt c.gid) hrest).trans (groupAt_setGroup_same ..)
    · exact if_neg (hr ▸ Bool.false_ne_true)
    · exact congrArg (fun x : State => { x with groups := s.groups, nextId := s.nextId }) hrest
  · refine ⟨?_, fun e he hgid hline hdr => ?_, bufferStore_rest ..⟩
    · obtain ⟨e, he, ht⟩ := exists_takes_bufferStore s gid g seq a p bytes
      exact ⟨e, he, takes_iff.1 ht⟩
    · rcases (mem_bufferStore_takes s gid g seq a p bytes (takes_iff.2 ⟨hgid, hline, hdr⟩)).1 he with ⟨f, hf, hft, rfl⟩ | ⟨-, rfl⟩
      · obtain ⟨hfg, hfl, hfd⟩ := takes_iff.1 hft
        exact ⟨rfl, le_max_right .., fun k hk => at?_putAll_in _ hk,
          .inr ⟨f, hf, hfg, hfl, hfd, rfl, rfl, fun o ho => at?_putAll_out _ ho⟩⟩
      · exact ⟨rfl, le_rfl, fun k hk => at?_putAll_in _ hk, .inl ⟨rfl, fun o ho => at?_putAll_out _ ho⟩⟩

end Sys2Proof.Machine
end

section

/-! # What a load reads (R201, R215) -/

namespace Sys2Proof.Machine
open Sys2Proof.Safety

/-! ## The times of a line at its home -/

theorem lineKey_of_global {p : Place} (h : p.isGlobal = true) : ∃ k, p.lineKey = some k := by
  cases p with
  | dram sl o => exact ⟨_, rfl⟩
  | host q k a => exact ⟨_, rfl⟩
  | scratch g o => cases h
  | regs g o => cases h
  | vault d v o => cases h

theorem lineOf_of_at? {s : State} {p : Place} {k : Nat} {x : Line} (hk : p.lineKey = some k) (h : s.lines.at? k = some x) : s.lineOf p = x := by
  simp only [State.lineOf, hk, h, Option.getD_some]

theorem setLine_at? {p : Place} {k : Nat} (s : State) (x : Line) (hk : p.lineKey = some k) : (s.setLine p x).lines.at? k = some x := by
  simp only [State.setLine, hk, Table.at?_put_same]

/-- A line that takes its place in an L3 may evict another, which changes no times. -/
theorem holdLine_at? (s : State) (ctx : Nat) (p : Place) {k : Nat} {x : Line} (h : s.lines.at? k = some x) :
    ∃ y, (s.holdLine ctx p).lines.at? k = some y ∧ y.w = x.w ∧ y.l = x.l := by
  unfold State.holdLine
  split
  · exact ⟨x, h, rfl, rfl⟩
  · dsimp only
    split
    · exact ⟨x, h, rfl, rfl⟩
    · next v _ =>
      simp only [State.evictLine, State.setSlice]
      by_cases hv : k = v.1
      · subst hv
        exact ⟨_, (Table.at?_alter_same ..).trans (congrArg _ h), rfl, rfl⟩
      · exact ⟨x, (Table.at?_alter_other _ _ hv).trans h, rfl, rfl⟩

theorem holdLine_times (s : State) (ctx : Nat) {p : Place} {k : Nat} {x : Line} (hk : p.lineKey = some k) (h : s.lines.at? k = some x) :
    ((s.holdLine ctx p).lineOf p).w = x.w ∧ ((s.holdLine ctx p).lineOf p).l = x.l := by
  obtain ⟨y, hy, hw, hl⟩ := holdLine_at? s ctx p h
  rw [lineOf_of_at? hk hy]
  exact ⟨hw, hl⟩

/-! ## What fetching leaves alone -/

theorem FetchedOnly.byteAt {s t : State} (h : FetchedOnly s t) (key : Nat) (p : Place) : t.byteAt key p = s.byteAt key p :=
  (congrArg (fun x : State => x.byteAt key p) h :)

theorem FetchedOnly.keyOf {s t : State} (h : FetchedOnly s t) (ctx : Nat) : t.keyOf ctx = s.keyOf ctx :=
  (congrArg (fun x : State => x.keyOf ctx) h :)

theorem FetchedOnly.poison {s t : State} (h : FetchedOnly s t) : t.poison = s.poison := (congrArg State.poison h :)

theorem FetchedOnly.sameMemory {s t : State} (h : FetchedOnly s t) : SameMemory s t :=
  ⟨(congrArg State.dram h :), (congrArg State.hostMem h :), (congrArg State.vaultMem h :), (congrArg State.keys h :)⟩

theorem FetchedOnly.bytesAt {s t : State} (h : FetchedOnly s t) (key : Nat) (p : Place) (n : Nat) : t.bytesAt key p n = s.bytesAt key p n :=
  List.map_congr_left fun _ _ => h.byteAt key _

/-! ## Bytes and poison within a sector -/

section
variable {p : Place} {n : Nat}

theorem sector_offset (p : Place) : p.offset - p.sector.offset = p.offset % 32 := by
  cases p <;> simp only [Place.sector, Place.align, Place.offset] <;> omega

theorem sector_plus (p : Place) (i : Nat) : p.sector.plus (p.offset % 32 + i) = p.plus i := by
  cases p <;> simp only [Place.sector, Place.align, Place.plus, Place.offset, Place.dram.injEq, Place.host.injEq, Place.scratch.injEq,
    Place.regs.injEq, Place.vault.injEq, true_and] <;> omega

/-- `n` bytes of a sector from where the place lies in it. -/
theorem bytesAt_sector (s : State) (key : Nat) (h : p.offset % 32 + n ≤ 32) :
    ((s.bytesAt key p.sector 32).drop (p.offset % 32)).take n = s.bytesAt key p n := by
  refine List.ext_getElem (by simp [State.bytesAt]; omega) fun i _ _ => ?_
  simp only [State.bytesAt, List.getElem_take, List.getElem_drop, List.getElem_map, List.getElem_range, sector_plus]

theorem sectorKey_plus {i : Nat} (hp : p.isGlobal = true) (h : p.offset % 32 + i < 32) : (p.plus i).sectorKey = p.sector.sectorKey := by
  cases p with
  | dram sl o => simp only [Place.plus, Place.sector, Place.align, Place.sectorKey, Place.offset, sliceBytes] at *; omega
  | host q k a => simp only [Place.plus, Place.sector, Place.align, Place.sectorKey, Place.offset] at *; omega
  | scratch g o => cases hp
  | regs g o => cases hp
  | vault d v o => cases hp

theorem offset_plus (p : Place) (i : Nat) : (p.plus i).offset = p.offset + i := by cases p <;> rfl

/-- A copy's mask says of `n` bytes whether one is poisoned. -/
theorem bad_iff_isPoisoned (s : State) (hp : p.isGlobal = true) (h : p.offset % 32 + n ≤ 32) :
    (s.poison.at? p.sector.sectorKey).getD 0 / 2 ^ (p.offset % 32) % 2 ^ n ≠ 0 ↔ s.isPoisoned p n = true := by
  have hbit (i : Nat) (hi : i < n) : s.badByte (p.plus i) = ((s.poison.at? p.sector.sectorKey).getD 0).testBit (p.offset % 32 + i) := by
    rw [State.badByte, sectorKey_plus hp (by omega), offset_plus, Nat.add_mod, Nat.mod_eq_of_lt (a := i) (by omega), Nat.mod_eq_of_lt (by omega)]
  simp only [State.isPoisoned, List.any_eq_true, List.mem_range, ne_eq, Nat.eq_iff_testBit_eq, Nat.testBit_mod_two_pow, Nat.testBit_div_two_pow,
    Nat.zero_testBit, not_forall, Bool.not_eq_false, Bool.and_eq_true, decide_eq_true_eq]
  exact exists_congr fun i => and_congr_right fun hi => by rw [hbit i hi, Nat.add_comm]

end

/-! ## Copies -/

theorem findCopy_cons {y : CopyLine} {ctx c : Nat} {sector : Place} (l : List CopyLine) (hc : y.ctx = ctx) (hs : y.sector = sector)
    (hl : c ≤ y.lc) :
    findCopy (y :: l) ctx sector c = some y :=
  List.find?_cons_of_pos (by simp [hc, hs, hl])

theorem takeCopy_l1 (co : Core) (y : CopyLine) (code : Nat) : ∃ l, (co.takeCopy y code).l1 = y :: l := by
  have hpos : 0 < l1Sectors code := Nat.mul_pos (by decide) (Nat.two_pow_pos code)
  obtain ⟨n, hn⟩ := Nat.exists_eq_succ_of_ne_zero hpos.ne'
  unfold Core.takeCopy Machine.takeCopy
  rw [hn]
  exact ⟨_, List.take_succ_cons⟩

/-- The L1 holds a copy that it took in. -/
theorem findCopy_keepCopy (s : State) (core : Nat) {y : CopyLine} {ctx c : Nat} {sector : Place} (hc : y.ctx = ctx) (hs : y.sector = sector)
    (hl : c ≤ y.lc) (hf : y.lc < y.w + 2 ^ 24) : findCopy ((s.keepCopy core y).coreAt core).l1 ctx sector c = some y := by
  have hfit : y.fits y.w = true := by simpa [CopyLine.fits] using hf
  have hcore : (s.keepCopy core y).coreAt core = ((s.setSlice (coreSlice core)
      ((s.sliceAt (coreSlice core)).takeCopy y (s.contextAt y.ctx).cfg.l2limit)).coreAt core).takeCopy y (s.contextAt y.ctx).cfg.l1 := by
    simp only [State.keepCopy, hfit, if_true, State.coreAt, State.setCore, Table.at?_put_same, Option.getD_some]
  obtain ⟨l, h⟩ := takeCopy_l1 ((s.setSlice (coreSlice core)
      ((s.sliceAt (coreSlice core)).takeCopy y (s.contextAt y.ctx).cfg.l2limit)).coreAt core) y (s.contextAt y.ctx).cfg.l1
  rw [hcore, h]
  exact findCopy_cons l hc hs hl

theorem findCopy_some {l : List CopyLine} {y : CopyLine} {ctx c : Nat} {sector : Place} (h : findCopy l ctx sector c = some y) :
    y.ctx = ctx ∧ y.sector = sector ∧ c ≤ y.lc := by
  have := List.find?_some h
  simpa [and_assoc] using this

/-! ## Lanes of spaces without times -/

theorem grouped_perm : ∀ ls : List LoadLane, (grouped ls).Perm ls
  | [] => .refl _
  | l :: ls => .cons l ((List.filter_append_perm l.together (grouped ls)).trans (grouped_perm ls))

theorem range_map_getD (l : List Byte) : ((List.range l.length).map fun i => l.getD i 0) = l := by
  refine List.ext_getElem (by simp) fun i _ h => ?_
  simp only [List.getElem_map, List.getElem_range]
  exact (List.getElem_eq_getD 0).symm

theorem barred_of_not_global (s : State) (ctx : Nat) (own : Bool) {p : Place} (hp : p.isGlobal = false) : s.barred ctx own p = false := by
  cases p with
  | dram sl o => cases hp
  | host q k a => cases hp
  | scratch g o => rfl
  | regs g o => rfl
  | vault d v o => rfl

theorem performLane_local (s : State) (ctx core : Nat) (x : Load) {l : LoadLane} (hp : l.place.isGlobal = false) (ho : l.own = []) :
    (s.performLane ctx core x l).1 = s ∧ (s.performLane ctx core x l).2.size = x.size ∧
      (s.performLane ctx core x l).2.data = x.data.put l.lane (fromBytes (s.bytesAt 0 l.place x.size)) := by
  have hb := barred_of_not_global s ctx false hp
  have hbytes := range_map_getD (s.bytesAt 0 l.place x.size)
  rw [show (s.bytesAt 0 l.place x.size).length = x.size by simp [State.bytesAt]] at hbytes
  unfold State.performLane
  simp only [hb, hp, ho, Bool.false_and, Bool.false_eq_true, if_false, Table.at?, Option.getD_none]
  split
  · next hc =>
    have h0 : x.size = 0 := by
      by_contra hne
      have := List.all_eq_true.1 hc 0 (List.mem_range.2 (Nat.pos_of_ne_zero hne))
      rw [ho] at this
      cases this
    simp [h0, State.bytesAt]
  · exact ⟨rfl, trivial, congrArg (fun b => x.data.put l.lane (fromBytes b)) hbytes⟩

/-- The lanes of a load that lie in places without times, performed one after the other. -/
theorem performLanes_local (s : State) (ctx core : Nat) (ls : List LoadLane) (hl : ∀ l ∈ ls, l.place.isGlobal = false ∧ l.own = [])
    (hn : (ls.map fun l => l.lane).Nodup) (x : Load) :
    let r := ls.foldl (fun (e : State × Load) l => e.1.performLane ctx core e.2 l) (s, x)
    r.1 = s ∧ (∀ k, k ∉ ls.map (fun l => l.lane) → r.2.data.at? k = x.data.at? k) ∧
      ∀ l ∈ ls, r.2.data.at? l.lane = some (fromBytes (s.bytesAt 0 l.place x.size)) := by
  induction ls generalizing x with
  | nil => exact ⟨rfl, fun _ _ => rfl, fun _ h => nomatch h⟩
  | cons l ls ih =>
    obtain ⟨hs, hsize, hdata⟩ := performLane_local s ctx core x (hl l List.mem_cons_self).1 (hl l List.mem_cons_self).2
    obtain ⟨hnot, hn⟩ := List.nodup_cons.1 hn
    have hx : s.performLane ctx core x l = (s, (s.performLane ctx core x l).2) := Prod.ext hs rfl
    obtain ⟨h1, h2, h3⟩ := ih (fun k hk => hl k (List.mem_cons_of_mem l hk)) hn (s.performLane ctx core x l).2
    simp only [List.foldl_cons]
    rw [hx]
    refine ⟨h1, fun k hk => ?_, fun k hk => ?_⟩
    · simp only [List.map_cons, List.mem_cons, not_or] at hk
      rw [h2 k hk.2, hdata, Table.at?_put_other _ _ hk.1]
    · rcases List.mem_cons.1 hk with rfl | hk
      · rw [h2 _ hnot, hdata, Table.at?_put_same]
      · rw [h3 k hk, hsize]

theorem performLoad_local (s : State) (ctx core : Nat) (x : Load) (hd : x.rest = x.lanes) (hn : (x.lanes.map fun l => l.lane).Nodup)
    (hl : ∀ l ∈ x.lanes, l.place.isGlobal = false ∧ l.own = []) :
    (s.performLoad ctx core x).1 = s ∧ ∀ l ∈ x.lanes,
      (s.performLoad ctx core x).2.data.at? l.lane = some (fromBytes (s.bytesAt 0 l.place x.size)) := by
  have hp := grouped_perm x.rest
  rw [hd] at hp
  obtain ⟨h1, -, h3⟩ := performLanes_local s ctx core (grouped x.lanes) (fun l h => hl l (hp.subset h)) ((hp.map _).nodup_iff.2 hn) x
  unfold State.performLoad
  rw [hd]
  exact ⟨h1, fun l h => h3 l (hp.symm.subset h)⟩

/-! ## Global lanes -/

section
variable {s : State} {ctx core c lease : Nat} {p : Place} {n : Nat} {y : CopyLine}

theorem readCopy_l1 (h : findCopy (s.coreAt core).l1 ctx p.sector c = some y) :
    s.readCopy ctx core c lease p n = (s, y.give (p.offset - p.sector.offset) n true 0) := by
  simp only [State.readCopy, h]

theorem readCopy_l2 (h1 : findCopy (s.coreAt core).l1 ctx p.sector c = none)
    (h2 : findCopy (s.sliceAt (coreSlice core)).l2 ctx p.sector c = some y) :
    s.readCopy ctx core c lease p n = (s.keepCopy core y, y.give (p.offset - p.sector.offset) n true 1) := by
  simp only [State.readCopy, h1, h2]

theorem readCopy_home (h1 : findCopy (s.coreAt core).l1 ctx p.sector c = none)
    (h2 : findCopy (s.sliceAt (coreSlice core)).l2 ctx p.sector c = none) : s.readCopy ctx core c lease p n =
      ((s.fillCopy ctx core c lease p).1, (s.fillCopy ctx core c lease p).2.give (p.offset - p.sector.offset) n false (s.sourceOf p)) := by
  simp only [State.readCopy, h1, h2]

theorem keepCopy_rest (s : State) (core : Nat) (y : CopyLine) : { s.keepCopy core y with cores := s.cores, slices := s.slices } = s := by
  unfold State.keepCopy
  split <;> rfl

theorem keepCopy_lineOf (hk : ∃ k x, p.lineKey = some k ∧ s.lines.at? k = some x) (core : Nat) (y : CopyLine) :
    (s.keepCopy core y).lineOf p = s.lineOf p := by
  obtain ⟨k, x, hk, hx⟩ := hk
  rw [lineOf_of_at? hk hx]
  exact lineOf_of_at? hk ((congrArg (fun t : State => t.lines.at? k) (keepCopy_rest s core y) :).trans hx)

/-- A line renewed at its home: W stands, L rises to what was asked for. -/
theorem renewAtHome_times (s : State) (ctx upTo : Nat) (hp : p.isGlobal = true) :
    (∃ k x, p.lineKey = some k ∧ (s.renewAtHome ctx p upTo).1.lines.at? k = some x) ∧
      ((s.renewAtHome ctx p upTo).1.lineOf p).w = (s.lineOf p).w ∧ ((s.renewAtHome ctx p upTo).1.lineOf p).l = max (s.lineOf p).l upTo := by
  obtain ⟨k, hk⟩ := lineKey_of_global hp
  have hx := setLine_at? s { s.lineOf p with l := max (s.lineOf p).l upTo, shared := 0 } hk
  obtain ⟨y, hy, -, -⟩ := holdLine_at? _ ctx p hx
  exact ⟨⟨k, y, hk, hy⟩, holdLine_times _ ctx hk hx⟩

end

/-- Settles O46: one case of the read of a lane for each place where its bytes may lie (`readCopy_l1`, `readCopy_l2`, `readCopy_home`). -/
theorem loadsReadByTime : Obligations.LoadsReadByTime := by
  refine ⟨fun s ctx core x _ hr hn hl => performLoad_local s ctx core x hr hn hl, fun s ctx core c lease p n y h => readCopy_l1 h,
    fun s ctx core c lease p n y h1 h2 => ⟨_, readCopy_l2 h1 h2, fun hf => ?l2, keepCopy_rest s core y⟩,
    fun s ctx core c lease p n hp ho h1 h2 => ?home⟩
  case l2 =>
    obtain ⟨hc, hs, hl⟩ := findCopy_some h2
    exact findCopy_keepCopy s core hc hs hl hf
  case home =>
    rw [readCopy_home h1 h2]
    have hf := fetchedOnly_renewAtHome s ctx p (c + lease)
    obtain ⟨hkey, hw, hl⟩ := renewAtHome_times s ctx (c + lease) hp
    have hline := keepCopy_lineOf hkey core (s.fillCopy ctx core c lease p).2
    refine ⟨?_, rfl, rfl, ?_, (congrArg Line.w hline).trans hw, (congrArg Line.l hline).trans hl,
      (fetchedOnly_fillCopy s ctx core c lease p).sameMemory,
      fun hfit => ⟨_, findCopy_keepCopy _ core rfl rfl ((Nat.le_add_right c lease).trans (le_max_right ..)) hfit, rfl⟩⟩
    · simp only [CopyLine.give, State.fillCopy, sector_offset, hf.keyOf, hf.bytesAt, bytesAt_sector s _ ho]
    · simp only [CopyLine.give, State.fillCopy, sector_offset, hf.poison]
      exact if_congr (bad_iff_isPoisoned s hp ho) rfl rfl

end Sys2Proof.Machine
end

section

/-! # Two names of one cell of DRAM (R359)

A place `.dram sl o` with `o` beyond its slice names a cell of a later slice, and `cellOf` says so; but the key that the bytes of
such a place were last written under is looked up by slice and offset, and a zeroing of the later slice does not hold it.  So what
is read at that place changes when the line is brought under another key, and O47 and O48, which say of every place of another cell
that it reads as before, fail there. -/

namespace Sys2Proof.Machine
open Sys2Proof.Safety

/-! ## What was written, and what a wrong key finds -/

theorem Memory.read_writeN_inside (bs : List Byte) : ∀ (m : Memory) (a i : Nat), m.wf = true → i < bs.length →
    (m.writeN a bs).read (a + i) = bs.getD i 0 := by
  induction bs with
  | nil => exact fun _ _ _ _ h => absurd h (Nat.not_lt_zero _)
  | cons b bs ih =>
    intro m a i hm hi
    have hw := Memory.wf_write m a b hm
    cases i with
    | zero => rw [Memory.writeN, Memory.read_writeN_outside _ _ _ _ (.inl (by omega)), Nat.add_zero, Memory.read_write_same _ _ _ hm,
        List.getD_cons_zero]
    | succ i => rw [Memory.writeN, show a + (i + 1) = a + 1 + i by omega, ih _ _ _ hw (Nat.lt_of_succ_lt_succ hi), List.getD_cons_succ]

/-- A block under the wrong key is not its plaintext. -/
theorem wrongBlock_ne (written reader line block : Nat) (plain : List Byte) : wrongBlock written reader line block plain ≠ plain := by
  have hlen : ((List.range 16).map (Config.wrongKey written reader line block plain)).length = 16 := by simp
  unfold wrongBlock
  dsimp only
  generalize (List.range 16).map (Config.wrongKey written reader line block plain) = found at *
  split
  · next h =>
    rw [← h]
    cases found with
    | nil => cases hlen
    | cons b bs =>
      intro he
      have hb : b + 1 = b := (List.cons.inj he).1
      bv_omega
  · next h => exact h

theorem wrongBlock_length (written reader line block : Nat) (plain : List Byte) : (wrongBlock written reader line block plain).length = 16 := by
  unfold wrongBlock
  dsimp only
  split <;> simp

/-- One byte at least of a block of zeros differs under the wrong key. -/
theorem wrongBlock_zeros (written reader line block : Nat) :
    ∃ i < 16, (wrongBlock written reader line block (List.replicate 16 0)).getD i 0 ≠ 0 := by
  by_contra h
  push Not at h
  have hlen := wrongBlock_length written reader line block (List.replicate 16 0)
  refine wrongBlock_ne written reader line block (List.replicate 16 0) (List.ext_getElem (by simpa using hlen) fun i hi _ => ?_)
  rw [List.getElem_eq_getD 0, h i (by omega), List.getElem_replicate]

/-! ## The state that refutes them -/

/-- Slice 1, a glade of its own, was zeroed under key 5. -/
def sliceZeroed : Zeroing := { first := 1, len := 1, shareB := 48, frames := [(0, sliceBytes)], key := 5 }

def zeroedUnderKey : State := { State.reset with zeroed := [sliceZeroed] }

/-- The place of slice 0 that names byte `i` of slice 1. -/
def beyond (i : Nat) : Place := .dram 0 (sliceBytes + i)

theorem cellOf_beyond (i : Nat) : cellOf (beyond i) = cellOf (.dram 1 i) := by
  simp only [beyond, cellOf, Nat.zero_mul, Nat.zero_add, Nat.one_mul]

theorem plain_of_unkeyed {s : State} {key sl o : Nat} (h : s.writtenKey sl o = 0) : s.plain key sl o = s.dram.read (sl * sliceBytes + o) := by
  simp only [State.plain, h, true_or, if_true]

theorem plain_of_other_key {s : State} {key sl o w : Nat} (h : s.writtenKey sl o = w) (h0 : w ≠ 0) (hw : w ≠ key) : s.plain key sl o =
    (wrongBlock w key ((sl * sliceBytes + o) / 128) (o % 128 / 16)
      ((List.range 16).map fun i => s.dram.read (sl * sliceBytes + o / 16 * 16 + i))).getD (o % 16) 0 := by
  simp only [State.plain, h, h0, hw, or_self, if_false]

section
variable {s : State} (hd : s.dram = []) (hk : s.keys = []) (hz : s.zeroed = [sliceZeroed])
include hd hk hz

theorem byteAt_beyond_zero (i : Nat) : s.byteAt 0 (beyond i) = 0 := by
  have hw : s.writtenKey 0 (sliceBytes + i) = 0 := by
    simp only [State.writtenKey, hk, hz, Table.at?, List.find?_cons, List.find?_nil, Zeroing.holds, inFrames, sliceZeroed]
    rfl
  rw [beyond, State.byteAt, plain_of_unkeyed hw, hd]
  rfl

theorem plain_slice1 {i : Nat} (hi : i < 16) : s.plain 0 1 i = (wrongBlock 5 0 (sliceBytes / 128) 0 (List.replicate 16 0)).getD i 0 := by
  have hw : s.writtenKey 1 i = 5 := by
    have hh : sliceZeroed.holds 1 (i / 128 * 128) = true := by
      rw [Nat.div_eq_of_lt (by omega)]
      decide
    simp only [State.writtenKey, hk, hz, Table.at?, List.find?_cons, hh]
    rfl
  have hblock : ((List.range 16).map fun j => s.dram.read (1 * sliceBytes + i / 16 * 16 + j)) = List.replicate 16 0 := by
    rw [hd]
    rfl
  have hline : (1 * sliceBytes + i) / 128 = sliceBytes / 128 := by
    simp only [sliceBytes]
    omega
  rw [plain_of_other_key hw (by decide) (by decide), hblock, hline, Nat.mod_eq_of_lt hi,
    Nat.mod_eq_of_lt (show i < 128 by omega), Nat.div_eq_of_lt hi]

omit hd in
/-- A byte written to the line brings it under key 0, and so changes what its first block holds. -/
theorem putByte_slice1 (b : Byte) : s.putByte 0 (.dram 1 16) b =
    { s.clearBad (.dram 1 16) with
      dram := (s.dram.writeN sliceBytes ((List.range 128).map fun j => (s.clearBad (.dram 1 16)).plain 0 1 j)).write (sliceBytes + 16) b,
      keys := s.keys.put (sliceBytes / 128) 0 } := by
  have hw : (s.clearBad (.dram 1 16)).writtenKey 1 16 = 5 := by
    simp only [State.writtenKey, clearBad_keys, clearBad_zeroed, hk, hz]
    decide
  simp only [State.putByte, State.storeByte, State.rekey, hw, clearBad_dram, clearBad_keys]
  norm_num [sliceBytes]

theorem byteAt_beyond_putByte (b : Byte) {i : Nat} (hi : i < 16) : (s.putByte 0 (.dram 1 16) b).byteAt 0 (beyond i) =
    (wrongBlock 5 0 (sliceBytes / 128) 0 (List.replicate 16 0)).getD i 0 := by
  have hput := putByte_slice1 hk hz b
  have hline : (0 * sliceBytes + (sliceBytes + i)) / 128 = sliceBytes / 128 := by
    simp only [sliceBytes]
    omega
  have hkey : (s.putByte 0 (.dram 1 16) b).writtenKey 0 (sliceBytes + i) = 0 := by
    simp only [State.writtenKey, hput, hline, Table.at?_put_same]
  have hwf : s.dram.wf = true := by rw [hd]; rfl
  have hplain := plain_slice1 (s := s.clearBad (.dram 1 16))
    ((clearBad_dram ..).trans hd) ((clearBad_keys ..).trans hk) ((clearBad_zeroed ..).trans hz) hi
  rw [beyond, State.byteAt, plain_of_unkeyed hkey, hput]
  dsimp only
  have hlen : i < ((List.range 128).map fun j => (s.clearBad (.dram 1 16)).plain 0 1 j).length := by
    rw [List.length_map, List.length_range]
    omega
  rw [Nat.zero_mul, Nat.zero_add, Memory.read_write_other _ _ (by omega), Memory.read_writeN_inside _ _ _ _ hwf hlen, ← hplain,
    List.getD_eq_getElem _ _ hlen, List.getElem_map, List.getElem_range]

end

/-- What a store of a byte to the zeroed line comes to, whatever it fetches before and after, reads otherwise at a place of another cell. -/
theorem beyond_changed {s t u : State} (b : Byte) (hd : s.dram = []) (hk : s.keys = []) (hz : s.zeroed = [sliceZeroed])
    (ht : FetchedOnly s t) (hu : FetchedOnly (t.putByte 0 (.dram 1 16) b) u) : ∃ i < 16, u.byteAt 0 (beyond i) ≠ s.byteAt 0 (beyond i) := by
  obtain ⟨i, hi, hne⟩ := wrongBlock_zeros 5 0 (sliceBytes / 128) 0
  have hd' : t.dram = [] := (congrArg State.dram ht :).trans hd
  have hk' : t.keys = [] := (congrArg State.keys ht :).trans hk
  have hz' : t.zeroed = [sliceZeroed] := (congrArg State.zeroed ht :).trans hz
  refine ⟨i, hi, ?_⟩
  rw [hu.byteAt, byteAt_beyond_putByte hd' hk' hz' b hi, byteAt_beyond_zero hd hk hz]
  exact hne

theorem beyond_other {i : Nat} (hi : i < 16) : cellOf (beyond i) ≠ cellOf (.dram 1 16) := by
  rw [cellOf_beyond]
  simp only [cellOf, ne_eq, Prod.mk.injEq, true_and]
  omega

/-! ## A lane of an atomic -/

theorem beyond_changed_writeAtHome (t : Nat) : ∃ i < 16,
    (zeroedUnderKey.writeAtHome 0 (.dram 1 16) [0] t).byteAt 0 (beyond i) ≠ zeroedUnderKey.byteAt 0 (beyond i) := by
  have ht := fetchedOnly_setLine zeroedUnderKey (.dram 1 16)
    (zeroedUnderKey.dirtied (.dram 1 16) { zeroedUnderKey.lineOf (.dram 1 16) with w := t, l := t })
  have hkey := ht.keyOf 0
  unfold State.writeAtHome
  dsimp only
  generalize zeroedUnderKey.setLine _ _ = u at *
  rw [hkey]
  exact beyond_changed 0 rfl rfl rfl ht (fetchedOnly_holdLine ..)

/-- Refutes O48: its fourth claim fails for a byte written to a line that was zeroed under another key, at a place of slice 0 whose offset is
beyond the slice. -/
theorem not_atomicsPerform : ¬ Obligations.AtomicsPerform := by
  unfold Obligations.AtomicsPerform
  rintro ⟨-, -, -, h, -⟩
  obtain ⟨i, hi, hne⟩ := beyond_changed_writeAtHome 0
  have hone : ∀ j < [(0 : Byte)].length, cellOf (beyond i) ≠ cellOf ((Place.dram 1 16).plus j) := fun j hj => by
    rw [show j = 0 by simpa using hj]
    exact beyond_other hi
  exact hne ((h zeroedUnderKey 0 (.dram 1 16) [0] 0 ⟨rfl, rfl, rfl⟩ rfl (by decide)).2.2.2.2 (beyond i) hone)

/-! ## An entry of a store buffer -/

/-- An entry that stores byte 16 of the line. -/
def beyondEntry : Entry :=
  { seq := 0, gid := 0, ctx := 0, core := 0, line := .dram 1 0, va := 0, bytes := [(16, 0)], clk := 0, born := 0, draining := true, held := false }

def withBeyondEntry : State := { zeroedUnderKey with entries := [beyondEntry] }

/-- An acknowledgement to a group that is gone reads nothing otherwise. -/
theorem byteAt_acked {s : State} (h : s.groups = []) (gid : Nat) (seqs : List Nat) (t : Nat) (line : Place) (mask key i : Nat) :
    (s.acked gid seqs t line mask).byteAt key (beyond i) = s.byteAt key (beyond i) := by
  have hsettle (u : State) (hu : u.groups = []) : u.settle gid = u := by
    simp only [State.settle, State.groupAt, hu, Table.at?]
  unfold State.acked
  rw [hsettle _ (by rw [State.noteGroup, State.raiseStamps, h]; rfl)]
  rfl

/-- What the entry's drain comes to, before the acknowledgement. -/
def beyondStored : State := ((withBeyondEntry.dropEntry beyondEntry).storeLine 0 (.dram 1 0) [(16, 0)] 0).1

theorem drain_beyondEntry : ∃ t,
    exec (.storeBufferDrain 0) withBeyondEntry = .next (beyondStored.acked 0 [0] t (.dram 1 0) (byteMask [(16, 0)])) := by
  have hfind : withBeyondEntry.entries.find? (fun e => decide (e.seq = 0) && withBeyondEntry.entryReady e) = some beyondEntry := by decide
  have hbarred : (withBeyondEntry.dropEntry beyondEntry).barred 0 true (.dram 1 0) = false := rfl
  refine ⟨((withBeyondEntry.dropEntry beyondEntry).storeLine 0 (.dram 1 0) [(16, 0)] 0).2, ?_⟩
  show execStoreBufferDrain 0 withBeyondEntry = _
  rw [execStoreBufferDrain, hfind]
  simp only [State.drain, beyondEntry] at *
  simp only [hbarred, Bool.false_eq_true, if_false]
  rfl

theorem beyondStored_spec : beyondStored.groups = [] ∧ ∃ i < 16, beyondStored.byteAt 0 (beyond i) ≠ withBeyondEntry.byteAt 0 (beyond i) := by
  have ht := fetchedOnly_setLine (withBeyondEntry.dropEntry beyondEntry) (.dram 1 0) ((withBeyondEntry.dropEntry beyondEntry).dirtied (.dram 1 0)
    { (withBeyondEntry.dropEntry beyondEntry).lineOf (.dram 1 0) with
      w := max 0 (((withBeyondEntry.dropEntry beyondEntry).lineOf (.dram 1 0)).l + 1)
      l := max 0 (((withBeyondEntry.dropEntry beyondEntry).lineOf (.dram 1 0)).l + 1) })
  have hkey := ht.keyOf 0
  have hgroups := (congrArg State.groups ht :)
  unfold beyondStored State.storeLine
  dsimp only
  generalize (withBeyondEntry.dropEntry beyondEntry).setLine _ _ = u at *
  rw [List.foldl_cons, List.foldl_nil, hkey]
  have hhold := fetchedOnly_holdLine (u.putByte 0 (.dram 1 16) 0) 0 (.dram 1 0)
  have hput := putByte_slice1 (s := u) (congrArg State.keys ht :) (congrArg State.zeroed ht :) 0
  constructor
  · calc _ = (u.putByte 0 (.dram 1 16) 0).groups := (congrArg State.groups hhold :)
      _ = (u.clearBad (.dram 1 16)).groups := by rw [hput]
      _ = u.groups := clearBad_groups ..
      _ = [] := hgroups
  · exact beyond_changed (s := withBeyondEntry.dropEntry beyondEntry) 0 rfl rfl rfl ht hhold

/-- Refutes O47: its first claim fails for an entry that stores a byte of a line that was zeroed under another key, at a place of slice 0 whose
offset is beyond the slice. -/
theorem not_storesArrive : ¬ Obligations.StoresArrive := by
  unfold Obligations.StoresArrive
  rintro ⟨h, -⟩
  obtain ⟨u, hexec, -, -, -, hgroups, -, hframe⟩ :=
    h withBeyondEntry 0 beyondEntry ⟨rfl, rfl, rfl⟩ (by decide) (by decide) (by decide) rfl (by decide) (by decide)
  obtain ⟨t, hrun⟩ := drain_beyondEntry
  obtain ⟨hnone, i, hi, hne⟩ := beyondStored_spec
  have hsame := congrArg (fun x : State => x.byteAt 0 (beyond i)) (Host.Outcome.next.inj (hrun.symm.trans hexec))
  simp only [byteAt_acked hnone, byteAt_acked hgroups] at hsame
  refine hne (hsame.trans (hframe (beyond i) fun b hb => ?_))
  rw [show b = (16, 0) by simpa [beyondEntry] using hb]
  exact beyond_other hi

end Sys2Proof.Machine
end

section

/-! # The loss of a last guardian when the notice queue is full (R348, R350)

The loss raises a notice of type 5.  A context without a guardian whose 256 notices wait overflows, an error of class 11 from source 7,
and a glade that answers those errors with action 3 destroys the context: nothing of it is left that could be ORPHANED. -/

namespace Sys2Proof.Machine
open Sys2Proof.Safety

theorem contextAt_of_at? {s : State} {ctx : Nat} {x : Context} (h : s.contexts.at? ctx = some x) : s.contextAt ctx = x := by
  rw [State.contextAt, h, Option.getD_some]

section
variable {s : State} {ctx : Nat} {x : Context}

theorem sever_at? (g : Guardian) (primary : Bool) (h : s.contexts.at? ctx = some x) : ∃ y : Context,
    (s.sever ctx g primary).contexts.at? ctx = some y ∧ y.guardians = x.guardians ∧ y.notices = x.notices ∧ y.glade = x.glade := by
  simp only [State.sever, State.dropXlates, Table.at?_alter_same, h, Option.map_some, Option.some.injEq, exists_eq_left', and_self]

theorem removeGuardian_at? (g : Guardian) (h : s.contexts.at? ctx = some x) : ∃ y : Context,
    (s.removeGuardian ctx g).contexts.at? ctx = some y ∧ y.guardians = withoutPort x.guardians g.port ∧ y.notices = x.notices ∧
      y.glade = x.glade := by
  simp only [State.removeGuardian, State.setPage, Table.at?_alter_same, h, Option.map_some, Option.some.injEq, exists_eq_left', and_self]

theorem orphan_at? (at_ : Nat) (h : s.contexts.at? ctx = some x) : ∃ y : Context,
    (s.orphan ctx at_).contexts.at? ctx = some y ∧ y.guardians = x.guardians ∧ y.notices = x.notices ∧ y.glade = x.glade := by
  simp only [State.orphan, State.drawNonce, State.draw, Table.at?_alter_same, h, Option.map_some, Option.some.injEq, exists_eq_left', and_self]

theorem notify_at? (n : Notice) (h : s.contexts.at? ctx = some x) (hg : x.guardians = []) : ∃ y : Context,
    (s.notify ctx n).contexts.at? ctx = some y ∧ y.glade = x.glade := by
  simp only [State.notify, contextAt_of_at? h, hg, if_true, State.setContext, Table.at?_put_same, Option.some.injEq, exists_eq_left']

theorem glades_notify (n : Notice) (h : s.contexts.at? ctx = some x) (hg : x.guardians = []) : (s.notify ctx n).glades = s.glades := by
  simp only [State.notify, contextAt_of_at? h, hg, if_true, State.setContext]

/-- The state in which an error of action 3 destroys its context: ECLASS is set, and the entry written. -/
def severeError (s : State) (ctx : Nat) (x : Context) (cls src : Nat) (e : LogEntry) : State :=
  { s.setContext ctx { x with eclass := some (src, cls) } with glades := s.glades.alter x.glade fun g => g.write e }

theorem errorBy_destroys (raise : State → Nat → Notice → State) {gl : Glade} {cls src : Nat} (addr : Scalar) (detail : BitVec 32)
    (h : s.contexts.at? ctx = some x) (hgl : s.glades.at? x.glade = some gl) (ha : gl.action cls src = 3) :
    ∃ e, s.errorBy raise 0 cls src ctx addr detail = (severeError s ctx x cls src e).destroy ctx := by
  have hact (y : Context) : max 0 (((s.setContext ctx y).gladeAt x.glade).action cls src) = 3 := by
    show max 0 ((s.gladeAt x.glade).action cls src) = 3
    rw [State.gladeAt, hgl, Option.getD_some, ha]
    rfl
  unfold State.errorBy
  simp only [h, hact, Nat.reduceEqDiff, if_false, if_true]
  exact ⟨{ time := s.time, addr := addr, ctx := ctx, cls := cls, source := src, act := 3, ovf := false, detail := detail }, rfl⟩

/-- Where the context is gone, there is nothing to suspend. -/
theorem orphanAtOnce_of_none (h : s.contexts.at? ctx = none) : (s.orphanAtOnce ctx).contexts.at? ctx = none := by
  unfold State.orphanAtOnce State.orphanTrigger State.suspend
  rw [h]
  split
  · split <;> exact h
  · exact h

/-- The context whose last guardian `g` is lost, before the notice of the loss. -/
def bereft (s : State) (ctx : Nat) (g : Guardian) (at_ : Nat) : State :=
  ((s.sever ctx g (decide ((s.contextAt ctx).guardians.head? = some g))).removeGuardian ctx g).orphan ctx at_

def lossNotice : Notice := { (default : Notice) with type := 5 }

theorem glades_bereft (s : State) (ctx : Nat) (g : Guardian) (at_ : Nat) : (bereft s ctx g at_).glades = s.glades := by
  simp only [bereft, State.orphan, State.drawNonce, State.draw, State.removeGuardian, State.setPage, State.sever, State.dropXlates]

theorem loseGuardian_last {g : Guardian} (at_ : Nat) (h : s.contexts.at? ctx = some x) (hg : x.guardians = [g]) :
    s.loseGuardian ctx g at_ = ((bereft s ctx g at_).raise ctx lossNotice).orphanAtOnce ctx ∧
      ∃ y : Context, (bereft s ctx g at_).contexts.at? ctx = some y ∧ y.guardians = [] ∧ y.notices = x.notices ∧ y.glade = x.glade := by
  obtain ⟨y0, h0, hg0, hn0, hgl0⟩ := sever_at? g (decide ((s.contextAt ctx).guardians.head? = some g)) h
  obtain ⟨y1, h1, hg1, hn1, hgl1⟩ := removeGuardian_at? g h0
  obtain ⟨y2, h2, hg2, hn2, hgl2⟩ := orphan_at? at_ h1
  have hnone : y1.guardians = [] := by simp [hg1, hg0, hg, withoutPort]
  constructor
  · rw [State.loseGuardian]
    simp only [contextAt_of_at? h1, hnone, if_true]
    rfl
  · exact ⟨y2, h2, hg2.trans hnone, by rw [hn2, hn1, hn0], by rw [hgl2, hgl1, hgl0]⟩

theorem raise_overflows {gl : Glade} {n : Notice} (h : s.contexts.at? ctx = some x) (hg : x.guardians = []) (ho : x.overflows n.type = true)
    (hgl : s.glades.at? x.glade = some gl) (ha : gl.action 11 7 = 3) : ∃ (u : State) (y : Context) (e : LogEntry),
      u.contexts.at? ctx = some y ∧ u.glades.at? y.glade = some gl ∧ s.raise ctx n = (severeError u ctx y 11 7 e).destroy ctx := by
  obtain ⟨y, hy, hygl⟩ := notify_at? n h hg
  have hglade : (s.notify ctx n).glades.at? y.glade = some gl := by rw [glades_notify n h hg, hygl, hgl]
  obtain ⟨e, he⟩ := errorBy_destroys State.notify 0 0 hy hglade ha
  refine ⟨s.notify ctx n, y, e, hy, hglade, ?_⟩
  rw [State.raise, contextAt_of_at? h, if_pos ho, he]

/-- What the loss of the last guardian comes to, the queue being full. -/
theorem loseGuardian_overflows {g : Guardian} {gl : Glade} (at_ : Nat) (h : s.contexts.at? ctx = some x) (hg : x.guardians = [g])
    (hn : 256 ≤ (x.notices.filter (·.queued)).length) (hgl : s.glades.at? x.glade = some gl) (ha : gl.action 11 7 = 3) :
    ∃ (u : State) (y : Context) (e : LogEntry), u.contexts.at? ctx = some y ∧ u.glades.at? y.glade = some gl ∧
      s.loseGuardian ctx g at_ = ((severeError u ctx y 11 7 e).destroy ctx).orphanAtOnce ctx := by
  obtain ⟨hlose, y, hy, hyg, hyn, hygl⟩ := loseGuardian_last at_ h hg
  have hover : y.overflows lossNotice.type = true := by simp [Context.overflows, lossNotice, hyg, hyn, hn]
  obtain ⟨u, z, e, hz, hzgl, hraise⟩ := raise_overflows hy hyg hover (by rw [glades_bereft, hygl, hgl]) ha
  exact ⟨u, z, e, hz, hzgl, by rw [hlose, hraise]⟩

end

/-! ## The state -/

/-- The guardian of the witnesses' context. -/
def fullGuardian : Guardian := { port := 0, vf := 0, page := 0, identity := 0, last := 0 }

/-- The context of the witnesses, with work left and 256 error notices that wait. -/
def fullContext : Context :=
  { loaderContext 0 with notices := List.replicate 256 { (default : Notice) with type := 3, queued := true }, submits := [0] }

/-- Its glade destroys the context of an error of class 11 from source 7. -/
def severeGlade : Glade := { (default : Glade) with errsev := [(95, 3)] }

def fullState : State := { State.reset with contexts := [(0, fullContext)], glades := [(0, severeGlade)] }

theorem fullContext_queued : (fullContext.notices.filter (·.queued)).length = 256 := by
  rw [fullContext, List.filter_replicate_of_pos rfl, List.length_replicate]

theorem fullContext_pending : fullContext.notices.any Notice.pending = false :=
  List.any_eq_false.2 fun n hn => by
    rw [List.eq_of_mem_replicate hn]
    decide

/-- Refutes O58: its seventh claim, of the loss of a last guardian, fails where the ninth says that the context is destroyed. -/
theorem not_guardianRoles : ¬ Obligations.GuardianRoles := by
  unfold Obligations.GuardianRoles
  rintro ⟨-, -, -, -, -, -, hlost, -, hdestroyed, -⟩
  obtain ⟨z, hz, -⟩ := hlost fullState 0 fullContext fullGuardian 0 rfl rfl (by decide) fullContext_pending rfl
  obtain ⟨u, y, e, hy, hgl, hlose⟩ :=
    loseGuardian_overflows (s := fullState) (ctx := 0) (g := fullGuardian) (gl := severeGlade) 0 rfl rfl fullContext_queued.ge rfl rfl
  have hat : (severeError u 0 y 11 7 e).contexts.at? 0 = some { y with eclass := some (7, 11) } := Table.at?_put_same ..
  have hglade : (severeError u 0 y 11 7 e).glades.at? y.glade = some (severeGlade.write e) := by
    simp only [severeError, Table.at?_alter_same]
    exact congrArg _ hgl
  obtain ⟨hdestroy, hgone, -, -, -, -, -, -, -, -, -, -, -, -, -, -, -, -, -, -, -, hlog⟩ := hdestroyed _ 0 _ hat
  have hact : (severeGlade.write e).action 11 7 = 3 := rfl
  have hstay : (((severeError u 0 y 11 7 e).destroyOne 0).gladeAt y.glade).action 11 7 ≠ 4 := by
    rw [hlog _ hglade, if_neg (by rw [hact]; decide)]
    exact (show severeGlade.action 11 7 ≠ 4 by decide)
  rw [if_neg hstay] at hdestroy
  rw [hlose, orphanAtOnce_of_none (hdestroy ▸ hgone)] at hz
  cases hz

end Sys2Proof.Machine
end

section

/-! # The events of the package (R205, R311 to R313, R319, R329, R330, R338, R359, R369, R373, R376) -/

namespace Sys2Proof.Machine
open Sys2Proof.Safety

/-! ## The error log and the actions (R311 to R313) -/

theorem defaultAction_eq (cls : Nat) :
    defaultAction cls = if cls ∈ [2, 3, 7, 9, 10, 14, 15] then 2 else if cls = 4 then 3 else 1 := by
  unfold defaultAction
  split <;> simp_all

theorem action_cases (g : Glade) (cls src : Nat) : g.action cls src = match g.errsev.at? (cls * 8 + src) with
    | some a => a
    | none => if cls ∈ [2, 3, 7, 9, 10, 14, 15] then 2 else if cls = 4 then 3 else 1 := by
  unfold Glade.action
  cases h : g.errsev.at? (cls * 8 + src) with
  | some a => rfl
  | none => exact defaultAction_eq cls

theorem write_of_room (g : Glade) (e : LogEntry) (h : g.errlog.length < 256) :
    g.write e = { g with errlog := g.errlog ++ [{ e with ovf := false }], loghead := g.loghead + 1 } := by
  simp only [Glade.write, Nat.not_le.2 h, decide_false, Bool.false_eq_true, if_false]

theorem write_of_full (g : Glade) (e : LogEntry) (h : 256 ≤ g.errlog.length) :
    g.write e = { g with errlog := g.errlog.drop 1 ++ [{ e with ovf := true }], loghead := g.loghead + 1 } := by
  simp only [Glade.write, h, decide_true, if_true]

theorem toBytes_length (n : Nat) : ∀ v, (toBytes v n).length = n := by
  induction n with
  | zero => exact fun _ => rfl
  | succ n ih => exact fun v => congrArg Nat.succ (ih _)

theorem fromBytes_toBytes (n : Nat) : ∀ v, fromBytes (toBytes v n) = v % 2 ^ (8 * n) := by
  induction n with
  | zero => exact fun v => (Nat.mod_one v).symm
  | succ n ih =>
    intro v
    rw [toBytes, fromBytes, ih, BitVec.toNat_ofNat, show 2 ^ (8 * (n + 1)) = 256 * 2 ^ (8 * n) by rw [Nat.mul_succ, Nat.pow_add]; omega, Nat.mod_mul]

theorem fieldOf_toBytes_append (v n : Nat) (rest : List Byte) : fieldOf (toBytes v n ++ rest) 0 n = v % 2 ^ (8 * n) := by
  rw [fieldOf, List.drop_zero, List.take_left' (toBytes_length n v), fromBytes_toBytes]

theorem fieldOf_append_of_le (v : Nat) {n o : Nat} (rest : List Byte) (m : Nat) (h : n ≤ o) :
    fieldOf (toBytes v n ++ rest) o m = fieldOf rest (o - n) m := by
  rw [fieldOf, List.drop_append, toBytes_length, List.drop_eq_nil_of_le ((toBytes_length n v).trans_le h), List.nil_append, fieldOf]

theorem logEntry_fields (e : LogEntry) : let b := e.bytes
    b.length = 32 ∧ fieldOf b 0 8 = e.time % 2 ^ 64 ∧ fieldOf b 8 8 = e.addr.toNat ∧ fieldOf b 0x10 2 = e.ctx % 2 ^ 16 ∧
      fieldOf b 0x12 1 = (e.cls + 16 * e.source) % 256 ∧ fieldOf b 0x13 1 = (e.act + if e.ovf = true then 128 else 0) % 256 ∧
      fieldOf b 0x14 4 = e.detail.toNat ∧ fieldOf b 0x18 8 = 0 := by
  have haddr := e.addr.isLt
  have hdetail := e.detail.isLt
  have hlast : toBytes 0 8 = toBytes 0 8 ++ [] := rfl
  dsimp only [LogEntry.bytes]
  rw [hlast]
  simp only [List.append_assoc, List.length_append, toBytes_length, List.length_nil, fieldOf_toBytes_append, fieldOf_append_of_le, Nat.reduceLeDiff,
    Nat.reduceSub, Nat.reduceAdd, Nat.reduceMul, Nat.sub_self, Nat.le_refl, Nat.zero_mod, Nat.mod_eq_of_lt haddr, Nat.mod_eq_of_lt hdetail]
  exact ⟨trivial, trivial, trivial, trivial, rfl, rfl, trivial, trivial⟩

theorem writeErrsev_refused {s : State} {port glade o : Nat} {data : List Byte} (h : ∃ b ∈ data, 4 < (b : Byte).toNat % 8) :
    s.writeErrsev port glade o data = s.answerHost port .error := by
  obtain ⟨b, hb, h4⟩ := h
  exact if_pos (List.any_eq_true.2 ⟨b, hb, decide_eq_true h4⟩)

theorem logIn_eq (s : State) (glade cls src ctx : Nat) (addr : Scalar) :
    let e : LogEntry := { time := s.time, addr := addr, ctx := ctx, cls := cls, source := src, act := 1, ovf := false, detail := 0 }
    s.logIn glade cls src ctx addr = if (s.gladeAt glade).action cls src = 0 then s
      else { s with glades := s.glades.alter glade fun g => g.write e } := by
  unfold State.logIn State.logAct
  intro e
  by_cases h : (s.gladeAt glade).action cls src = 0
  · rw [if_pos h, if_pos (by omega)]
  · rw [if_neg h, if_neg (by omega), show min ((s.gladeAt glade).action cls src) 1 = 1 by omega]

theorem report_cases (s : State) (glade cls src : Nat) (addr : Scalar) : let act := (s.gladeAt glade).action cls src
    let e : LogEntry := { time := s.time, addr := addr, ctx := 0xFFFF, cls := cls, source := src, act := if act = 3 then 2 else act,
                          ovf := false, detail := 0 }
    let logged : State := { s with glades := s.glades.alter glade fun g => g.write e }
    (act = 0 → s.report glade cls src addr = s) ∧ (act = 4 → s.report glade cls src addr = logged.resetGlade glade) ∧
    (act ≠ 0 → act ≠ 4 → s.report glade cls src addr = logged) := by
  unfold State.report State.logAct
  dsimp only
  generalize (s.gladeAt glade).action cls src = act
  refine ⟨fun h => ?_, fun h => ?_, fun h0 h4 => ?_⟩
  · simp only [h, Nat.reduceEqDiff, if_true, if_false]
  · simp only [h, Nat.reduceEqDiff, if_true, if_false]
  · rw [if_neg h4, if_neg (by split <;> omega)]

theorem errorBy_cases (raise : State → Nat → Notice → State) (s : State) (atLeast cls src ctx : Nat) (addr : Scalar)
    (detail : BitVec 32) {x : Context} (h : s.contexts.at? ctx = some x) : let act := max atLeast ((s.gladeAt x.glade).action cls src)
    let e : LogEntry := { time := s.time, addr := addr, ctx := ctx, cls := cls, source := src, act := act, ovf := false, detail := detail }
    let u := s.setContext ctx { x with eclass := some (src, cls) }
    let logged : State := { u with glades := u.glades.alter x.glade fun g => g.write e }
    (act = 0 → s.errorBy raise atLeast cls src ctx addr detail = u) ∧
    (act = 1 → s.errorBy raise atLeast cls src ctx addr detail = logged) ∧
    (act = 2 → s.errorBy raise atLeast cls src ctx addr detail = raise logged ctx { (default : Notice) with type := 3, log := e.bytes }) ∧
    (act = 3 → s.errorBy raise atLeast cls src ctx addr detail = logged.destroy ctx) ∧
    (act = 4 → s.errorBy raise atLeast cls src ctx addr detail = logged.resetGlade x.glade) := by
  have hact : (s.setContext ctx { x with eclass := some (src, cls) }).gladeAt x.glade = s.gladeAt x.glade := rfl
  unfold State.errorBy
  rw [h]
  dsimp only
  rw [hact]
  generalize max atLeast ((s.gladeAt x.glade).action cls src) = act
  refine ⟨fun h => ?_, fun h => ?_, fun h => ?_, fun h => ?_, fun h => ?_⟩
  · rw [if_pos h, if_neg (show ¬ act = 2 by omega), if_neg (show ¬ act = 3 by omega), if_neg (show ¬ act = 4 by omega)]
  · rw [if_neg (show ¬ act = 0 by omega), if_neg (show ¬ act = 2 by omega), if_neg (show ¬ act = 3 by omega), if_neg (show ¬ act = 4 by omega)]
    rfl
  · rw [if_neg (show ¬ act = 0 by omega), if_pos h]
    rfl
  · rw [if_neg (show ¬ act = 0 by omega), if_neg (show ¬ act = 2 by omega), if_pos h]
    rfl
  · rw [if_neg (show ¬ act = 0 by omega), if_neg (show ¬ act = 2 by omega), if_neg (show ¬ act = 3 by omega), if_pos h]
    rfl

theorem errorBy_none (raise : State → Nat → Notice → State) (s : State) (atLeast cls src ctx : Nat) (addr : Scalar) (detail : BitVec 32)
    (h : s.contexts.at? ctx = none) : s.errorBy raise atLeast cls src ctx addr detail = s := by
  unfold State.errorBy
  rw [h]

/-! ## The throttling (R165, R376) -/

/-- The parts that are over their limits once `part` is, or is no longer. -/
theorem withPart_overs (b : Boot) (part : Nat) (hot : Bool) : b.withPart part hot = { b with overs :=
    if hot = true then (if part ∈ b.overs then b.overs else part :: b.overs) else b.overs.filter fun p => decide (p ≠ part) } := by
  simp only [Boot.withPart, List.contains_iff_mem]

theorem throttleDue_iff {s : State} {t low now : Nat} (h : s.boot.throttleAt = some t) (hl : s.boot.lowered = low) (hn : s.time = now) :
    s.throttleDue = true ↔ low < 16 ∧ t + 100000 ≤ now := by
  rw [State.throttleDue, Boot.lowerMoment, hl, h, hn]
  by_cases hlow : low < 16
  · rw [if_pos hlow, Option.map_some, Option.any_some, decide_eq_true_eq]
    exact (and_iff_right hlow).symm
  · rw [if_neg hlow, Option.any_none]
    exact iff_of_false Bool.false_ne_true fun hc => hlow hc.1

/-- What a package does that knows which parts are over their limits. -/
def overLimits (u : State) : State :=
  if !u.isReady then u
  else if u.boot.overs = [] then { u with boot := { u.boot with lowered := 0, throttleAt := none, hotAt := none } }
  else match u.boot.throttleAt with
    | none => u.lowerSteps.noteHot.reportWhere (fun _ => true) 14 7 0
    | some _ => if u.throttleDue then u.lowerSteps.noteHot else u.noteHot

theorem throttleStep_powered {s : State} (part : Nat) (hot : Bool) (hp : s.boot.powered = true) :
    exec (.throttleStep part hot) s = .next (overLimits { s with boot := s.boot.withPart part hot }) := by
  show execThrottleStep part hot s = _
  rw [execThrottleStep, if_neg (by rw [hp]; decide)]
  rfl

section
variable {u : State}

theorem overLimits_of_not_ready (h : u.isReady = false) : overLimits u = u := by
  rw [overLimits, h]
  rfl

theorem overLimits_of_none (h : u.isReady = true) (ho : u.boot.overs = []) :
    overLimits u = { u with boot := { u.boot with lowered := 0, throttleAt := none, hotAt := none } } := by
  rw [overLimits, h, if_neg (by decide), if_pos ho]

theorem overLimits_at_first (h : u.isReady = true) (ho : u.boot.overs ≠ []) (ht : u.boot.throttleAt = none) :
    overLimits u = u.lowerSteps.noteHot.reportWhere (fun _ => true) 14 7 0 := by
  rw [overLimits, h, if_neg (by decide), if_neg ho, ht]

theorem overLimits_later {t low now : Nat} (h : u.isReady = true) (ho : u.boot.overs ≠ []) (ht : u.boot.throttleAt = some t)
    (hl : u.boot.lowered = low) (hn : u.time = now) :
    overLimits u = if low < 16 ∧ t + 100000 ≤ now then u.lowerSteps.noteHot else u.noteHot := by
  rw [overLimits, h, if_neg (by decide), if_neg ho, ht]
  exact if_congr (throttleDue_iff ht hl hn) rfl rfl

end

theorem throttleStep_cases (s : State) (part : Nat) (hot : Bool) (hp : s.boot.powered = true) :
    let now := if hot = true then (if part ∈ s.boot.overs then s.boot.overs else part :: s.boot.overs)
      else s.boot.overs.filter (fun p => decide (p ≠ part))
    let u : State := { s with boot := { s.boot with overs := now } }
    let low : State := { s with boot := { s.boot with overs := now, lowered := min 16 (s.boot.lowered + 1), throttleAt := some s.time } }
    (s.isReady = false → exec (.throttleStep part hot) s = .next u) ∧
    (s.isReady = true → now = [] → exec (.throttleStep part hot) s =
      .next { s with boot := { s.boot with overs := [], lowered := 0, throttleAt := none, hotAt := none } }) ∧
    (s.isReady = true → now ≠ [] → s.boot.throttleAt = none →
      exec (.throttleStep part hot) s = .next (low.noteHot.reportWhere (fun _ => true) 14 7 0)) ∧
    ∀ t, s.isReady = true → now ≠ [] → s.boot.throttleAt = some t → exec (.throttleStep part hot) s =
      .next (if s.boot.lowered < 16 ∧ t + 100000 ≤ s.time then low.noteHot else u.noteHot) := by
  rw [throttleStep_powered part hot hp, withPart_overs]
  intro now u low
  refine ⟨fun h => congrArg _ (overLimits_of_not_ready h), fun h hn => congrArg _ ((overLimits_of_none (u := u) h hn).trans ?_),
    fun h hn ht => congrArg _ (overLimits_at_first (u := u) h hn ht), fun t h hn ht => congrArg _ (overLimits_later (u := u) h hn ht rfl rfl)⟩
  exact congrArg (fun o => ({ s with boot := { s.boot with overs := o, lowered := 0, throttleAt := none, hotAt := none } } : State)) hn

/-- While a part is over its limit, the next step of a package whose 100 µs are over lowers the cores' steps. -/
theorem step_of_throttleDue {s : State} {t : Nat} (hd : s.due = none) (ht : s.boot.throttleAt = some t) (hl : s.boot.lowered < 16)
    (h : t + 100000 ≤ s.time) : step s = .next
      ({ s with boot := { s.boot with lowered := s.boot.lowered + 1, throttleAt := some s.time } } : State).noteHot := by
  have hnext : nextAction s = .moved s.lowerSteps.noteHot := by
    unfold nextAction
    rw [hd]
    exact if_pos ((throttleDue_iff ht rfl rfl).2 ⟨hl, h⟩)
  rw [step, hnext, State.lowerSteps, show min 16 (s.boot.lowered + 1) = s.boot.lowered + 1 by omega]

theorem atLowest_iff (s : State) : s.atLowest = true ↔ ∀ k, k < 288 → (s.coreAt k).step ≤ 32 + s.boot.lowered := by
  simp only [State.atLowest, List.all_eq_true, List.mem_range, decide_eq_true_eq]
  exact forall₂_congr fun k _ => by rw [State.stepOf]; omega

theorem hotSince_hot {s : State} (h12 : 12 ∈ s.boot.overs) (h : ∀ k, k < 288 → (s.coreAt k).step ≤ 32 + s.boot.lowered) :
    s.hotSince = some (s.boot.hotAt.getD s.time) :=
  if_pos ⟨List.contains_iff_mem.2 h12, (atLowest_iff s).2 h⟩

theorem hotSince_none {s : State} (h : 12 ∉ s.boot.overs ∨ (∃ k, k < 288 ∧ 32 + s.boot.lowered < (s.coreAt k).step)) : s.hotSince = none := by
  refine if_neg fun ⟨h12, hlow⟩ => h.elim (fun hn => hn (List.contains_iff_mem.1 h12)) fun ⟨k, hk, hs⟩ => ?_
  have := (atLowest_iff s).1 hlow k hk
  omega

theorem stopDue_of_hotAt {s : State} {t : Nat} (hh : s.boot.hotAt = some t) (h : t + 10000000 ≤ s.time) : s.stopDue = true := by
  rw [State.stopDue, Boot.stopMoment, hh, Option.map_some, Option.any_some]
  exact decide_eq_true h

theorem due_thermalStop {s : State} (h : s.stopDue = true) (h1 : s.tickOf = none) (h2 : s.lossOf = none) (h3 : s.reapOf = none) :
    s.due = some .thermalStop := by
  rw [State.due, h1, h2, h3]
  exact if_pos h

/-! ## Tables and folds -/

theorem foldl_of_fixed {α β : Type} {f : β → α → β} {b : β} {l : List α} (h : ∀ a ∈ l, f b a = b) : l.foldl f b = b := by
  induction l with
  | nil => rfl
  | cons a l ih => rw [List.foldl_cons, h a List.mem_cons_self, ih fun x hx => h x (List.mem_cons_of_mem a hx)]

section
variable {α : Type}

theorem at?_mapVals (t : Table α) (f : α → α) (k : Nat) : (t.mapVals f).at? k = (t.at? k).map f := by
  induction t with
  | nil => rfl
  | cons e t ih =>
    obtain ⟨i, v⟩ := e
    simp only [Table.mapVals, List.map_cons, Table.at?] at *
    split
    · rfl
    · exact ih

theorem at?_filter (t : Table α) {p : Nat × α → Bool} {q : Nat → Bool} (hp : ∀ e, p e = q e.1) (k : Nat) :
    Table.at? (t.filter p) k = if q k = true then t.at? k else none := by
  induction t with
  | nil => split <;> rfl
  | cons e t ih =>
    obtain ⟨i, v⟩ := e
    rw [List.filter_cons, hp]
    by_cases hik : i = k
    · subst hik
      cases hq : q i with
      | true => simp [Table.at?]
      | false => simpa [hq] using ih
    · cases hq : q i with
      | true => simpa [Table.at?, hik] using ih
      | false => simpa [Table.at?, hik] using ih

theorem mem_of_at? {t : Table α} {k : Nat} {v : α} (h : t.at? k = some v) : (k, v) ∈ t := by
  induction t with
  | nil => cases h
  | cons e t ih =>
    obtain ⟨i, w⟩ := e
    simp only [Table.at?] at h
    split at h
    · next hik =>
      subst hik
      cases h
      exact List.mem_cons_self
    · exact List.mem_cons_of_mem _ (ih h)

theorem at?_isSome_of_mem {t : Table α} {e : Nat × α} (h : e ∈ t) : (t.at? e.1).isSome = true := by
  induction t with
  | nil => cases h
  | cons x t ih =>
    obtain ⟨i, w⟩ := x
    simp only [Table.at?]
    split
    · rfl
    · next hne =>
      rcases List.mem_cons.1 h with rfl | h
      · exact absurd rfl hne
      · exact ih h

end

/-! ## Power (R373) -/

theorem dropLines_clean {s : State} (h : ∀ e ∈ s.lines, e.2.dirty = false) : s.dropLines = { s with lines := [] } := by
  have hfold : ∀ e ∈ s.lines, (fun (s : State) (e : Nat × Line) =>
      if 2 ^ 64 ≤ e.1 ∧ e.2.dirty then s.restoreLine (e.1 / 2 ^ 64 - 1) (e.1 % 2 ^ 56 * 128) e.2 else s) s e = s := fun e he =>
    if_neg fun hd => Bool.false_ne_true ((h e he).symm.trans hd.2)
  rw [State.dropLines, foldl_of_fixed hfold]

theorem hostMem_dropLines {s : State} (h : ∀ e ∈ s.lines, e.2.dirty = false) : s.dropLines.hostMem = s.hostMem := by
  rw [dropLines_clean h]

theorem powerOff_spec {s : State} (hp : s.boot.powered = true) : ∃ t,
    exec .powerOff s = .next t ∧ t.boot.powered = false ∧ t.boot.state = .off ∧
    t.boot.fails = 0 ∧ t.boot.trained = false ∧ t.dram = [] ∧ t.vaultMem = [] ∧ t.contexts = [] ∧ t.groups = [] ∧ t.glades = [] ∧
    t.boot.mailbox = [] ∧ t.lines = [] ∧ ((∀ e ∈ s.lines, e.2.dirty = false) → t.hostMem = s.hostMem) := by
  refine ⟨s.unpowered, ?_, rfl, rfl, rfl, rfl, rfl, rfl, rfl, rfl, rfl, rfl, rfl, hostMem_dropLines⟩
  show execPowerOff s = _
  rw [execPowerOff, if_pos hp]

theorem powerOn_spec {s : State} (hp : s.boot.powered = false) : ∃ t,
    exec .powerOn s = .next t ∧ t.boot.powered = true ∧ t.boot.state = .off ∧
    t.boot.fails = 0 ∧ t.boot.trained = false ∧ t.dram = [] ∧ t.contexts = [] ∧ t.glades = [] ∧
    ((∀ e ∈ s.lines, e.2.dirty = false) → t.hostMem = s.hostMem) := by
  refine ⟨{ s.unpowered with boot := { s.unpowered.boot with powered := true } }, ?_, rfl, rfl, rfl, rfl, rfl, rfl, rfl, hostMem_dropLines⟩
  show execPowerOn s = _
  rw [execPowerOn, if_neg (by rw [hp]; decide)]

/-! ## The invalidation of a range (R319) -/

theorem rangeInvalidation_waits {s : State} {ctx : Nat} (base size : Nat) (h : s.translatedWork ctx = true) :
    exec (.rangeInvalidation ctx base size) s = .next s := by
  show execRangeInvalidation ctx base size s = _
  rw [execRangeInvalidation, if_pos h]

theorem tlb_dropXlates (s : State) (p : Xlate → Bool) (k : Nat) : ((s.dropXlates p).coreAt k).tlb = (s.coreAt k).tlb.filter fun x => !p x := by
  rw [State.coreAt, State.dropXlates, at?_mapVals, State.coreAt]
  cases s.cores.at? k with
  | none => rfl
  | some c => rfl

theorem rangeInvalidation_drops {s : State} {ctx : Nat} (base size : Nat) (h : s.translatedWork ctx = false) :
    ∃ t, exec (.rangeInvalidation ctx base size) s = .next t ∧ { t with cores := s.cores } = s ∧
      ∀ k x, x ∈ (t.coreAt k).tlb ↔ x ∈ (s.coreAt k).tlb ∧ ¬ (x.ctx = ctx ∧ x.base < base + size ∧ base < x.base + x.size) := by
  refine ⟨s.dropXlates fun t => decide (t.ctx = ctx) && decide (t.base < base + size) && decide (base < t.base + t.size), ?_, rfl, fun k x => ?_⟩
  · show execRangeInvalidation ctx base size s = _
    rw [execRangeInvalidation, if_neg (by rw [h]; decide)]
  · rw [tlb_dropXlates, List.mem_filter, Bool.not_eq_true', ← Bool.not_eq_true, Bool.and_eq_true, Bool.and_eq_true, decide_eq_true_eq,
      decide_eq_true_eq, decide_eq_true_eq, and_assoc]

/-! ## The key of a line, and the scrubbing (R311, R312, R359) -/

theorem plain_of_same_key {s : State} {key sl o : Nat} (h : s.writtenKey sl o = key) : s.plain key sl o = s.dram.read (sl * sliceBytes + o) := by
  simp only [State.plain, h, or_true, if_true]

theorem line_eq (sl o : Nat) : (sl * sliceBytes + o) / 128 = sl * (sliceBytes / 128) + o / 128 := by
  simp only [sliceBytes]
  omega

/-- All bytes of a line were written under one key. -/
theorem writtenKey_line (s : State) {sl o o' : Nat} (h : o' / 128 = o / 128) : s.writtenKey sl o' = s.writtenKey sl o := by
  rw [State.writtenKey, State.writtenKey, line_eq, line_eq, h]

theorem writtenKey_of_key {s : State} {sl o key : Nat} (h : s.keys.at? ((sl * sliceBytes + o) / 128) = some key) : s.writtenKey sl o = key := by
  rw [State.writtenKey, h]

/-- What is read in a line depends on the key and on the bytes of that line only. -/
theorem plain_congr {s t : State} {sl o : Nat} (hw : t.writtenKey sl o = s.writtenKey sl o)
    (hd : ∀ a, a / 128 = (sl * sliceBytes + o) / 128 → t.dram.read a = s.dram.read a) (key : Nat) : t.plain key sl o = s.plain key sl o := by
  have hblock : ((List.range 16).map fun i => t.dram.read (sl * sliceBytes + o / 16 * 16 + i)) =
      (List.range 16).map fun i => s.dram.read (sl * sliceBytes + o / 16 * 16 + i) := by
    refine List.map_congr_left fun i hi => hd _ ?_
    have := List.mem_range.1 hi
    simp only [sliceBytes]
    omega
  rw [State.plain, State.plain]
  dsimp only
  rw [hw, hblock, hd _ rfl]

/-- A line brought under a key: nothing changes if it was written under that key; its bytes stand if no key was held; else they become what
that key's holder reads. -/
theorem rekey_eq (s : State) (key sl o : Nat) : s.rekey key sl o = if s.writtenKey sl o = key then s
    else if s.writtenKey sl o = 0 then { s with keys := s.keys.put ((sl * sliceBytes + o) / 128) key }
    else { s with dram := s.dram.writeN (sl * sliceBytes + o / 128 * 128) ((List.range 128).map fun i => s.plain key sl (o / 128 * 128 + i)),
                  keys := s.keys.put ((sl * sliceBytes + o) / 128) key } := rfl

theorem rekey_rest (s : State) (key sl o : Nat) : { s.rekey key sl o with dram := s.dram, keys := s.keys } = s := by
  obtain ⟨k, m, e, -⟩ := rekey_cases s key sl o
  rw [e]

theorem writtenKey_rekey (s : State) (key sl o : Nat) : (s.rekey key sl o).writtenKey sl o = key := by
  rw [rekey_eq]
  split
  · assumption
  · split <;> exact writtenKey_of_key (Table.at?_put_same ..)

theorem byteAt_rekey_line {s : State} (hs : Canonical s) (key sl o : Nat) {i : Nat} (hi : i < 128) :
    (s.rekey key sl o).byteAt key (.dram sl (o / 128 * 128 + i)) = s.byteAt key (.dram sl (o / 128 * 128 + i)) := by
  have hline : (o / 128 * 128 + i) / 128 = o / 128 := by omega
  have hw := writtenKey_line s (sl := sl) hline
  have ht := (writtenKey_line (s.rekey key sl o) (sl := sl) hline).trans (writtenKey_rekey s key sl o)
  rw [State.byteAt, State.byteAt, plain_of_same_key ht, rekey_eq]
  split
  · next h => rw [plain_of_same_key (hw.trans h)]
  · split
    · next h => rw [plain_of_unkeyed (hw.trans h)]
    · have hlen : i < ((List.range 128).map fun i => s.plain key sl (o / 128 * 128 + i)).length := by simpa using hi
      dsimp only
      rw [← Nat.add_assoc, Memory.read_writeN_inside _ _ _ _ hs.1 hlen, List.getD_eq_getElem _ _ hlen, List.getElem_map, List.getElem_range]

theorem byteAt_rekey_other (s : State) (key sl o k : Nat) {sl' o' : Nat} (h : (sl' * sliceBytes + o') / 128 ≠ (sl * sliceBytes + o) / 128) :
    (s.rekey key sl o).byteAt k (.dram sl' o') = s.byteAt k (.dram sl' o') := by
  have hkey : (s.keys.put ((sl * sliceBytes + o) / 128) key).at? ((sl' * sliceBytes + o') / 128) = s.keys.at? ((sl' * sliceBytes + o') / 128) :=
    Table.at?_put_other _ _ h
  have hw (m : Memory) : ({ s with dram := m, keys := s.keys.put ((sl * sliceBytes + o) / 128) key } : State).writtenKey sl' o' =
      s.writtenKey sl' o' := by
    simp only [State.writtenKey, hkey]
  rw [rekey_eq]
  split
  · rfl
  · split
    · exact plain_congr (hw s.dram) (fun _ _ => rfl) k
    · refine plain_congr (hw _) (fun a ha => Memory.read_writeN_outside _ _ _ _ ?_) k
      simp only [List.length_map, List.length_range]
      rw [← ha, line_eq] at h
      simp only [sliceBytes] at *
      omega

/-- What a scrub leaves of a line: one that its home does not track is brought under the glade's key. -/
def scrubbed (s : State) (k sl o : Nat) : State :=
  if ((Place.dram sl o).lineKey.bind fun key => s.lines.at? key).isSome then s else s.rekey (s.gladeAt k).key sl o

theorem gladeAt_scrubbed (s : State) (k sl o : Nat) : (scrubbed s k sl o).gladeAt k = s.gladeAt k := by
  unfold scrubbed
  split
  · rfl
  · exact (congrArg (fun t : State => t.gladeAt k) (rekey_rest s (s.gladeAt k).key sl o) :)

theorem scrubbed_of_tracked {s : State} {sl o : Nat} (k : Nat) (h : ∃ n x, (Place.dram sl o).lineKey = some n ∧ s.lines.at? n = some x) :
    scrubbed s k sl o = s := by
  obtain ⟨n, x, hn, hx⟩ := h
  exact if_pos (by rw [hn, Option.bind_some, hx]; rfl)

theorem scrubbed_of_untracked {s : State} {sl o : Nat} (k : Nat) (h : ∀ n, (Place.dram sl o).lineKey = some n → s.lines.at? n = none) :
    scrubbed s k sl o = s.rekey (s.gladeAt k).key sl o := by
  refine if_neg ?_
  rw [Place.lineKey, Option.bind_some, h _ rfl]
  decide

theorem scrubbing_eq {s : State} {sl k o : Nat} (outcome : Nat) (hg : s.gladeOfSlice sl = some k) (ho : o < sliceBytes) :
    let u := scrubbed s k sl (o / 128 * 128)
    let addr : Scalar := BitVec.ofNat 64 (physOf k (s.gladeAt k).len (s.gladeAt k).shareB sl (o / 128 * 128))
    exec (.scrubbing sl o outcome) s = .next (if outcome = 1 then u.report k 0 3 addr
      else if outcome = 2 then (u.setPoison (.dram sl (o / 128 * 128))).report k 2 3 addr else u) := by
  have hexec : exec (.scrubbing sl o outcome) s = execScrubbing sl o outcome s := rfl
  have hdef : scrubbed s k sl (o / 128 * 128) = if ((Place.dram sl (o / 128 * 128)).lineKey.bind fun key => s.lines.at? key).isSome then s
    else s.rekey (s.gladeAt k).key sl (o / 128 * 128) := rfl
  simp only [hexec, execScrubbing, hg, Nat.mod_eq_of_lt ho, ← hdef, gladeAt_scrubbed]

/-! ## Commands of the physical function (R329) -/

section
variable {s : State} {port code : Nat} (arg0 : BitVec 32) (f : State → Done) (hp : s.boot.powered = true) (hport : port < 4)
include hp hport

theorem pfCommand_runs (h : s.isReady = true ∨ code = 0x13) : s.pfCommand port code arg0 f = portReplied (f s).1 port code arg0 (f s).2 := by
  have hon : (!s.boot.powered || decide (4 ≤ port)) = false := by simp [hp, hport]
  have hruns : (s.isReady || decide (code = 0x13)) = true := by simpa using h
  rw [State.pfCommand, hon, if_neg Bool.false_ne_true, if_pos hruns]
  rfl

theorem pfCommand_not_ready (h : s.isReady = false) (hc : code ≠ 0x13) : s.pfCommand port code arg0 f = portReplied s port code arg0 0x02 := by
  have hon : (!s.boot.powered || decide (4 ≤ port)) = false := by simp [hp, hport]
  have hruns : ¬ (s.isReady || decide (code = 0x13)) = true := by simp [h, hc]
  rw [State.pfCommand, hon, if_neg Bool.false_ne_true, if_neg hruns]
  rfl

end

/-! ## Starts (R369) -/

section
variable (s : State)

/-- What a start scrubs of protected contexts is in the memories of the package. -/
theorem scrubProtected_rest :
    { s.scrubProtected with dram := s.dram, keys := s.keys, zeroed := s.zeroed, vaultMem := s.vaultMem, poison := s.poison } = s := by
  refine List.foldlRecOn (motive := fun t : State =>
    { t with dram := s.dram, keys := s.keys, zeroed := s.zeroed, vaultMem := s.vaultMem, poison := s.poison } = s) _ _ rfl fun t h e _ => ?_
  split <;> exact h

theorem boot_restoreLine (port addr : Nat) (x : Line) : (s.restoreLine port addr x).boot = s.boot :=
  List.foldlRecOn (motive := fun t : State => t.boot = s.boot) _ _ rfl fun _ h _ _ => h

theorem boot_dropLines : s.dropLines.boot = s.boot := by
  refine List.foldlRecOn (motive := fun t : State => t.boot = s.boot) _ _ rfl fun t h e _ => ?_
  split
  · exact (boot_restoreLine t _ _ _).trans h
  · exact h

theorem boot_emptied : s.emptied.boot = s.boot := boot_dropLines s

theorem boot_beginStart (cold : Bool) : (s.beginStart cold).boot =
    { s.boot with state := .starting, cold := cold || !s.boot.trained, lowered := 0, throttleAt := none, hotAt := none } := by
  have h : s.scrubProtected.emptied.boot = s.boot := (boot_emptied _).trans (congrArg State.boot (scrubProtected_rest s) :)
  rw [State.beginStart]
  dsimp only
  rw [h]

theorem hostMem_beginStart (cold : Bool) (h : ∀ x ∈ s.lines, x.2.dirty = false) : (s.beginStart cold).hostMem = s.hostMem := by
  have hl : s.scrubProtected.lines = s.lines := (congrArg State.lines (scrubProtected_rest s) :)
  have hm : s.scrubProtected.hostMem = s.hostMem := (congrArg State.hostMem (scrubProtected_rest s) :)
  exact (hostMem_dropLines (by rwa [hl])).trans hm

end

/-- All that a start clears. -/
theorem start_of {i : Instr} {arg : BitVec 32} {s : State} {port : Nat} {cold : Bool}
    (hi : exec i s = .next (portReplied (s.beginStart cold) port 0x13 arg 0x01))
    (hs : exec (.sidebandStartRequest cold) s = .next (s.beginStart cold)) :
    ∃ t, exec i s = .next (portReplied t port 0x13 arg 0x01) ∧ t.boot.state = .starting ∧
      t.boot.cold = (cold || !s.boot.trained) ∧ t.contexts = [] ∧ t.glades = [] ∧ t.groups = [] ∧ t.launches = [] ∧ t.lines = [] ∧
      t.loads = [] ∧ t.entries = [] ∧ t.atoms = [] ∧ t.slotWrites = [] ∧ t.prefetches = [] ∧ t.asks = [] ∧
      t.conflicts = [] ∧ t.flights = [] ∧ t.channels = [] ∧ t.ctxKeys = [] ∧ t.epoch = 0 ∧
      t.boot.overs = s.boot.overs ∧ t.boot.lowered = 0 ∧ t.boot.throttleAt = none ∧ t.boot.hotAt = none ∧
      ((∀ x ∈ s.lines, x.2.dirty = false) → t.hostMem = s.hostMem) ∧
      exec (.sidebandStartRequest cold) s = .next t := by
  have hb := boot_beginStart s cold
  exact ⟨s.beginStart cold, hi, by rw [hb], by rw [hb], rfl, rfl, rfl, rfl, rfl, rfl, rfl, rfl, rfl, rfl, rfl, rfl, rfl, rfl, rfl, rfl,
    by rw [hb], by rw [hb], by rw [hb], by rw [hb], hostMem_beginStart s cold, hs⟩

theorem requestStart_begins {s : State} (h : s.boot.state = .ready ∨ s.boot.state = .off) (cold : Bool) :
    s.requestStart cold = (s.beginStart cold, 0x01) := by
  rcases h with h | h <;> rw [State.requestStart, h]

theorem requestStart_starting {s : State} (h : s.boot.state = .starting) (cold : Bool) : s.requestStart cold = (s, 0x02) := by
  rw [State.requestStart, h]

section
variable {s : State} {port : Nat} (hp : s.boot.powered = true) (hport : port < 4)
include hp

theorem sidebandStartRequest_eq (cold : Bool) : exec (.sidebandStartRequest cold) s = .next (s.requestStart cold).1 := by
  show execSidebandStartRequest cold s = _
  rw [execSidebandStartRequest, if_pos hp]

include hport

theorem startCold_eq : exec (.startCold port 1) s = .next (portReplied (s.requestStart true).1 port 0x13 1 (s.requestStart true).2) := by
  show execStartCold port 1 s = _
  rw [execStartCold, pfCommand_runs _ _ hp hport (.inr rfl)]
  rfl

theorem startWarm_eq : exec (.startWarm port 0) s = .next (portReplied (s.requestStart false).1 port 0x13 0 (s.requestStart false).2) := by
  show execStartWarm port 0 s = _
  rw [execStartWarm, pfCommand_runs _ _ hp hport (.inr rfl)]
  rfl

end

/-! ## The completion of a start (R369) -/

theorem startCompletion_completes {s : State} (h : s.boot.state = .starting) (hg : s.imageGood = true) (cause : Nat) :
    exec (.startCompletion true cause) s = .next s.startCompletes := by
  show execStartCompletion true cause s = _
  rw [execStartCompletion, if_neg (not_not_intro h), if_neg (by rw [hg]; decide), if_pos rfl]

theorem startCompletion_fails {s : State} (h : s.boot.state = .starting) (hg : s.imageGood = false) (ok : Bool) (cause : Nat) :
    exec (.startCompletion ok cause) s = .next (s.startFails 2) := by
  show execStartCompletion ok cause s = _
  rw [execStartCompletion, if_neg (not_not_intro h), if_pos (by rw [hg]; rfl)]

/-- The package that a start completes, before it knows of the parts that are over their limits. -/
def started (s : State) : State :=
  let s : State := if s.boot.cold then
      { s with dram := [], keys := [], zeroed := [], vaultMem := [], poison := s.poison.filter fun e => hostSector e.1 }
    else s
  { s with time := 0, boot := { s.boot with state := .ready, fails := 0, trained := true } }

theorem startCompletes_eq (s : State) : s.startCompletes = if s.boot.overs = [] then started s else (started s).lowerSteps.noteHot := by
  have ho : (started s).boot.overs = s.boot.overs := by
    unfold started
    split <;> rfl
  rw [← ho]
  rfl

theorem boot_started (s : State) : (started s).boot = { s.boot with state := .ready, fails := 0, trained := true } := by
  unfold started
  split <;> rfl

theorem hostMem_started (s : State) : (started s).hostMem = s.hostMem := by
  unfold started
  split <;> rfl

theorem started_of_cold {s : State} (h : s.boot.cold = true) : (started s).dram = [] ∧ (started s).vaultMem = [] ∧
    (started s).poison = s.poison.filter fun e => hostSector e.1 := by
  unfold started
  rw [if_pos h]
  exact ⟨rfl, rfl, rfl⟩

/-- What a completed start leaves, but for the throttling. -/
theorem startCompletes_rest (s : State) : s.startCompletes = { started s with boot := s.startCompletes.boot } := by
  rw [startCompletes_eq]
  split <;> rfl

theorem startCompletes_boot (s : State) :
    s.startCompletes.boot.state = .ready ∧ s.startCompletes.boot.fails = 0 ∧ s.startCompletes.boot.trained = true ∧
    (s.boot.overs = [] → s.startCompletes.boot.lowered = s.boot.lowered ∧ s.startCompletes.boot.throttleAt = s.boot.throttleAt) ∧
    (s.boot.overs ≠ [] → s.startCompletes.boot.lowered = min 16 (s.boot.lowered + 1) ∧ s.startCompletes.boot.throttleAt = some 0) := by
  have hb := boot_started s
  have ht : (started s).time = 0 := rfl
  rw [startCompletes_eq]
  split
  · next ho =>
    rw [hb]
    exact ⟨rfl, rfl, rfl, fun _ => ⟨rfl, rfl⟩, fun hne => absurd ho hne⟩
  · next ho =>
    simp only [State.noteHot, State.lowerSteps, hb, ht]
    exact ⟨trivial, trivial, trivial, fun h => absurd h ho, fun _ => ⟨trivial, trivial⟩⟩

/-- The marks of a place after marks were kept by sector. -/
theorem badByte_of_filter {s t : State} {q : Nat → Bool} (h : t.poison = s.poison.filter fun e => q e.1) (p : Place) :
    t.badByte p = (q p.sectorKey && s.badByte p) := by
  rw [State.badByte, h, at?_filter s.poison (q := q) fun _ => rfl, State.badByte]
  cases q p.sectorKey with
  | true => rfl
  | false => simp

theorem hostSector_dram {sl o : Nat} (hs : sl < 12) (ho : o < sliceBytes) : hostSector (Place.dram sl o).sectorKey = false := by
  have : (Place.dram sl o).sectorKey < 2 ^ 64 := by
    simp only [Place.sectorKey, sliceBytes] at *
    omega
  rw [hostSector, decide_eq_false (by omega), Bool.false_and]

theorem hostSector_host {q a : Nat} (h : Nat) (hq : q < 4) (ha : a < 2 ^ 56) : hostSector (Place.host q h a).sectorKey = true := by
  have : 2 ^ 64 ≤ (Place.host q h a).sectorKey ∧ (Place.host q h a).sectorKey < 2 ^ 64 * 5 := by
    simp only [Place.sectorKey]
    omega
  rw [hostSector, decide_eq_true this.1, decide_eq_true this.2, Bool.true_and]

theorem startCompletes_marks {s : State} (h : s.boot.cold = true) :
    (∀ sl o, sl < 12 → o < sliceBytes → s.startCompletes.badByte (.dram sl o) = false) ∧
    ∀ q h a, q < 4 → a < 2 ^ 56 → s.startCompletes.badByte (.host q h a) = s.badByte (.host q h a) := by
  have hp : s.startCompletes.poison = s.poison.filter fun e => hostSector e.1 := by
    rw [startCompletes_rest]
    exact (started_of_cold h).2.2
  constructor
  · intro sl o hs ho
    rw [badByte_of_filter hp, hostSector_dram hs ho, Bool.false_and]
  · intro q k a hq ha
    rw [badByte_of_filter hp, hostSector_host k hq ha, Bool.true_and]

theorem startCompletion_spec {s : State} (h : s.boot.state = .starting) (hg : s.imageGood = true) (cause : Nat) :
    ∃ t, exec (.startCompletion true cause) s = .next t ∧ t.boot.state = .ready ∧ t.boot.fails = 0 ∧
      t.boot.trained = true ∧ t.time = 0 ∧ t.hostMem = s.hostMem ∧
      (s.boot.overs = [] → t.boot.lowered = s.boot.lowered ∧ t.boot.throttleAt = s.boot.throttleAt) ∧
      (s.boot.overs ≠ [] → t.boot.lowered = min 16 (s.boot.lowered + 1) ∧ t.boot.throttleAt = some 0) ∧
      (s.boot.cold = true → t.dram = [] ∧ t.vaultMem = [] ∧
        (∀ sl o, sl < 12 → o < sliceBytes → t.badByte (.dram sl o) = false) ∧
        ∀ q h a, q < 4 → a < 2 ^ 56 → t.badByte (.host q h a) = s.badByte (.host q h a)) := by
  obtain ⟨hstate, hfails, htrained, hnone, hsome⟩ := startCompletes_boot s
  have hrest := startCompletes_rest s
  refine ⟨s.startCompletes, startCompletion_completes h hg cause, hstate, hfails, htrained, ?_, ?_, hnone, hsome,
    fun hc => ⟨?_, ?_, startCompletes_marks hc⟩⟩
  · rw [hrest]
    rfl
  · rw [hrest]
    exact hostMem_started s
  · rw [hrest]
    exact (started_of_cold hc).1
  · rw [hrest]
    exact (started_of_cold hc).2.1

theorem startFailure_spec {s : State} (h : s.boot.state = .starting) (hg : s.imageGood = false) (ok : Bool) (cause : Nat) :
    ∃ t, exec (.startCompletion ok cause) s = .next t ∧ t.boot.lastfail = 2 ∧
      t.boot.fails = min 3 (s.boot.fails + 1) ∧ t.boot.state = (if s.boot.fails < 2 then .off else .recovery) ∧ SameMemory s t :=
  ⟨s.startFails 2, startCompletion_fails h hg ok cause, rfl, rfl, if_congr Nat.succ_lt_succ_iff rfl rfl, rfl, rfl, rfl, rfl⟩

/-! ## Glades (R330, R338) -/

section
variable {s : State} {port : Nat} (arg0 : BitVec 32) (hr : s.isReady = true) (hport : port < 4)

theorem powered_of_ready (hr : s.isReady = true) : s.boot.powered = true := by
  rw [State.isReady, Bool.and_eq_true] at hr
  exact hr.1

include hr hport

theorem gcreate_eq : exec (.gcreate port arg0) s = .next (portReplied (s.gcreateCmd port arg0).1 port 0x10 arg0 (s.gcreateCmd port arg0).2) := by
  show execGcreate port arg0 s = _
  rw [execGcreate, pfCommand_runs _ _ (powered_of_ready hr) hport (.inl hr)]

theorem gcreate_spec (hl : legalGlade (arg0.toNat % 256) = true) (hfree : ∀ e ∈ s.glades,
      arg0.toNat % 256 % 16 + lengthOf (arg0.toNat % 256 / 16) ≤ e.1 ∨ e.1 + e.2.len ≤ arg0.toNat % 256 % 16) :
    ∃ t g, exec (.gcreate port arg0) s = .next (portReplied t port 0x10 arg0 0x01) ∧ t.glades.at? (arg0.toNat % 256 % 16) = some g ∧
      g.len = lengthOf (arg0.toNat % 256 / 16) ∧ g.admin = port ∧ g.shareB = 48 ∧ g.slicems = 10 ∧ g.errlog = [] ∧ g.ports = 0 ∧
      g.engines = 0 ∧ (∀ k, k ≠ arg0.toNat % 256 % 16 → t.glades.at? k = s.glades.at? k) ∧ SameMemory s t := by
  have hnone : (s.glades.any fun e => decide (e.1 < arg0.toNat % 256 % 16 + lengthOf (arg0.toNat % 256 / 16)) &&
      decide (arg0.toNat % 256 % 16 < e.1 + e.2.len)) = false := by
    refine List.any_eq_false.2 fun e he => ?_
    rw [Bool.and_eq_true, decide_eq_true_eq, decide_eq_true_eq]
    have := hfree e he
    omega
  rw [gcreate_eq arg0 hr hport, State.gcreateCmd]
  dsimp only
  rw [if_neg (by rw [hl]; decide), if_neg (by rw [hnone]; decide)]
  exact ⟨_, _, rfl, Table.at?_put_same .., rfl, rfl, rfl, rfl, rfl, rfl, rfl, fun k hk => Table.at?_put_other _ _ hk, rfl, rfl, rfl, rfl⟩

theorem gcreate_illegal (hl : legalGlade (arg0.toNat % 256) = false) : exec (.gcreate port arg0) s = .next (portReplied s port 0x10 arg0 0x07) := by
  rw [gcreate_eq arg0 hr hport, State.gcreateCmd]
  dsimp only
  rw [if_pos (by rw [hl]; rfl)]

end

theorem gcreate_not_ready {s : State} {port : Nat} (arg0 : BitVec 32) (hp : s.boot.powered = true) (h : s.isReady = false) (hport : port < 4) :
    exec (.gcreate port arg0) s = .next (portReplied s port 0x10 arg0 0x02) := by
  show execGcreate port arg0 s = _
  rw [execGcreate, pfCommand_not_ready _ _ hp hport h (by decide)]

section
variable {s : State} {port k : Nat} (arg0 : BitVec 32) (hr : s.isReady = true) (hport : port < 4)
  (hk : s.gladeNamed (arg0.toNat % 256) = some k) (ha : (s.gladeAt k).admin = port)
include hr hport hk ha

theorem gdestroy_eq : exec (.gdestroy port arg0) s =
    .next (portReplied (s.gdestroyCmd k (s.gladeAt k)).1 port 0x11 arg0 (s.gdestroyCmd k (s.gladeAt k)).2) := by
  show execGdestroy port arg0 s = _
  rw [execGdestroy, pfCommand_runs _ _ (powered_of_ready hr) hport (.inl hr), State.asAdmin, hk]
  dsimp only
  rw [if_pos ha]

theorem gdestroy_refused (hc : s.contextsOf k ≠ []) : exec (.gdestroy port arg0) s = .next (portReplied s port 0x11 arg0 0x02) := by
  rw [gdestroy_eq arg0 hr hport hk ha, State.gdestroyCmd, if_pos hc]

theorem gset_eq : exec (.gset port arg0) s =
    .next (portReplied (s.gsetCmd k (s.gladeAt k) (gladeArgs ((s.portAt port).args.readN 0 0x268))).1 port 0x12 arg0
      (s.gsetCmd k (s.gladeAt k) (gladeArgs ((s.portAt port).args.readN 0 0x268))).2) := by
  show execGset port arg0 s = _
  rw [execGset, pfCommand_runs _ _ (powered_of_ready hr) hport (.inl hr), State.asAdmin, hk]
  dsimp only
  rw [if_pos ha]

end

/-! ## GSET -/

/-- The table of actions whose first byte is that of class and source `n`: it lists what is not the default of its class. -/
def errsevFrom : List Nat → Nat → Table Nat
  | [], _ => []
  | b :: bs, n => if b = defaultAction (n / 8) then errsevFrom bs (n + 1) else (n, b) :: errsevFrom bs (n + 1)

theorem errsevTable_eq (l : List Nat) : errsevTable l = errsevFrom l 0 := by
  have from_ (l : List Nat) : ∀ n,
      ((l.zipIdx n).filter fun (b, k) => decide (b ≠ defaultAction (k / 8))).map (fun (b, k) => (k, b)) = errsevFrom l n := by
    induction l with
    | nil => exact fun _ => rfl
    | cons b bs ih =>
      intro n
      by_cases h : b = defaultAction (n / 8)
      · simpa [List.zipIdx_cons, errsevFrom, h] using ih (n + 1)
      · simpa [List.zipIdx_cons, errsevFrom, h] using ih (n + 1)
  exact from_ l 0

theorem at?_errsevFrom_below (l : List Nat) : ∀ {n k : Nat}, k < n → (errsevFrom l n).at? k = none := by
  induction l with
  | nil => exact fun _ => rfl
  | cons b bs ih =>
    intro n k h
    rw [errsevFrom]
    split
    · exact ih (by omega)
    · rw [Table.at?, if_neg (by omega), ih (by omega)]

theorem at?_errsevFrom (l : List Nat) : ∀ n k : Nat,
    ((errsevFrom l n).at? (n + k)).getD (defaultAction ((n + k) / 8)) = l.getD k (defaultAction ((n + k) / 8)) := by
  induction l with
  | nil => exact fun _ _ => rfl
  | cons b bs ih =>
    intro n k
    rw [errsevFrom]
    cases k with
    | zero =>
      simp only [Nat.add_zero, List.getD_cons_zero]
      split
      · next h => rw [at?_errsevFrom_below bs (Nat.lt_add_one n), Option.getD_none, h]
      · rw [Table.at?, if_pos rfl, Option.getD_some]
    | succ k =>
      rw [List.getD_cons_succ, show n + (k + 1) = n + 1 + k by omega, ← ih (n + 1) k]
      split
      · rfl
      · rw [Table.at?, if_neg (by omega)]

theorem action_errsevTable {g : Glade} {l : List Nat} (h : g.errsev = errsevTable l) {cls src : Nat} (hs : src < 8)
    (hl : 8 * cls + src < l.length) : g.action cls src = l.getD (8 * cls + src) 0 := by
  have hcls : (0 + (8 * cls + src)) / 8 = cls := by omega
  have hat := at?_errsevFrom l 0 (8 * cls + src)
  rw [hcls, Nat.zero_add] at hat
  rw [Glade.action, h, Nat.mul_comm cls 8, errsevTable_eq, hat, List.getD_eq_getElem _ _ hl, List.getD_eq_getElem _ _ hl]

section
variable {s : State} {port k : Nat} (arg0 : BitVec 32) (hr : s.isReady = true) (hport : port < 4)
  (hk : s.gladeNamed (arg0.toNat % 256) = some k) (ha : (s.gladeAt k).admin = port)
include hr hport hk ha

theorem gset_spec : let a := gladeArgs ((s.portAt port).args.readN 0 0x268)
    (s.gsetBad k (s.gladeAt k) a = false →
      ∃ g, exec (.gset port arg0) s = .next (portReplied (s.setGlade k g) port 0x12 arg0 0x01) ∧ g.engines = a.engines ∧
        g.ports = BitVec.ofNat 4 a.ports ∧ g.shareB = a.shareB ∧ g.slicems = a.slicems ∧ g.links = a.links ∧ g.exports = a.exports ∧
        g.len = (s.gladeAt k).len ∧ g.admin = port ∧ g.key = (s.gladeAt k).key ∧
        ∀ cls src, cls < 16 → src < 8 → g.action cls src = a.errsev.getD (8 * cls + src) 0) ∧
    (s.gsetBad k (s.gladeAt k) a = true → exec (.gset port arg0) s = .next (portReplied s port 0x12 arg0 0x07)) := by
  intro a
  have hlen : a.errsev.length = 128 := by simp only [a, gladeArgs, List.length_map, List.length_range]
  have hexec : exec (.gset port arg0) s = .next (portReplied (s.gsetCmd k (s.gladeAt k) a).1 port 0x12 arg0 (s.gsetCmd k (s.gladeAt k) a).2) :=
    gset_eq arg0 hr hport hk ha
  clear_value a
  rw [hexec]
  constructor
  · intro h
    rw [State.gsetCmd, if_neg (by rw [h]; decide)]
    exact ⟨_, rfl, rfl, rfl, rfl, rfl, rfl, rfl, rfl, ha, rfl, fun cls src hc hs => action_errsevTable rfl hs (by omega)⟩
  · intro h
    rw [State.gsetCmd, if_pos h]

end

/-! ## A glade wiped -/

theorem read_clear (m : Memory) (p : Nat → Bool) (a : Nat) : (m.clear p).read a = if p a = true then 0 else m.read a := by
  induction m with
  | nil => split <;> rfl
  | cons e m ih =>
    obtain ⟨i, b⟩ := e
    simp only [Memory.clear, List.filter_cons] at *
    by_cases hi : i = a
    · subst hi
      cases hp : p i with
      | true => simpa [hp] using ih
      | false => simp [Memory.read]
    · cases hp : p i with
      | true => simpa [Memory.read, hi, hp] using ih
      | false => simpa [Memory.read, hi, hp] using ih

theorem physOf_lt {first n b sl off : Nat} (h1 : first ≤ sl) (h2 : sl < first + n) (ho : off < sliceBytes) :
    physOf first n b sl off < n * sliceBytes := by
  obtain ⟨d, rfl⟩ := Nat.exists_eq_add_of_le h1
  have hd : d + 1 ≤ n := by omega
  rw [physOf, Nat.add_sub_cancel_left]
  split
  · have hq : off / 4096 + 1 ≤ sliceBytes / 4096 := by simp only [sliceBytes] at *; omega
    calc (off / 4096 * n + d) * 4096 + off % 4096 < (off / 4096 * n + d + 1) * 4096 := by omega
      _ ≤ (off / 4096 * n + n) * 4096 := by omega
      _ = n * ((off / 4096 + 1) * 4096) := by ring
      _ ≤ n * (sliceBytes / 4096 * 4096) := Nat.mul_le_mul_left _ (Nat.mul_le_mul_right _ hq)
      _ = n * sliceBytes := by norm_num [sliceBytes]
  · next hb =>
    obtain ⟨c, hc⟩ : ∃ c, 48 = b + c := Nat.exists_eq_add_of_le (by simp only [sliceBytes] at *; omega)
    have hs : sliceBytes = b * 2 ^ 30 + c * 2 ^ 30 := by rw [← Nat.add_mul, ← hc]; rfl
    rw [show 48 - b = c by omega]
    calc n * b * 2 ^ 30 + d * (c * 2 ^ 30) + (off - b * 2 ^ 30) < n * b * 2 ^ 30 + d * (c * 2 ^ 30) + c * 2 ^ 30 := by omega
      _ = n * (b * 2 ^ 30) + (d + 1) * (c * 2 ^ 30) := by ring
      _ ≤ n * (b * 2 ^ 30) + n * (c * 2 ^ 30) := Nat.add_le_add_left (Nat.mul_le_mul_right _ hd) _
      _ = n * sliceBytes := by rw [hs]; ring

theorem zeroingAll_holds {s : State} {g sl off : Nat} (key : Nat) (h1 : g ≤ sl) (h2 : sl < g + (s.gladeAt g).len) (ho : off < sliceBytes) :
    (s.zeroingAll g key).holds sl off = true := by
  have hp : physOf g (s.gladeAt g).len (s.gladeAt g).shareB sl off < 0 + gladeBytes (s.gladeAt g).len := by
    rw [Nat.zero_add]
    exact physOf_lt h1 h2 ho
  simp only [Zeroing.holds, inFrames, State.zeroingAll, List.any_cons, List.any_nil, h1, h2, hp, Nat.zero_le, decide_true, Bool.and_self,
    Bool.or_false]

section
variable {s : State} {g sl o : Nat} (key : Nat) (h1 : g ≤ sl) (h2 : sl < g + (s.gladeAt g).len) (ho : o < sliceBytes)
include h1 h2 ho

theorem read_wipeGlade : (s.wipeGlade g key).dram.read (sl * sliceBytes + o) = 0 := by
  have hsl : (sl * sliceBytes + o) / sliceBytes = sl := by simp only [sliceBytes] at *; omega
  have hof : (sl * sliceBytes + o) % sliceBytes = o := by simp only [sliceBytes] at *; omega
  show (s.dram.clear fun a => (s.zeroingAll g key).holds (a / sliceBytes) (a % sliceBytes)).read (sl * sliceBytes + o) = 0
  rw [read_clear, hsl, hof, zeroingAll_holds key h1 h2 ho, if_pos rfl]

theorem writtenKey_wipeGlade : (s.wipeGlade g key).writtenKey sl o = key := by
  have ho' : o / 128 * 128 < sliceBytes := by omega
  have hsl : (sl * sliceBytes + o) / 128 * 128 / sliceBytes = sl := by simp only [sliceBytes] at *; omega
  have hof : (sl * sliceBytes + o) / 128 * 128 % sliceBytes = o / 128 * 128 := by simp only [sliceBytes] at *; omega
  have hz := zeroingAll_holds key h1 h2 ho'
  have hkeys : (s.wipeGlade g key).keys.at? ((sl * sliceBytes + o) / 128) = none := by
    show Table.at? (s.keys.filter fun e => !(s.zeroingAll g key).holds (e.1 * 128 / sliceBytes) (e.1 * 128 % sliceBytes)) _ = none
    rw [at?_filter s.keys (q := fun n => !(s.zeroingAll g key).holds (n * 128 / sliceBytes) (n * 128 % sliceBytes)) fun _ => rfl, hsl, hof, hz]
    rfl
  have hzeroed : (s.wipeGlade g key).zeroed = s.zeroingAll g key :: s.zeroed := rfl
  rw [State.writtenKey, hkeys, hzeroed, List.find?_cons_of_pos (p := fun z : Zeroing => z.holds sl (o / 128 * 128)) hz]
  rfl

theorem byteAt_wipeGlade : (s.wipeGlade g key).byteAt key (.dram sl o) = 0 := by
  rw [State.byteAt, plain_of_same_key (writtenKey_wipeGlade key h1 h2 ho), read_wipeGlade key h1 h2 ho]

end

theorem gdestroy_spec {s : State} {port k : Nat} (arg0 : BitVec 32) (hr : s.isReady = true) (hport : port < 4)
    (hk : s.gladeNamed (arg0.toNat % 256) = some k) (ha : (s.gladeAt k).admin = port) (hc : s.contextsOf k = []) :
    ∃ t, exec (.gdestroy port arg0) s = .next (portReplied t port 0x11 arg0 0x01) ∧ t.glades.at? k = none ∧
      (∀ j, j ≠ k → t.glades.at? j = s.glades.at? j) ∧
      ∀ sl o, k ≤ sl → sl < k + (s.gladeAt k).len → o < sliceBytes →
        t.dram.read (sl * sliceBytes + o) = 0 ∧ t.byteAt (s.gladeAt k).key (.dram sl o) = 0 := by
  rw [gdestroy_eq arg0 hr hport hk ha, State.gdestroyCmd, if_neg (not_not_intro hc)]
  refine ⟨_, rfl, at?_drop_same .., fun j hj => at?_drop_other _ hj, fun sl o h1 h2 ho => ⟨?_, ?_⟩⟩
  · exact read_wipeGlade (s := { s with channels := _ }) _ h1 h2 ho
  · exact byteAt_wipeGlade (s := { s with channels := _ }) _ h1 h2 ho

/-! ## The destruction of a context: what it leaves alone (R354) -/

/-- A state reached from `s` that holds the contexts `cs` and the groups `gs`; host memory, the package's own registers and the glades
are as in `s`. -/
structure Reached (s : State) (cs : Table Context) (gs : Table Group) (t : State) : Prop where
  contexts : t.contexts = cs
  groups : t.groups = gs
  boot : t.boot = s.boot
  hostMem : t.hostMem = s.hostMem
  draws : t.draws = s.draws
  glades : t.glades = s.glades

section
variable {s u : State} {ctx : Nat} {cs : Table Context} {gs : Table Group}
variable {agenda : List Agendum} {cur : Option Issue} {time epoch nextId doneTime : Nat} {keys vaultLast poison ctxKeys : Table Nat}
  {dram vaultMem : Memory} {zeroed : List Zeroing} {lines : Table Line} {asks : List Ask} {conflicts : List (Nat × Nat)} {cuts : List Cut}
  {groves : Table Grove} {launches : Table Launch} {graphs : Table Graph} {loads : List Load} {entries : List Entry}
  {locals : List LocalStore} {atoms : List Atomic} {contribs : List Contribution} {slotWrites : List SlotWrite} {prefetches : List Prefetch}
  {flights : List Flight} {cores : Table Core} {slices : Table Slice} {channels : Table Channel}
  {vfs : Table Vf} {pages : Table CtxPage} {ports : Table Port} {links : Table Link}

/-- A state that differs in other fields. -/
theorem reached_same (h : Reached s cs gs u) :
    Reached s cs gs ⟨agenda, cur, time, epoch, nextId, u.draws, u.boot, dram, keys, zeroed, u.hostMem, vaultMem, vaultLast, lines, poison, asks,
      conflicts, cuts, doneTime, u.groups, groves, launches, graphs, loads, entries, locals, atoms, contribs, slotWrites, prefetches, flights,
      cores, slices, channels, u.contexts, ctxKeys, u.glades, vfs, pages, ports, links⟩ :=
  ⟨h.contexts, h.groups, h.boot, h.hostMem, h.draws, h.glades⟩

/-- A state that differs in other fields, and whose groups are filtered. -/
theorem reached_filterGroups (h : Reached s cs gs u) (p : Nat × Group → Bool) :
    Reached s cs (gs.filter p)
      ⟨agenda, cur, time, epoch, nextId, u.draws, u.boot, dram, keys, zeroed, u.hostMem, vaultMem, vaultLast, lines, poison, asks,
      conflicts, cuts, doneTime, u.groups.filter p,
      groves, launches, graphs, loads, entries, locals, atoms, contribs, slotWrites, prefetches, flights,
      cores, slices, channels, u.contexts, ctxKeys, u.glades, vfs, pages, ports, links⟩ :=
  ⟨h.contexts, congrArg (List.filter p) h.groups, h.boot, h.hostMem, h.draws, h.glades⟩

/-- A state that differs in other fields, and has lost a context. -/
theorem reached_dropContext (h : Reached s cs gs u) (ctx : Nat) :
    Reached s (cs.drop ctx) gs
      ⟨agenda, cur, time, epoch, nextId, u.draws, u.boot, dram, keys, zeroed, u.hostMem, vaultMem, vaultLast, lines, poison, asks,
      conflicts, cuts, doneTime, u.groups, groves, launches, graphs, loads, entries, locals, atoms, contribs, slotWrites, prefetches, flights,
      cores, slices, channels, u.contexts.drop ctx, ctxKeys, u.glades, vfs, pages, ports, links⟩ :=
  ⟨congrArg (Table.drop · ctx) h.contexts, h.groups, h.boot, h.hostMem, h.draws, h.glades⟩

theorem reached_endSlice (h : Reached s cs gs u) (ctx : Nat) : Reached s cs gs (u.endSlice ctx) := by
  unfold State.endSlice
  split
  · exact List.foldlRecOn (motive := Reached s cs gs) _ _ h fun _ h _ _ => reached_same (reached_same h)
  · exact h

theorem reached_untrackKey (h : Reached s cs gs u) (i k : Nat) : Reached s cs gs (u.untrackKey i k) := by
  unfold State.untrackKey
  split
  · exact h
  · exact reached_same h

theorem reached_dropHeld (h : Reached s cs gs u) (ctx : Nat) : Reached s cs gs (u.dropHeld ctx) :=
  List.foldlRecOn (motive := Reached s cs gs) _ _ h fun _ h _ _ =>
    List.foldlRecOn (motive := Reached s cs gs) _ _ h fun _ h _ _ => reached_untrackKey h _ _

/-- What a destruction is before its entry is logged: the context gone, with its groups. -/
theorem destroyOne_logs (s : State) (ctx : Nat) : ∃ (t : State) (k act : Nat), s.destroyOne ctx = t.logAct k act 11 7 ctx 0 ∧
    Reached s (s.contexts.drop ctx) (s.groups.filter fun e => decide (e.2.ctx ≠ ctx)) t := by
  have hbegin : Reached s s.contexts s.groups ((s.endSlice ctx).dropAccessesOf ctx) :=
    reached_same (reached_endSlice ⟨rfl, rfl, rfl, rfl, rfl, rfl⟩ ctx)
  exact ⟨_, _, _, rfl, reached_dropContext (reached_same (reached_same (reached_dropHeld
    (reached_same (reached_same (reached_filterGroups hbegin _))) ctx))) ctx⟩

end

theorem logAct_rest (s : State) (glade act cls src c : Nat) (addr : Scalar) :
    { s.logAct glade act cls src c addr with glades := s.glades } = s := by
  unfold State.logAct
  split <;> rfl

theorem glades_logAct (s : State) (glade act cls src c : Nat) (addr : Scalar) : (s.logAct glade act cls src c addr).glades = s.glades ∨
    ∃ e, (s.logAct glade act cls src c addr).glades = s.glades.alter glade fun g => g.write e := by
  unfold State.logAct
  split
  · exact .inl rfl
  · exact .inr ⟨_, rfl⟩

/-- Glades that may differ in their logs only. -/
def SameButLog (a b : Table Glade) : Prop :=
  ∀ k g, a.at? k = some g → ∃ h : Glade, b.at? k = some h ∧ { h with errlog := g.errlog, loghead := g.loghead } = g

theorem SameButLog.refl (a : Table Glade) : SameButLog a a := fun _ g h => ⟨g, h, rfl⟩

theorem SameButLog.trans {a b c : Table Glade} (h : SameButLog a b) (k : SameButLog b c) : SameButLog a c := by
  intro i g hg
  obtain ⟨g', hg', e⟩ := h i g hg
  obtain ⟨g'', hg'', e'⟩ := k i g' hg'
  exact ⟨g'', hg'', (congrArg (fun x : Glade => { x with errlog := g.errlog, loghead := g.loghead }) e' :).trans e⟩

theorem sameButLog_logAct (s : State) (glade act cls src c : Nat) (addr : Scalar) :
    SameButLog s.glades (s.logAct glade act cls src c addr).glades := by
  obtain h | ⟨e, h⟩ := glades_logAct s glade act cls src c addr <;> rw [h]
  · exact SameButLog.refl _
  · intro k g hg
    by_cases hk : k = glade
    · subst hk
      exact ⟨g.write e, (Table.at?_alter_same ..).trans (congrArg _ hg), rfl⟩
    · exact ⟨g, (Table.at?_alter_other _ _ hk).trans hg, rfl⟩

/-- Contexts are forgotten: they and their groups are gone, the logs of glades may have grown; host memory and the package's own registers
stand. -/
structure Forgotten (s : State) (ctxs : List Nat) (t : State) : Prop where
  contexts : t.contexts = s.contexts.filter fun e => decide (e.1 ∉ ctxs)
  groups : t.groups = s.groups.filter fun e => decide (e.2.ctx ∉ ctxs)
  boot : t.boot = s.boot
  hostMem : t.hostMem = s.hostMem
  draws : t.draws = s.draws
  glades : SameButLog s.glades t.glades

theorem forgotten_destroyOne (s : State) (ctx : Nat) : Forgotten s [ctx] (s.destroyOne ctx) := by
  obtain ⟨t, k, act, he, ht⟩ := destroyOne_logs s ctx
  have hrest := logAct_rest t k act 11 7 ctx 0
  have hlog := sameButLog_logAct t k act 11 7 ctx 0
  rw [he]
  generalize t.logAct k act 11 7 ctx 0 = u at hrest hlog ⊢
  have hc : u.contexts = s.contexts.drop ctx := (congrArg State.contexts hrest :).trans ht.contexts
  have hg : u.groups = s.groups.filter fun e => decide (e.2.ctx ≠ ctx) := (congrArg State.groups hrest :).trans ht.groups
  refine ⟨?_, ?_, (congrArg State.boot hrest :).trans ht.boot, (congrArg State.hostMem hrest :).trans ht.hostMem,
    (congrArg State.draws hrest :).trans ht.draws, ht.glades ▸ hlog⟩
  · simp only [hc, Table.drop, List.mem_singleton, ne_eq]
  · simp only [hg, List.mem_singleton, ne_eq]

theorem Forgotten.append {s t u : State} {l m : List Nat} (h : Forgotten s l t) (k : Forgotten t m u) : Forgotten s (l ++ m) u := by
  refine ⟨?_, ?_, k.boot.trans h.boot, k.hostMem.trans h.hostMem, k.draws.trans h.draws, h.glades.trans k.glades⟩
  · rw [k.contexts, h.contexts, List.filter_filter]
    simp only [List.mem_append, not_or, Bool.decide_and, Bool.and_comm]
  · rw [k.groups, h.groups, List.filter_filter]
    simp only [List.mem_append, not_or, Bool.decide_and, Bool.and_comm]

theorem forgotten_destroyAll (l : List Nat) : ∀ s : State, Forgotten s l (l.foldl State.destroyOne s) := by
  induction l with
  | nil =>
    exact fun s => ⟨(List.filter_eq_self.2 fun _ _ => by simp).symm,
      (List.filter_eq_self.2 fun _ _ => by simp).symm, rfl, rfl, rfl, SameButLog.refl _⟩
  | cons c l ih => exact fun s => (forgotten_destroyOne s c).append (ih _)

/-! ## The reset of a glade (R312) -/

/-- The glade's contexts are gone, and the channels of its engines reset. -/
def emptiedGlade (s : State) (k : Nat) : State :=
  let u := (s.contextsOf k).foldl State.destroyOne s
  { u with channels := u.channels.map (fun e : Nat × Channel => if (u.gladeAt k).engines.getLsbD (e.1 / 16) then (e.1, .reset) else e) }

theorem resetGlade_eq (s : State) (k : Nat) : s.resetGlade k = { (emptiedGlade s k).wipeGlade k ((emptiedGlade s k).draws + 1) with
    draws := (emptiedGlade s k).draws + 1
    glades := (emptiedGlade s k).glades.alter k fun x => { x with key := (emptiedGlade s k).draws + 1 } } := rfl

theorem forgotten_emptiedGlade (s : State) (k : Nat) : Forgotten s (s.contextsOf k) (emptiedGlade s k) := by
  obtain ⟨hc, hg, hb, hm, hd, hgl⟩ := forgotten_destroyAll (s.contextsOf k) s
  exact ⟨hc, hg, hb, hm, hd, hgl⟩

theorem at?_mapKey {α : Type} (t : Table α) (p : Nat → Bool) (v : α) (k : Nat) :
    Table.at? (t.map fun e => if p e.1 then (e.1, v) else e) k = if p k = true then (t.at? k).map fun _ => v else t.at? k := by
  induction t with
  | nil => split <;> rfl
  | cons e t ih =>
    obtain ⟨i, w⟩ := e
    rw [List.map_cons]
    by_cases hi : i = k
    · subst hi
      cases p i <;> simp [Table.at?]
    · cases hp : p i <;> simpa [Table.at?, hi, hp] using ih

theorem channelAt_emptiedGlade {s : State} {k c : Nat}
    (h : ((((s.contextsOf k).foldl State.destroyOne s).gladeAt k).engines.getLsbD (c / 16)) = true) :
    (emptiedGlade s k).channelAt c = Channel.reset := by
  have hat := at?_mapKey ((s.contextsOf k).foldl State.destroyOne s).channels
    (fun i => (((s.contextsOf k).foldl State.destroyOne s).gladeAt k).engines.getLsbD (i / 16)) Channel.reset c
  have hchannels : (emptiedGlade s k).channelAt c = (Table.at? (((s.contextsOf k).foldl State.destroyOne s).channels.map fun e =>
    if (((s.contextsOf k).foldl State.destroyOne s).gladeAt k).engines.getLsbD (e.1 / 16) then (e.1, Channel.reset) else e)
      c).getD Channel.reset := rfl
  rw [hchannels, hat, if_pos h]
  cases Table.at? ((s.contextsOf k).foldl State.destroyOne s).channels c <;> rfl

theorem dram_resetGlade (s : State) (k : Nat) :
    (s.resetGlade k).dram = ((emptiedGlade s k).wipeGlade k ((emptiedGlade s k).draws + 1)).dram := by
  rw [resetGlade_eq]

theorem channels_resetGlade (s : State) (k : Nat) : (s.resetGlade k).channels = (emptiedGlade s k).channels := by
  rw [resetGlade_eq]
  rfl

theorem contexts_resetGlade (s : State) (k : Nat) : (s.resetGlade k).contexts = (emptiedGlade s k).contexts := by
  rw [resetGlade_eq]
  rfl

theorem groups_resetGlade (s : State) (k : Nat) : (s.resetGlade k).groups = (emptiedGlade s k).groups := by
  rw [resetGlade_eq]
  rfl

theorem boot_resetGlade (s : State) (k : Nat) : (s.resetGlade k).boot = (emptiedGlade s k).boot := by
  rw [resetGlade_eq]
  rfl

theorem hostMem_resetGlade (s : State) (k : Nat) : (s.resetGlade k).hostMem = (emptiedGlade s k).hostMem := by
  rw [resetGlade_eq]
  rfl

theorem gladeAt_resetGlade {s : State} {k : Nat} {g : Glade} (h : (emptiedGlade s k).glades.at? k = some g) :
    (s.resetGlade k).gladeAt k = { g with key := (emptiedGlade s k).draws + 1 } := by
  rw [resetGlade_eq, State.gladeAt]
  dsimp only
  rw [Table.at?_alter_same, h, Option.map_some, Option.getD_some]

/-- A glade reset: its contexts are gone, its memory reads zero under a new key, the channels of its engines are reset. -/
theorem resetGlade_spec {s : State} {k : Nat} {g : Glade} (h : s.glades.at? k = some g) : let t := s.resetGlade k
    t.contextsOf k = [] ∧ (∀ c, c ∉ s.contextsOf k → t.contexts.at? c = s.contexts.at? c) ∧
    (∀ sl o, k ≤ sl → sl < k + g.len → o < sliceBytes → t.dram.read (sl * sliceBytes + o) = 0) ∧
    (∀ e, e < 32 → g.engines.getLsbD e = true → ∀ c, c < 16 → t.channelAt (16 * e + c) = Channel.reset) ∧
    t.hostMem = s.hostMem ∧ (t.gladeAt k).key = s.draws + 1 ∧
    { t.gladeAt k with errlog := g.errlog, loghead := g.loghead, key := g.key } = g := by
  have hall := forgotten_destroyAll (s.contextsOf k) s
  obtain ⟨hc, -, -, hm, hd, hgl⟩ := forgotten_emptiedGlade s k
  obtain ⟨g', hg', hsame⟩ := hgl k g h
  have hat : (emptiedGlade s k).gladeAt k = g' := by rw [State.gladeAt, hg', Option.getD_some]
  have hat' : ((s.contextsOf k).foldl State.destroyOne s).gladeAt k = g' := hat
  have hlen : g'.len = g.len := (congrArg Glade.len hsame :)
  have hengines : g'.engines = g.engines := (congrArg Glade.engines hsame :)
  have hglade := gladeAt_resetGlade hg'
  have hcontexts : (s.resetGlade k).contexts = s.contexts.filter fun e => decide (e.1 ∉ s.contextsOf k) :=
    (contexts_resetGlade s k).trans hc
  dsimp only
  refine ⟨?_, fun c hn => ?_, fun sl o h1 h2 ho => ?_, fun e _ he c hc => ?_, (hostMem_resetGlade s k).trans hm, ?_, ?_⟩
  · refine List.map_eq_nil_iff.2 (List.filter_eq_nil_iff.2 fun e he hk => ?_)
    rw [hcontexts, List.mem_filter, decide_eq_true_eq] at he
    exact he.2 (List.mem_map.2 ⟨e, List.mem_filter.2 ⟨he.1, hk⟩, rfl⟩)
  · rw [hcontexts, at?_filter s.contexts (q := fun i => decide (i ∉ s.contextsOf k)) fun _ => rfl, if_pos (decide_eq_true hn)]
  · rw [dram_resetGlade]
    exact read_wipeGlade (s := emptiedGlade s k) _ h1 (by rw [hat, hlen]; exact h2) ho
  · rw [State.channelAt, channels_resetGlade]
    refine channelAt_emptiedGlade (s := s) (k := k) ?_
    rw [hat', hengines, show (16 * e + c) / 16 = e by omega]
    exact he
  · rw [hglade, hd]
  · rw [hglade]
    exact (congrArg (fun x : Glade => { x with key := g.key }) hsame :)

/-! ## The thermal stop (R376) -/

/-- Contexts may be gone, with their groups; host memory and the package's own registers stand. -/
structure Lost (s t : State) : Prop where
  contexts : ∀ e ∈ t.contexts, e ∈ s.contexts
  groups : ∀ e ∈ t.groups, e ∈ s.groups ∧ ((s.contexts.at? e.2.ctx).isSome = true → (t.contexts.at? e.2.ctx).isSome = true)
  boot : t.boot = s.boot
  hostMem : t.hostMem = s.hostMem

theorem Lost.refl (s : State) : Lost s s := ⟨fun _ h => h, fun _ h => ⟨h, id⟩, rfl, rfl⟩

theorem Lost.trans {s t u : State} (h : Lost s t) (k : Lost t u) : Lost s u :=
  ⟨fun e he => h.contexts e (k.contexts e he),
    fun e he => ⟨(h.groups e (k.groups e he).1).1, fun hs => (k.groups e he).2 ((h.groups e (k.groups e he).1).2 hs)⟩,
    k.boot.trans h.boot, k.hostMem.trans h.hostMem⟩

theorem Forgotten.lost {s t : State} {l : List Nat} (h : Forgotten s l t) : Lost s t := by
  refine ⟨fun e he => ?_, fun e he => ?_, h.boot, h.hostMem⟩
  · rw [h.contexts] at he
    exact (List.mem_filter.1 he).1
  · rw [h.groups] at he
    obtain ⟨hs, hl⟩ := List.mem_filter.1 he
    refine ⟨hs, fun hc => ?_⟩
    rw [h.contexts, at?_filter s.contexts (q := fun i => decide (i ∉ l)) fun _ => rfl, if_pos hl]
    exact hc

theorem lost_resetGlade (s : State) (k : Nat) : Lost s (s.resetGlade k) := by
  obtain ⟨hc, hg, hb, hm⟩ := (forgotten_emptiedGlade s k).lost
  rw [← contexts_resetGlade] at hc hg
  rw [← groups_resetGlade] at hg
  exact ⟨hc, hg, (boot_resetGlade s k).trans hb, (hostMem_resetGlade s k).trans hm⟩

theorem lost_destroy (s : State) (ctx : Nat) : Lost s (s.destroy ctx) := by
  unfold State.destroy
  dsimp only
  split
  · exact (forgotten_destroyOne s ctx).lost.trans (lost_resetGlade _ _)
  · exact (forgotten_destroyOne s ctx).lost

theorem Lost.at?_none {s t : State} (h : Lost s t) {c : Nat} (hn : s.contexts.at? c = none) : t.contexts.at? c = none := by
  by_contra hne
  obtain ⟨x, hx⟩ := Option.ne_none_iff_exists'.1 hne
  have := at?_isSome_of_mem (h.contexts _ (mem_of_at? hx))
  rw [hn] at this
  cases this

theorem destroy_at? (s : State) (ctx : Nat) : (s.destroy ctx).contexts.at? ctx = none := by
  have hone : (s.destroyOne ctx).contexts.at? ctx = none := by
    rw [(forgotten_destroyOne s ctx).contexts, at?_filter s.contexts (q := fun i => decide (i ∉ [ctx])) fun _ => rfl, if_neg (by simp)]
  unfold State.destroy
  dsimp only
  split
  · exact (lost_resetGlade _ _).at?_none hone
  · exact hone

theorem lost_killContext (s : State) (ctx : Nat) : Lost s (s.killContext ctx) := by
  unfold State.killContext
  split
  · exact lost_destroy s ctx
  · exact Lost.refl s

theorem killContext_at? (s : State) (ctx : Nat) : (s.killContext ctx).contexts.at? ctx = none := by
  unfold State.killContext
  split
  · exact destroy_at? s ctx
  · next h => exact Option.not_isSome_iff_eq_none.1 h

theorem lost_killAll (l : List Nat) : ∀ s : State, Lost s (l.foldl State.killContext s) := by
  induction l with
  | nil => exact Lost.refl
  | cons c l ih => exact fun s => (lost_killContext s c).trans (ih _)

theorem killAll_at? (l : List Nat) : ∀ s : State, ∀ c ∈ l, (l.foldl State.killContext s).contexts.at? c = none := by
  induction l with
  | nil => exact fun _ _ h => nomatch h
  | cons d l ih =>
    intro s c hc
    rcases List.mem_cons.1 hc with rfl | hc
    · exact (lost_killAll l _).at?_none (killContext_at? s c)
    · exact ih _ c hc

theorem killAll_contexts (s : State) : ((s.contexts.map (·.1)).foldl State.killContext s).contexts = [] := by
  refine List.eq_nil_iff_forall_not_mem.2 fun e he => ?_
  have hmem := List.mem_map_of_mem (f := fun e : Nat × Context => e.1) ((lost_killAll (s.contexts.map (·.1)) s).contexts e he)
  have := at?_isSome_of_mem he
  rw [killAll_at? _ s _ hmem] at this
  cases this

theorem thermalStop_unpowered {s : State} (h : s.boot.powered = false) : exec .thermalStop s = .next s := by
  show execThermalStop s = _
  rw [execThermalStop, if_neg (by rw [h]; decide)]

theorem thermalStop_spec {s : State} (h : s.boot.powered = true) : ∃ t,
    exec .thermalStop s = .next t ∧ t.boot.state = .off ∧ t.boot.powered = true ∧
    t.boot.overs = s.boot.overs ∧ t.boot.lowered = 0 ∧ t.boot.throttleAt = none ∧ t.boot.hotAt = none ∧ t.contexts = [] ∧
    t.hostMem = s.hostMem ∧ ∀ e ∈ t.groups, (s.contexts.at? e.2.ctx) = none := by
  have hlost := lost_killAll (s.contexts.map (·.1)) s
  have hnone := killAll_contexts s
  have hexec : exec .thermalStop s = execThermalStop s := rfl
  rw [hexec, execThermalStop, if_pos h]
  dsimp only
  generalize (s.contexts.map (·.1)).foldl State.killContext s = u at hlost hnone
  refine ⟨_, rfl, rfl, (congrArg Boot.powered hlost.boot :).trans h, (congrArg Boot.overs hlost.boot :), rfl, rfl, rfl,
    hnone, hlost.hostMem, fun e he => ?_⟩
  by_contra hne
  have hs := (hlost.groups e he).2 (Option.isSome_iff_ne_none.2 hne)
  rw [hnone] at hs
  cases hs

theorem start_cases {s : State} {port : Nat} (hp : s.boot.powered = true) (hport : port < 4) (h : s.boot.state = .ready ∨ s.boot.state = .off)
    (e : Instr × BitVec 32 × Bool) (he : e ∈ [(Instr.startCold port 1, (1 : BitVec 32), true), (.startWarm port 0, 0, false)]) :
    exec e.1 s = .next (portReplied (s.beginStart e.2.2) port 0x13 e.2.1 0x01) ∧
      exec (.sidebandStartRequest e.2.2) s = .next (s.beginStart e.2.2) := by
  have hside (cold : Bool) : exec (.sidebandStartRequest cold) s = .next (s.beginStart cold) := by
    rw [sidebandStartRequest_eq hp, requestStart_begins h]
  rcases List.mem_pair.1 he with rfl | rfl
  · exact ⟨by rw [startCold_eq hp hport, requestStart_begins h], hside true⟩
  · exact ⟨by rw [startWarm_eq hp hport, requestStart_begins h], hside false⟩

theorem noteHot_cases (s : State) : ∃ w, s.noteHot = { s with boot := { s.boot with hotAt := w } } ∧
    (12 ∈ s.boot.overs → (∀ k, k < 288 → (s.coreAt k).step ≤ 32 + s.boot.lowered) → w = some (s.boot.hotAt.getD s.time)) ∧
    (12 ∉ s.boot.overs ∨ (∃ k, k < 288 ∧ 32 + s.boot.lowered < (s.coreAt k).step) → w = none) :=
  ⟨s.hotSince, rfl, hotSince_hot, hotSince_none⟩

theorem not_ready_of_starting {s : State} (h : s.boot.state = .starting) : s.isReady = false := by
  rw [State.isReady, h, Bool.and_eq_false_iff]
  exact .inr rfl

/-- Settles O59: one lemma for each event, in the order of the statement. -/
theorem packageEvents : Obligations.PackageEvents := by
  unfold Obligations.PackageEvents
  refine ⟨fun s port arg0 hr hport => ⟨fun hl hf => gcreate_spec arg0 hr hport hl hf, gcreate_illegal arg0 hr hport, fun k hk ha =>
      ⟨?gdestroy, ?gdestroyRefused, ?gset⟩⟩,
    fun s port hp hport hs e he => ?start, fun s hs => ⟨fun port arg0 hp hport => ⟨?startStarting, ?gcreateStarting⟩,
      startCompletion_spec hs, fun ok cause hg => startFailure_spec hs hg ok cause⟩,
    fun s ctx base size => ⟨rangeInvalidation_waits base size, rangeInvalidation_drops base size⟩, fun s sl k o hg ho => ?scrub,
    fun s key sl o hs ho => ⟨rekey_rest s key sl o, writtenKey_rekey s key sl o, fun i hi => byteAt_rekey_line hs key sl o hi,
      fun k sl' o' h => byteAt_rekey_other s key sl o k h⟩, throttleStep_cases,
    fun s t => step_of_throttleDue, fun s => ⟨fun _ => rfl, noteHot_cases s⟩,
    fun s t hh h h1 h2 h3 => due_thermalStop (stopDue_of_hotAt hh h) h1 h2 h3, fun s => ⟨thermalStop_unpowered, thermalStop_spec⟩,
    fun raise s atLeast cls src ctx addr detail => ⟨errorBy_none raise s atLeast cls src ctx addr detail,
      fun x hx => errorBy_cases raise s atLeast cls src ctx addr detail hx⟩,
    fun _ _ _ _ _ _ _ => ⟨rfl, rfl⟩, report_cases, logIn_eq, action_cases, fun g e => ⟨write_of_room g e, write_of_full g e⟩, logEntry_fields,
    fun s port glade o data h => writeErrsev_refused h, fun s k g h => resetGlade_spec h, fun s => ⟨powerOff_spec, powerOn_spec⟩⟩
  case gdestroy => exact gdestroy_spec arg0 hr hport hk ha
  case gdestroyRefused => exact gdestroy_refused arg0 hr hport hk ha
  case gset => exact gset_spec arg0 hr hport hk ha
  case start =>
    obtain ⟨hi, hside⟩ := start_cases hp hport hs e he
    exact start_of hi hside
  case startStarting => rw [startCold_eq hp hport, requestStart_starting hs]
  case gcreateStarting => exact gcreate_not_ready arg0 hp (not_ready_of_starting hs) hport
  case scrub =>
    exact ⟨scrubbed s k sl (o / 128 * 128), scrubbed_of_tracked k, scrubbed_of_untracked k, scrubbing_eq 0 hg ho, scrubbing_eq 1 hg ho,
      scrubbing_eq 2 hg ho⟩

end Sys2Proof.Machine
end
